-- ==== Sys2Proof/Word.lean ====
section
/-! DEFINITION. The word types of the Chiloth Draja (WCD-4S): bytes, 64-bit registers and addresses, 32-bit cells (R13, R68). -/

namespace Sys2Proof

/-- One byte of memory or of an instruction. -/
abbrev Byte := BitVec 8

/-- A scalar register, a program counter, a virtual address, a system register (R68). -/
abbrev Word := BitVec 64

/-- A cell of the matrix file, an accumulator word, a flag word (R13). -/
abbrev W32 := BitVec 32

/-- One plane of the negative: bit i belongs to lane i (R119). -/
abbrev Plane := BitVec 128

end Sys2Proof
end

