-- ==== Sys2Proof/Config.lean ====
section
/-! DEFINITION. What the spec leaves open, as opaque constants (free values): nothing proves a value of one. Each is applied to State.fresh, or to the operands it depends on. -/

namespace Sys2Proof

/-- A system register of a quadrant or a bay, or a coordinate, read on a die control core, which stands in no quadrant: its fields take the bits (DESIGN CHOICE, log 20). -/
opaque Config.noQuadrant : Nat → Word

/-- AES-256-XTS on a 16-byte block: for a key and a block address, a permutation of the blocks, which encrypts; its inverse decrypts (R380; DESIGN CHOICE, log 13). -/
opaque Config.xts : Nat → Nat → Equiv.Perm (BitVec 128)

/-- The microjoules that a quadrant's estimate gains in a cycle of the control clock, by quadrant and cycle (R363; DESIGN CHOICE, log 15). -/
opaque Config.energy : Nat → Nat → Word

/-- A SHA3-384 digest, 48 bytes, of a byte string (R375, R379; DESIGN CHOICE, log 17). -/
opaque Config.digest : List (BitVec 8) → List (BitVec 8)

/-- A dual signature (RSA-3072 and SLH-DSA) of a byte string (R379; DESIGN CHOICE, log 17). -/
opaque Config.signature : List (BitVec 8) → List (BitVec 8)

/-- Which of the bases that are free the runtime chooses for a tier's data segment: by the count of free values and the tier (R365; DESIGN CHOICE, log 47). -/
opaque Config.segment : Nat → Nat → Nat

/-- Which of the frames that are free the loader gives a page: by the count of free values and the page (R396, R401; DESIGN CHOICE, log 63). -/
opaque Config.segmentFrame : Nat → Nat → Nat

/-- Words of the dump whose place the spec leaves open, as functions of what they hold: the head's, by DEVREV, DEVFEAT, PKG and FWMEAS; a permit event's, by time, core, sequencer, weight and kind; an error's, by time, address and kind (Table 19.3; DESIGN CHOICE, log 55). -/
opaque Config.dumpHead : Nat → Nat → Nat → List (BitVec 8) → Nat → Word
opaque Config.permitEntry : Nat → Nat → Nat → Nat → Nat → Nat → Word
opaque Config.errorEntry : Nat → Nat → Nat → Nat → Word

/-- Words of a save area's SMARK part, by the tags and masks that stand at the four sequencers, and the word's number (Table 15.8; DESIGN CHOICE, log 45). -/
opaque Config.markWord : List Nat → Nat → Word

/-- The two identity public keys of a package, as bytes (R379; DESIGN CHOICE, log 17). -/
opaque Config.identity : Nat → List (BitVec 8)

/-- The firmware image of a package's n-th boot, and its security version (R379; DESIGN CHOICE, log 17). -/
opaque Config.firmware : Nat → Nat → List (BitVec 8)
opaque Config.securityVersion : Nat → Nat → BitVec 32

/-- The configuration of a virtual function's partition, as bytes: by its die control cores, its quadrants, the ranges of RCMIN and BUDGET, and the points (R379; DESIGN CHOICE, log 17). -/
opaque Config.partition : List (List Nat) → List (BitVec 8)

/-- The SHA3-256 digest of a byte string (R379; DESIGN CHOICE, log 17). -/
opaque Config.digest256 : List (BitVec 8) → List (BitVec 8)

/-- A free 64-bit value, by a counter (DESIGN CHOICE, log 2). -/
opaque Config.freeWord : Nat → Word

end Sys2Proof
end

