-- ==== Sys2Proof/Syntax.lean ====
section
/-! DEFINITION. The instruction set as syntax: one constructor per row of spec/opcode_table.json. A core instruction carries the fields of the 96-bit internal word (Table 2.2) and the form it was written in; a row of the 2-byte or 4-byte form carries that form's operands (R34, R35); an event row carries what it acts on. -/

namespace Sys2Proof

/-- The four sequencers of a core, numbered as Table 1.5 numbers them. -/
inductive SeqId where
  | ld | cp | st | ct
  deriving DecidableEq, Repr

/-- The five forms of an instruction (Table 2.1). -/
inductive Form where
  | two | four | six | eight | twelve
  deriving DecidableEq, Repr

/-- The fields of the internal word beside OPC and FN (Table 2.2, R27), with the form that carried them. -/
structure Fields where
  form : Form
  pop  : BitVec 4
  push : BitVec 4
  dly  : BitVec 4
  e    : Bool
  rc   : BitVec 3
  q    : BitVec 3
  d    : BitVec 12
  a    : BitVec 12
  b    : BitVec 12
  x    : BitVec 24
  deriving DecidableEq, Repr

/-- What a virtual function's partition holds: its die control cores (numbers 2s + d in the package), its quadrants, and the ranges and points that the physical function has set for its OPSET (R307, R333, R359). -/
structure VfConfig where
  dccs      : List Nat
  quads     : List Nat
  rcLo      : Nat
  rcHi      : Nat
  budgetLo  : Nat
  budgetHi  : Nat
  points    : List Nat
  deriving DecidableEq, Repr

/-- A mailbox as a requester of the PCI Express port names it: the die control core, and the function it speaks for, 0 the physical function (R307, R333). -/
structure Mailbox where
  node : Nat
  fn   : Nat
  deriving DecidableEq, Repr

/-- What a transaction at the PCI Express port does: a write of bytes at the address that the transaction names (R308); one that fails its IDE check (R381); a change of the state of the function's TDI to 0 none, 1 CONFIG_LOCKED, 2 RUN or 3 ERROR (R380, Table 19.2); the configuration of a function's partition by the physical function (R307, R359; DESIGN CHOICE, log 62). -/
inductive HostOp where
  | write (data : List Byte)
  | ideFail
  | tdi (state : Nat)
  | configure (vf : Nat) (config : VfConfig)
  deriving DecidableEq, Repr

/-- Every instruction and every event of the machine. -/
inductive Instr where
  /-- R81: Does nothing but its token pops and pushes. -/
  | nop (f : Fields)
  /-- R82: Retires after all earlier instructions of its sequencer and stops the sequencer fetching. -/
  | halt (f : Fields)
  /-- R83: Waits until the core's CYCLE reaches s[A] plus an immediate. -/
  | waitc (f : Fields)
  /-- R76: Unconditional PC-relative branch. -/
  | br (f : Fields)
  /-- R77: Branches when two scalar registers are equal. -/
  | brcEq (f : Fields)
  /-- R77: Branches when two scalar registers differ. -/
  | brcNe (f : Fields)
  /-- R77: Branches on signed less-than of two registers. -/
  | brcLt (f : Fields)
  /-- R77: Branches on signed greater-or-equal of two registers. -/
  | brcGe (f : Fields)
  /-- R77: Branches on unsigned less-than of two registers. -/
  | brcLtn (f : Fields)
  /-- R77: Branches on unsigned greater-or-equal of two registers. -/
  | brcGen (f : Fields)
  /-- R77: Branches when the named bit of the left register is 1. -/
  | brcBset (f : Fields)
  /-- R77: Branches when the named bit of the left register is 0. -/
  | brcBclr (f : Fields)
  /-- R77: Branches when a register equals an immediate. -/
  | brciEq (f : Fields)
  /-- R77: Branches when a register differs from an immediate. -/
  | brciNe (f : Fields)
  /-- R77: Branches on signed less-than against an immediate. -/
  | brciLt (f : Fields)
  /-- R77: Branches on signed greater-or-equal against an immediate. -/
  | brciGe (f : Fields)
  /-- R77: Branches on unsigned less-than against an immediate. -/
  | brciLtn (f : Fields)
  /-- R77: Branches on unsigned greater-or-equal against an immediate. -/
  | brciGen (f : Fields)
  /-- R77: Branches when the immediate-numbered bit of a register is 1. -/
  | brciBset (f : Fields)
  /-- R77: Branches when the immediate-numbered bit of a register is 0. -/
  | brciBclr (f : Fields)
  /-- R78: Decrements s[D] and branches while it is non-zero. -/
  | loop (f : Fields)
  /-- R79: Writes the return address to s31 and jumps PC-relative. -/
  | call (f : Fields)
  /-- R79: Jumps to the address in s[A]. -/
  | jmpr (f : Fields)
  /-- R79: Writes the return address to s31 and jumps to s[A]. -/
  | callr (f : Fields)
  /-- R79: Jumps to the address in s31. -/
  | ret (f : Fields)
  /-- R72: Scalar wrapping addition of two registers. -/
  | add (f : Fields)
  /-- R72: Scalar wrapping subtraction of two registers. -/
  | sub (f : Fields)
  /-- R72: Scalar bitwise AND. -/
  | and (f : Fields)
  /-- R72: Scalar bitwise OR. -/
  | or (f : Fields)
  /-- R72: Scalar bitwise XOR. -/
  | xor (f : Fields)
  /-- R72: Scalar a AND NOT b. -/
  | andn (f : Fields)
  /-- R72: Scalar shift left. -/
  | shl (f : Fields)
  /-- R72: Scalar logical shift right. -/
  | shr (f : Fields)
  /-- R72: Scalar arithmetic shift right. -/
  | sar (f : Fields)
  /-- R72: Scalar rotate left. -/
  | rol (f : Fields)
  /-- R72: Scalar signed minimum. -/
  | min (f : Fields)
  /-- R72: Scalar signed maximum. -/
  | max (f : Fields)
  /-- R72: Scalar unsigned minimum. -/
  | minn (f : Fields)
  /-- R72: Scalar unsigned maximum. -/
  | maxn (f : Fields)
  /-- R72: Sets 1 if a is signed-less than b. -/
  | slt (f : Fields)
  /-- R72: Sets 1 if a is unsigned-less than b. -/
  | sltn (f : Fields)
  /-- R72: Scalar addition of a sign-extended immediate. -/
  | addi (f : Fields)
  /-- R72: Scalar subtraction of an immediate. -/
  | subi (f : Fields)
  /-- R72: Scalar AND with an immediate. -/
  | andi (f : Fields)
  /-- R72: Scalar OR with an immediate. -/
  | ori (f : Fields)
  /-- R72: Scalar XOR with an immediate. -/
  | xori (f : Fields)
  /-- R72: Scalar AND NOT with an immediate. -/
  | andni (f : Fields)
  /-- R72: Scalar shift left by an immediate. -/
  | shli (f : Fields)
  /-- R72: Scalar logical shift right by an immediate. -/
  | shri (f : Fields)
  /-- R72: Scalar arithmetic shift right by an immediate. -/
  | sari (f : Fields)
  /-- R72: Scalar rotate left by an immediate. -/
  | roli (f : Fields)
  /-- R72: Signed minimum with an immediate. -/
  | mini (f : Fields)
  /-- R72: Signed maximum with an immediate. -/
  | maxi (f : Fields)
  /-- R72: Unsigned minimum with an immediate. -/
  | minni (f : Fields)
  /-- R72: Unsigned maximum with an immediate. -/
  | maxni (f : Fields)
  /-- R72: Signed less-than against an immediate. -/
  | slti (f : Fields)
  /-- R72: Unsigned less-than against an immediate. -/
  | sltni (f : Fields)
  /-- R73: Low 64 bits of a scalar product. -/
  | mul (f : Fields)
  /-- R73: High 64 bits of the signed product. -/
  | mulh (f : Fields)
  /-- R73: High 64 bits of the unsigned product. -/
  | mulhn (f : Fields)
  /-- R73: Signed scalar quotient with defined divide-by-zero result. -/
  | div (f : Fields)
  /-- R73: Unsigned scalar quotient. -/
  | divn (f : Fields)
  /-- R73: Signed scalar remainder. -/
  | rem (f : Fields)
  /-- R73: Unsigned scalar remainder. -/
  | remn (f : Fields)
  /-- R74: Counts leading zero bits. -/
  | clz (f : Fields)
  /-- R74: Counts trailing zero bits. -/
  | ctz (f : Fields)
  /-- R74: Counts one bits. -/
  | popc (f : Fields)
  /-- R74: Reverses all 64 bits. -/
  | brev (f : Fields)
  /-- R74: Sign-extends from bit 7, 15 or 31 by type. -/
  | sext (f : Fields)
  /-- R74: Zero-extends from 8, 16 or 32 bits by type. -/
  | zext (f : Fields)
  /-- R75: Selects s[A] or s[B] by a condition register. -/
  | sel (f : Fields)
  /-- R75: Loads a sign-extended 24-bit immediate. -/
  | li (f : Fields)
  /-- R75: Shifts s[D] left 24 and ORs in an immediate. -/
  | lui (f : Fields)
  /-- R75: Copies one scalar register to another. -/
  | mov (f : Fields)
  /-- R86: Reads a system register into a scalar register. -/
  | mfs (f : Fields)
  /-- R86: Writes a scalar register into a system register. -/
  | mts (f : Fields)
  /-- R84: Scalar load of 1 to 8 bytes with sign or zero extension. -/
  | lds (f : Fields)
  /-- R84: Scalar store of the low 1 to 8 bytes of a register. -/
  | sts (f : Fields)
  /-- R93: Waits until named FIFOs hold at least n tokens, removing none. -/
  | tokw (f : Fields)
  /-- R93: Reserves and places n tokens in named FIFOs. -/
  | toks (f : Fields)
  /-- R34: Two-byte form of NOP. -/
  | nop2b (d a : BitVec 5)
  /-- R34: Two-byte form of ADD folding d := d + a. -/
  | add2b (d a : BitVec 5)
  /-- R34: Two-byte form of SUB. -/
  | sub2b (d a : BitVec 5)
  /-- R34: Two-byte form of AND. -/
  | and2b (d a : BitVec 5)
  /-- R34: Two-byte form of OR. -/
  | or2b (d a : BitVec 5)
  /-- R34: Two-byte form of XOR. -/
  | xor2b (d a : BitVec 5)
  /-- R34: Two-byte form of ANDN. -/
  | andn2b (d a : BitVec 5)
  /-- R34: Two-byte form of SHL. -/
  | shl2b (d a : BitVec 5)
  /-- R34: Two-byte form of SHR. -/
  | shr2b (d a : BitVec 5)
  /-- R34: Two-byte form of SAR. -/
  | sar2b (d a : BitVec 5)
  /-- R34: Two-byte form of ROL. -/
  | rol2b (d a : BitVec 5)
  /-- R34: Two-byte form of MIN. -/
  | min2b (d a : BitVec 5)
  /-- R34: Two-byte form of MAX. -/
  | max2b (d a : BitVec 5)
  /-- R34: Two-byte form of MINN. -/
  | minn2b (d a : BitVec 5)
  /-- R34: Two-byte form of MAXN. -/
  | maxn2b (d a : BitVec 5)
  /-- R34: Two-byte form of SLT. -/
  | slt2b (d a : BitVec 5)
  /-- R34: Two-byte form of SLTN. -/
  | sltn2b (d a : BitVec 5)
  /-- R34: Two-byte form of MUL. -/
  | mul2b (d a : BitVec 5)
  /-- R34: Two-byte form of MULH. -/
  | mulh2b (d a : BitVec 5)
  /-- R34: Two-byte form of MULHN. -/
  | mulhn2b (d a : BitVec 5)
  /-- R34: Two-byte form of DIV. -/
  | div2b (d a : BitVec 5)
  /-- R34: Two-byte form of DIVN. -/
  | divn2b (d a : BitVec 5)
  /-- R34: Two-byte form of REM. -/
  | rem2b (d a : BitVec 5)
  /-- R34: Two-byte form of REMN. -/
  | remn2b (d a : BitVec 5)
  /-- R34: Two-byte form of CLZ. -/
  | clz2b (d a : BitVec 5)
  /-- R34: Two-byte form of CTZ. -/
  | ctz2b (d a : BitVec 5)
  /-- R34: Two-byte form of POPC. -/
  | popc2b (d a : BitVec 5)
  /-- R34: Two-byte form of BREV. -/
  | brev2b (d a : BitVec 5)
  /-- R34: Two-byte form of SEXT.i8. -/
  | sextI82b (d a : BitVec 5)
  /-- R34: Two-byte form of SEXT.i16. -/
  | sextI162b (d a : BitVec 5)
  /-- R34: Two-byte form of SEXT.i32. -/
  | sextI322b (d a : BitVec 5)
  /-- R34: Two-byte form of MOV. -/
  | mov2b (d a : BitVec 5)
  /-- R112: Writes lane copies of A under the XOR or overwrite form. -/
  | vmov (f : Fields)
  /-- R112: Lane-wise AND. -/
  | vand (f : Fields)
  /-- R112: Lane-wise OR. -/
  | vor (f : Fields)
  /-- R112: Lane-wise XOR. -/
  | vxor (f : Fields)
  /-- R112: Lane-wise a AND NOT b. -/
  | vandn (f : Fields)
  /-- R112: Lane-wise wrapping addition. -/
  | vadd (f : Fields)
  /-- R112: Lane-wise wrapping subtraction. -/
  | vsub (f : Fields)
  /-- R112: Lane-wise signed minimum. -/
  | vmin (f : Fields)
  /-- R112: Lane-wise signed maximum. -/
  | vmax (f : Fields)
  /-- R112: Lane-wise unsigned minimum. -/
  | vminn (f : Fields)
  /-- R112: Lane-wise unsigned maximum. -/
  | vmaxn (f : Fields)
  /-- R112: Lane-wise low product. -/
  | vmul (f : Fields)
  /-- R112: Lane-wise high product, signedness by Q. -/
  | vmulh (f : Fields)
  /-- R112: Lane-wise shift left. -/
  | vshl (f : Fields)
  /-- R112: Lane-wise logical shift right. -/
  | vshr (f : Fields)
  /-- R112: Lane-wise arithmetic shift right. -/
  | vsar (f : Fields)
  /-- R112: Lane-wise rounded-up average. -/
  | vavg (f : Fields)
  /-- R113: Lane mask where a equals b. -/
  | vcmpEq (f : Fields)
  /-- R113: Lane mask where a differs from b. -/
  | vcmpNe (f : Fields)
  /-- R113: Lane mask on signed less-than. -/
  | vcmpLt (f : Fields)
  /-- R113: Lane mask on signed greater-or-equal. -/
  | vcmpGe (f : Fields)
  /-- R113: Lane mask on unsigned less-than. -/
  | vcmpLtn (f : Fields)
  /-- R113: Lane mask on unsigned greater-or-equal. -/
  | vcmpGen (f : Fields)
  /-- R113: Selects a or b per lane by a mask operand. -/
  | vsel (f : Fields)
  /-- R114: Lane-wise wrapping absolute value. -/
  | vabs (f : Fields)
  /-- R114: Lane-wise leading-zero count. -/
  | vclz (f : Fields)
  /-- R114: Lane-wise population count. -/
  | vpopc (f : Fields)
  /-- R115: Wrapping sum of active lanes into lane 0. -/
  | vredAdd (f : Fields)
  /-- R115: Signed minimum of active lanes into lane 0. -/
  | vredMin (f : Fields)
  /-- R115: Signed maximum of active lanes into lane 0. -/
  | vredMax (f : Fields)
  /-- R115: Unsigned minimum of active lanes into lane 0. -/
  | vredMinn (f : Fields)
  /-- R115: Unsigned maximum of active lanes into lane 0. -/
  | vredMaxn (f : Fields)
  /-- R115: AND of active lanes into lane 0. -/
  | vredAnd (f : Fields)
  /-- R115: OR of active lanes into lane 0. -/
  | vredOr (f : Fields)
  /-- R115: XOR of active lanes into lane 0. -/
  | vredXor (f : Fields)
  /-- R116: Adds A into D in place, uncharged. -/
  | vaddin (f : Fields)
  /-- R116: Subtracts A from D in place. -/
  | vsubin (f : Fields)
  /-- R116: Negates D in place. -/
  | vnegin (f : Fields)
  /-- R116: Inverts D in place. -/
  | vnotin (f : Fields)
  /-- R116: Rotates each lane of D left by A. -/
  | vrotin (f : Fields)
  /-- R116: Multiplies D in place by an odd scalar. -/
  | vmulin (f : Fields)
  /-- R116: Reverses the bits of each lane of D in place. -/
  | vbrevin (f : Fields)
  /-- R117: Exchanges lanes of D and A. -/
  | vswap (f : Fields)
  /-- R117: Exchanges lanes of D and A where the control is non-zero. -/
  | vcswap (f : Fields)
  /-- R118: Reverses the order of active lanes of D. -/
  | vrevl (f : Fields)
  /-- R118: Rotates active lanes of D by a scalar count. -/
  | vrotl (f : Fields)
  /-- R118: Exchanges lanes i and i XOR m of D. -/
  | vbfly (f : Fields)
  /-- R120: Sorts a pair signed, keeping the exchange bit in the negative. -/
  | vmaxk (f : Fields)
  /-- R120: Signed min-first sort of a pair with a kept bit. -/
  | vmink (f : Fields)
  /-- R120: Unsigned max-first sort of a pair with a kept bit. -/
  | vmaxnk (f : Fields)
  /-- R120: Unsigned min-first sort of a pair with a kept bit. -/
  | vminnk (f : Fields)
  /-- R120: Absolute value keeping the sign bit in the negative. -/
  | vabsk (f : Fields)
  /-- R121: Pops a plane and undoes a keep exchange, charging disagreement. -/
  | vuncx (f : Fields)
  /-- R121: Pops a plane and undoes VABSK, charging disagreement. -/
  | vunabs (f : Fields)
  /-- R123: Pushes one bit per lane of A onto the negative. -/
  | npush (f : Fields)
  /-- R123: Pops a plane and charges its disagreement with A's bit. -/
  | nunpush (f : Fields)
  /-- R123: Pops a plane and XORs it into a bit of D, charging its popcount. -/
  | npop (f : Fields)
  /-- R123: Removes n planes and charges their popcounts. -/
  | ndrop (f : Fields)
  /-- R124: Moves n planes from the negative to memory. -/
  | nspill (f : Fields)
  /-- R124: Moves n planes from memory onto the negative. -/
  | nfill (f : Fields)
  /-- R123: Reads NTOP into a scalar register. -/
  | ndepth (f : Fields)
  /-- R125: Zeroes active lanes of D and charges the old bits. -/
  | erase (f : Fields)
  /-- R35: Four-byte form of VMOV. -/
  | vmov4b (d a b : BitVec 8)
  /-- R35: Four-byte form of VAND. -/
  | vand4b (d a b : BitVec 8)
  /-- R35: Four-byte form of VOR. -/
  | vor4b (d a b : BitVec 8)
  /-- R35: Four-byte form of VXOR. -/
  | vxor4b (d a b : BitVec 8)
  /-- R35: Four-byte form of VANDN. -/
  | vandn4b (d a b : BitVec 8)
  /-- R35: Four-byte form of VADD. -/
  | vadd4b (d a b : BitVec 8)
  /-- R35: Four-byte form of VSUB. -/
  | vsub4b (d a b : BitVec 8)
  /-- R35: Four-byte form of VMUL. -/
  | vmul4b (d a b : BitVec 8)
  /-- R35: Four-byte form of VMIN. -/
  | vmin4b (d a b : BitVec 8)
  /-- R35: Four-byte form of VMAX. -/
  | vmax4b (d a b : BitVec 8)
  /-- R35: Four-byte form of VMINN. -/
  | vminn4b (d a b : BitVec 8)
  /-- R35: Four-byte form of VMAXN. -/
  | vmaxn4b (d a b : BitVec 8)
  /-- R35: Four-byte form of VSHL. -/
  | vshl4b (d a b : BitVec 8)
  /-- R35: Four-byte form of VSHR. -/
  | vshr4b (d a b : BitVec 8)
  /-- R35: Four-byte form of VSAR. -/
  | vsar4b (d a b : BitVec 8)
  /-- R35: Four-byte form of VAVG. -/
  | vavg4b (d a b : BitVec 8)
  /-- R35: Four-byte form of VADD.i16. -/
  | vaddI164b (d a b : BitVec 8)
  /-- R35: Four-byte form of VSUB.i16. -/
  | vsubI164b (d a b : BitVec 8)
  /-- R35: Four-byte form of VADD.i8. -/
  | vaddI84b (d a b : BitVec 8)
  /-- R35: Four-byte form of VSUB.i8. -/
  | vsubI84b (d a b : BitVec 8)
  /-- R35: Four-byte form of VMAX.i16. -/
  | vmaxI164b (d a b : BitVec 8)
  /-- R35: Four-byte form of VMIN.i16. -/
  | vminI164b (d a b : BitVec 8)
  /-- R35: Four-byte form of VMUL.i16. -/
  | vmulI164b (d a b : BitVec 8)
  /-- R35: Four-byte form of VMULH.i16. -/
  | vmulhI164b (d a b : BitVec 8)
  /-- R35: Four-byte form of VADDIN. -/
  | vaddin4b (d a b : BitVec 8)
  /-- R35: Four-byte form of VSUBIN. -/
  | vsubin4b (d a b : BitVec 8)
  /-- R35: Four-byte form of VNEGIN. -/
  | vnegin4b (d a b : BitVec 8)
  /-- R35: Four-byte form of VNOTIN. -/
  | vnotin4b (d a b : BitVec 8)
  /-- R35: Four-byte form of VSWAP. -/
  | vswap4b (d a b : BitVec 8)
  /-- R35: Four-byte form of VPOPC. -/
  | vpopc4b (d a b : BitVec 8)
  /-- R35: Four-byte form of VREVL. -/
  | vrevl4b (d a b : BitVec 8)
  /-- R35: Four-byte form of VABS. -/
  | vabs4b (d a b : BitVec 8)
  /-- R35: Four-byte form of VMAXK. -/
  | vmaxk4b (d a b : BitVec 8)
  /-- R35: Four-byte form of VMINK. -/
  | vmink4b (d a b : BitVec 8)
  /-- R35: Four-byte form of VMAXNK. -/
  | vmaxnk4b (d a b : BitVec 8)
  /-- R35: Four-byte form of VMINNK. -/
  | vminnk4b (d a b : BitVec 8)
  /-- R35: Four-byte form of VABSK. -/
  | vabsk4b (d a b : BitVec 8)
  /-- R35: Four-byte form of VUNCX with kind MAX. -/
  | vuncx4b (d a b : BitVec 8)
  /-- R35: Four-byte form of VUNABS. -/
  | vunabs4b (d a b : BitVec 8)
  /-- R35: Four-byte form of ERASE. -/
  | erase4b (d a b : BitVec 8)
  /-- R35: Four-byte form of VFADD. -/
  | vfadd4b (d a b : BitVec 8)
  /-- R35: Four-byte form of VFSUB. -/
  | vfsub4b (d a b : BitVec 8)
  /-- R35: Four-byte form of VFMUL. -/
  | vfmul4b (d a b : BitVec 8)
  /-- R35: Four-byte form of VFMA with the addend defaulted to D. -/
  | vfma4b (d a b : BitVec 8)
  /-- R35: Four-byte form of VFMS. -/
  | vfms4b (d a b : BitVec 8)
  /-- R35: Four-byte form of VFNMA. -/
  | vfnma4b (d a b : BitVec 8)
  /-- R35: Four-byte form of VFMAC.e accumulating into D. -/
  | vfmacE4b (d a b : BitVec 8)
  /-- R35: Four-byte form of VFMIN. -/
  | vfmin4b (d a b : BitVec 8)
  /-- R35: Four-byte form of VFMAX. -/
  | vfmax4b (d a b : BitVec 8)
  /-- R35: Four-byte form of VFDIV. -/
  | vfdiv4b (d a b : BitVec 8)
  /-- R35: Four-byte form of VFSQRT. -/
  | vfsqrt4b (d a b : BitVec 8)
  /-- R35: Four-byte form of VFRCP. -/
  | vfrcp4b (d a b : BitVec 8)
  /-- R35: Four-byte form of VFRSQ. -/
  | vfrsq4b (d a b : BitVec 8)
  /-- R35: Four-byte form of VFEXP2. -/
  | vfexp24b (d a b : BitVec 8)
  /-- R35: Four-byte form of VFLOG2. -/
  | vflog24b (d a b : BitVec 8)
  /-- R35: Four-byte form of VFABS. -/
  | vfabs4b (d a b : BitVec 8)
  /-- R35: Four-byte form of VFADD.bf16. -/
  | vfaddBf164b (d a b : BitVec 8)
  /-- R35: Four-byte form of VFMA.bf16. -/
  | vfmaBf164b (d a b : BitVec 8)
  /-- R35: Four-byte form of VFNEGIN. -/
  | vfnegin4b (d a b : BitVec 8)
  /-- R35: Four-byte form of VMOV.e. -/
  | vmovE4b (d a b : BitVec 8)
  /-- R35: Four-byte form of VADD.e. -/
  | vaddE4b (d a b : BitVec 8)
  /-- R35: Four-byte form of VFADD.e. -/
  | vfaddE4b (d a b : BitVec 8)
  /-- R35: Four-byte form of VFMUL.e. -/
  | vfmulE4b (d a b : BitVec 8)
  /-- R35: Four-byte form of VFMA.e. -/
  | vfmaE4b (d a b : BitVec 8)
  /-- R159: Lane-wise floating addition. -/
  | vfadd (f : Fields)
  /-- R159: Lane-wise floating subtraction. -/
  | vfsub (f : Fields)
  /-- R159: Lane-wise floating multiplication. -/
  | vfmul (f : Fields)
  /-- R160: Lane-wise floating minimum with NaN rules. -/
  | vfmin (f : Fields)
  /-- R160: Lane-wise floating maximum with NaN rules. -/
  | vfmax (f : Fields)
  /-- R159: Lane-wise floating division. -/
  | vfdiv (f : Fields)
  /-- R161: Lane-wise multiplication by a power of two. -/
  | vfscale (f : Fields)
  /-- R162: Lane-wise magnitude of a with the sign of b. -/
  | vfcopysign (f : Fields)
  /-- R163: Fused a times b plus c, rounded once. -/
  | vfma (f : Fields)
  /-- R163: Fused a times b minus c. -/
  | vfms (f : Fields)
  /-- R163: Fused c minus a times b. -/
  | vfnma (f : Fields)
  /-- R164: Fused accumulation into the wide type, overwrite form only. -/
  | vfmac (f : Fields)
  /-- R162: Lane-wise floating absolute value. -/
  | vfabs (f : Fields)
  /-- R165: Correctly rounded square root. -/
  | vfsqrt (f : Fields)
  /-- R165: Correctly rounded reciprocal. -/
  | vfrcp (f : Fields)
  /-- R165: Correctly rounded reciprocal square root. -/
  | vfrsq (f : Fields)
  /-- R165: Correctly rounded power of two. -/
  | vfexp2 (f : Fields)
  /-- R165: Correctly rounded base-2 logarithm. -/
  | vflog2 (f : Fields)
  /-- R165: Rounds to an integral value towards minus infinity. -/
  | vffloor (f : Fields)
  /-- R165: Rounds to an integral value towards plus infinity. -/
  | vfceil (f : Fields)
  /-- R165: Rounds to an integral value towards zero. -/
  | vftrunc (f : Fields)
  /-- R165: Rounds to an integral value in FPCTL.RM. -/
  | vfrint (f : Fields)
  /-- R166: Writes a one-hot class mask per lane. -/
  | vfclass (f : Fields)
  /-- R167: Floating compare: ordered and equal. -/
  | vfcmpEq (f : Fields)
  /-- R167: Floating compare: unordered or not equal. -/
  | vfcmpNe (f : Fields)
  /-- R167: Floating compare: ordered less-than. -/
  | vfcmpLt (f : Fields)
  /-- R167: Floating compare: ordered less-or-equal. -/
  | vfcmpLe (f : Fields)
  /-- R167: Floating compare: ordered greater-than. -/
  | vfcmpGt (f : Fields)
  /-- R167: Floating compare: ordered greater-or-equal. -/
  | vfcmpGe (f : Fields)
  /-- R167: Floating compare: unordered. -/
  | vfcmpUnord (f : Fields)
  /-- R167: Floating compare: ordered. -/
  | vfcmpOrd (f : Fields)
  /-- R168: Fixed-tree floating sum of active lanes into lane 0. -/
  | vfredAdd (f : Fields)
  /-- R168: Fixed-tree floating maximum into lane 0. -/
  | vfredMax (f : Fields)
  /-- R168: Fixed-tree floating minimum into lane 0. -/
  | vfredMin (f : Fields)
  /-- R168: Fixed-tree maximum absolute value into lane 0. -/
  | vfredAmax (f : Fields)
  /-- R169: Inverts the sign bit of each lane in place. -/
  | vfnegin (f : Fields)
  /-- R148: Converts each lane between any two of the fourteen types. -/
  | vcvt (f : Fields)
  /-- R149: Quantises FP32 lanes by a scale. -/
  | vqnt (f : Fields)
  /-- R150: Dequantises lanes by an FP32 scale. -/
  | vdqnt (f : Fields)
  /-- R151: Forms one rounded-up block scale for the active lanes. -/
  | vscl (f : Fields)
  /-- R154: Packs narrow elements several to a cell. -/
  | vpack (f : Fields)
  /-- R154: Unpacks narrow elements one to a lane. -/
  | vunpk (f : Fields)
  /-- R153: Splits FP32 lanes into a narrow head and an FP32 tail. -/
  | vsplit (f : Fields)
  /-- R192: Writes a word of the shadow loop-nest table. -/
  | mtt (f : Fields)
  /-- R193: Checks the table, takes a permit and starts the loop nest. -/
  | mgo (f : Fields)
  /-- R194: Stops the live nest after the pass in progress. -/
  | mabort (f : Fields)
  /-- R180: Performs one explicit array pass into an accumulator row. -/
  | mma (f : Fields)
  /-- R181: Loads a row-buffer slot and its scale from the matrix file. -/
  | mlda (f : Fields)
  /-- R182: Exchanges the active and shadow weight banks. -/
  | wswap (f : Fields)
  /-- R184: Drains accumulator rows into the matrix file. -/
  | adrn (f : Fields)
  /-- R183: Clears accumulator rows to +0. -/
  | aclr (f : Fields)
  /-- R199: Checks the configuration, takes a permit and starts a reel. -/
  | reelon (f : Fields)
  /-- R210: Asks the running reel to stop at its next nominal beat start. -/
  | reeloff (f : Fields)
  /-- R205: Waits for and takes the oldest cue record. -/
  | cuew (f : Fields)
  /-- R206: Releases and returns a cue record to its array core. -/
  | cuedone (f : Fields)
  /-- R205: Takes a cue record if one waits, else all ones. -/
  | cuepoll (f : Fields)
  /-- R263: Reads and checks a grid descriptor into a slot. -/
  | hgdef (f : Fields)
  /-- R265: Hashed-grid lookup with interpolation into the matrix file. -/
  | hgl (f : Fields)
  /-- R268: Deterministic merged scatter of grid gradients by atomic adds. -/
  | hgsDet (f : Fields)
  /-- R268: Relaxed scatter, one atomic add per contribution. -/
  | hgsRel (f : Fields)
  /-- R267: Writes grid corner indices and weights without reading memory. -/
  | hgw (f : Fields)
  /-- R225: Unit-stride vector load into the matrix file. -/
  | vldUnit (f : Fields)
  /-- R225: Strided vector load. -/
  | vldStrd (f : Fields)
  /-- R225: Gathering vector load by lane offsets. -/
  | vldGath (f : Fields)
  /-- R227: Unit-stride vector store. -/
  | vstUnit (f : Fields)
  /-- R227: Strided vector store. -/
  | vstStrd (f : Fields)
  /-- R227: Scattering vector store. -/
  | vstScat (f : Fields)
  /-- R228: Copy-unit tile load into matrix rows or columns. -/
  | tld (f : Fields)
  /-- R228: Copy-unit tile store from the matrix file. -/
  | tst (f : Fields)
  /-- R408: Loads a 64-byte stream descriptor from memory. -/
  | sdef (f : Fields)
  /-- R230: Copy-unit byte copy between virtual ranges. -/
  | cpy (f : Fields)
  /-- R231: Fills the shadow weight bank from a stream. -/
  | cpyw (f : Fields)
  /-- R232: Hint to bring lines into L1 or L2, no architectural effect. -/
  | pref (f : Fields)
  /-- R244: Queue marker that issues with its matching partners to realign queues. -/
  | smark (f : Fields)
  /-- R233: Starts a change of the bay's scratchpad size. -/
  | phase (f : Fields)
  /-- R234: Frees or brings back into use a range of vault rows. -/
  | vaultf (f : Fields)
  /-- R278: Waits for and claims the next free bay ring slot. -/
  | rngclaim (f : Fields)
  /-- R278: Releases a claimed slot as filled. -/
  | rngfill (f : Fields)
  /-- R278: Waits for and takes the next filled slot. -/
  | rngwait (f : Fields)
  /-- R278: Frees the oldest taken slot. -/
  | rngfree (f : Fields)
  /-- R281: Waits for and acquires the next buffer of a buffer ring. -/
  | bacq (f : Fields)
  /-- R281: Releases the oldest held buffer. -/
  | brel (f : Fields)
  /-- R282: Releases at a scope and atomically adds to a flag of a named core. -/
  | rfadd (f : Fields)
  /-- R282: Releases at a scope and writes a flag of every member. -/
  | mfset (f : Fields)
  /-- R282: Waits until an own flag meets a condition and acquires. -/
  | flagw (f : Fields)
  /-- R282: Writes zero to an own flag. -/
  | flagclr (f : Fields)
  /-- R282: Reads an own flag. -/
  | flagrd (f : Fields)
  /-- R248: Acquire, release or full fence at a scope entry. -/
  | fence (f : Fields)
  /-- R285: Atomic integer add on a memory word. -/
  | atomAdd (f : Fields)
  /-- R285: Atomic AND. -/
  | atomAnd (f : Fields)
  /-- R285: Atomic OR. -/
  | atomOr (f : Fields)
  /-- R285: Atomic XOR. -/
  | atomXor (f : Fields)
  /-- R285: Atomic signed minimum. -/
  | atomMin (f : Fields)
  /-- R285: Atomic signed maximum. -/
  | atomMax (f : Fields)
  /-- R285: Atomic unsigned minimum. -/
  | atomMinn (f : Fields)
  /-- R285: Atomic unsigned maximum. -/
  | atomMaxn (f : Fields)
  /-- R285: Atomic exchange. -/
  | atomXchg (f : Fields)
  /-- R285: Atomic compare-and-swap. -/
  | atomCas (f : Fields)
  /-- R287: Atomic FP32 add rounded once by RNE. -/
  | atomFadd (f : Fields)
  /-- R287: Atomic FP32 minimum. -/
  | atomFmin (f : Fields)
  /-- R287: Atomic FP32 maximum. -/
  | atomFmax (f : Fields)
  /-- R290: Per-lane atomic add. -/
  | vatomAdd (f : Fields)
  /-- R290: Per-lane atomic AND. -/
  | vatomAnd (f : Fields)
  /-- R290: Per-lane atomic OR. -/
  | vatomOr (f : Fields)
  /-- R290: Per-lane atomic XOR. -/
  | vatomXor (f : Fields)
  /-- R290: Per-lane atomic signed minimum. -/
  | vatomMin (f : Fields)
  /-- R290: Per-lane atomic signed maximum. -/
  | vatomMax (f : Fields)
  /-- R290: Per-lane atomic unsigned minimum. -/
  | vatomMinn (f : Fields)
  /-- R290: Per-lane atomic unsigned maximum. -/
  | vatomMaxn (f : Fields)
  /-- R290: Per-lane atomic exchange. -/
  | vatomXchg (f : Fields)
  /-- R290: Per-lane atomic compare-and-swap. -/
  | vatomCas (f : Fields)
  /-- R290: Per-lane atomic FP32 add. -/
  | vatomFadd (f : Fields)
  /-- R290: Per-lane atomic FP32 minimum. -/
  | vatomFmin (f : Fields)
  /-- R290: Per-lane atomic FP32 maximum. -/
  | vatomFmax (f : Fields)
  /-- R291: Loads a scope entry 6 to 31 from a core bitmap. -/
  | scopeset (f : Fields)
  /-- R297: Copy-unit transfer from the own package to any package. -/
  | xput (f : Fields)
  /-- R297: Copy-unit transfer from any package into the own package. -/
  | xget (f : Fields)
  /-- R304: All-reduce FP32 sum in rank order over a scope entry. -/
  | clstFadd (f : Fields)
  /-- R304: All-reduce FP32 maximum. -/
  | clstFmax (f : Fields)
  /-- R304: All-reduce FP32 minimum. -/
  | clstFmin (f : Fields)
  /-- R304: All-reduce wrapping integer sum. -/
  | clstIadd (f : Fields)
  /-- R304: All-reduce signed integer maximum. -/
  | clstImax (f : Fields)
  /-- R318: Raises the software trap cause 0x38 with a code. -/
  | trap (f : Fields)
  /-- R313: Returns from a handler to UEPC and clears INH. -/
  | eret (f : Fields)
  /-- R319: Raises a breakpoint cause, 0x39 or 0x3A by debug state. -/
  | brk (f : Fields)
  /-- R321: Waits for and clears the sequencer's event latch. -/
  | wfe (f : Fields)
  /-- R321: Sends an event to a sequencer or die control core. -/
  | evsig (f : Fields)
  /-- R322: Drains the queue and invalidates the core's instruction cache. -/
  | synci (f : Fields)
  /-- R323: Invalidates TLB entries of the package by page, tag or all. -/
  | tlbi (f : Fields)
  /-- R328: Pre-empts a core, now or after notice, and saves its context. -/
  | csave (f : Fields)
  /-- R329: Installs a saved context on an empty core and restarts issue. -/
  | crest (f : Fields)
  /-- R324: Reads a register of a remote sequencer. -/
  | mfp (f : Fields)
  /-- R324: Writes a register of a halted or stopped remote sequencer. -/
  | mtp (f : Fields)
  /-- R325: Ends the grace of a pending pre-emption notice. -/
  | yield (f : Fields)
  /-- R338: Checks a kernel descriptor and adds a scoreboard entry. -/
  | krun (f : Fields)
  /-- R341: Adds a stream-transfer entry to the scoreboard. -/
  | strm (f : Fields)
  /-- R336: Atomically adds to a signal as a release. -/
  | sigAdd (f : Fields)
  /-- R336: Writes a signal as a release. -/
  | sigSet (f : Fields)
  /-- R336: Waits until a signal is zero or below and acquires. -/
  | sigWait (f : Fields)
  /-- R348: Aborts a scoreboard entry, failing it. -/
  | kabort (f : Fields)
  /-- R350: Remaps logical stacks onto physical stacks. -/
  | stkmap (f : Fields)
  /-- R356: Requests an explicit pour permit of a given weight. -/
  | permit (f : Fields)
  /-- R356: Releases the sequencer's explicit permit. -/
  | prel (f : Fields)
  /-- R357: Asks for a boost lease at a faster operating point. -/
  | lease (f : Fields)
  /-- R358: Sets a quadrant's point, floor and budget or a layer group's mode. -/
  | opset (f : Fields)
  /-- R360: Gates or requests the wake of a quadrant or stack. -/
  | gate (f : Fields)
  /-- R28: Fetched bytes are decoded and expanded into tagged 96-bit words. -/
  | icacheFill (node : Nat) (pc : Word)
  /-- R91: An issued instruction's result lands or its accesses complete and its pushes are placed. -/
  | instructionRetire (node : Nat) (seq : SeqId) (tag : Nat)
  /-- R103: A continuous wait reaches 2^EXP delivered cycles and raises cause 0x20. -/
  | waitTimeout (node : Nat) (seq : SeqId)
  /-- R320: The next instruction's PC matches an enabled breakpoint and cause 0x39 is raised. -/
  | hardwareBreakpoint (node : Nat) (seq : SeqId)
  /-- R239: A memory read or write, local, window or remote, is performed at its location. -/
  | accessPerform (node : Nat) (seq : SeqId) (path : Nat)
  /-- R221: A TLB miss is served by a table walk. -/
  | pageWalk (node : Nat) (va : Word)
  /-- R229: A chunk of a copy-unit transfer is translated, read and written. -/
  | copyChunk (node : Nat) (seq : SeqId)
  /-- R190: The loop nest fills banks and slots and makes one pass. -/
  | nestPass (node : Nat)
  /-- R352: The quadrant grants the oldest permit request that fits its budget. -/
  | permitGrant (quad : Nat)
  /-- R353: A permit lease expires; nests and transfers pause and re-request, explicit permits are released. -/
  | permitLeaseExpiry (quad : Nat)
  /-- R357: A boost lease expires and becomes inactive. -/
  | boostLeaseExpiry (node : Nat)
  /-- R202: The array sends a fill cue once its moment and queue room arrive. -/
  | fillCueSend (node : Nat)
  /-- R204: A drain cue is sent when a drain group's last beat is promoted. -/
  | drainCueSend (node : Nat)
  /-- R203: A cue record arrives in the target core's cue queue. -/
  | cueDeliver (node : Nat)
  /-- R200: At its nominal start a ready beat swaps if due and starts a pass. -/
  | beatStart (node : Nat)
  /-- R200: A beat's pass finishes reading its slot and clears FILL. -/
  | beatSlotRead (node : Nat)
  /-- R200: A beat's pass is promoted into its accumulator row. -/
  | reelPromotion (node : Nat)
  /-- R208: A beat not ready at its nominal start misses under HOLD or ABORT. -/
  | beatMiss (node : Nat)
  /-- R208: A held beat is checked again each period and starts when ready. -/
  | holdCheck (node : Nat)
  /-- R206: A returned record reaches the array and sets FILL or frees rows. -/
  | cuedoneArrive (node : Nat)
  /-- R210: A pending REELOFF stops beats at the next nominal start. -/
  | reeloffEffect (node : Nat)
  /-- R209: When every drain cue is answered the reel ends and REELON retires. -/
  | reelEnd (node : Nat)
  /-- R212: Pre-emption or a stopping fault suspends the reel at the next nominal beat. -/
  | reelSuspend (node : Nat)
  /-- R233: The PHASE drain ends and the new scratchpad size takes effect. -/
  | phaseDrainEnd (bay : Nat)
  /-- R304: Once all members arrive the unit combines in rank order and writes every member. -/
  | clstCombine (node : Nat)
  /-- R324: An MFP or MTP request reaches its target and is served. -/
  | remoteRequestArrive (node : Nat) (seq : SeqId)
  /-- R321: An event reaches its target and sets the event latch. -/
  | eventDeliver (node : Nat) (seq : SeqId)
  /-- R325: The notice grace ends and issue stops. -/
  | preemptGraceEnd (node : Nat)
  /-- R329: A restored snapshot entry lands its result and places its pushes. -/
  | snapshotLand (node : Nat)
  /-- R342: The controller issues an eligible scoreboard entry. -/
  | entryIssue (stack : Nat) (entry : Nat)
  /-- R343: An entry waiting 2^20 control-clock cycles becomes promoted. -/
  | entryPromotion (stack : Nat) (entry : Nat)
  /-- R346: A kernel or stream entry finishes, freeing cores and updating DONE. -/
  | kernelFinish (stack : Nat) (entry : Nat)
  /-- R333: An outside write to a die control core's mailbox sets PEND and restarts or signals it. -/
  | mboxWrite (box : Mailbox) (value : Word)
  /-- R308: A host transaction arrives at the PCI Express port. -/
  | hostTlp (pkg : Nat) (fn : Nat) (addr : Nat) (op : HostOp)
  /-- R295: A CRC error on a link causes a replay from the flit onward. -/
  | linkReplay (pkg : Nat) (link : Nat)
  /-- R362: Excess draw or vault heat makes the quadrant swallow clock pulses. -/
  | clockThrottle (quad : Nat) (dt : Nat)
  /-- R362: Vault temperature changes the refresh rate. -/
  | vaultRefreshRate (stack : Nat)
  /-- R361: A gated domain's hold ends and a held wake joins the arbiter queue. -/
  | breakEvenHoldEnd (stack : Nat) (dom : Nat)
  /-- R361: The in-rush arbiter completes one domain's wake. -/
  | domainWake (stack : Nat)
  /-- R375: Power-on runs the boot stages from firmware verification to release. -/
  | coldBoot (pkg : Nat)
  /-- R378: The package manager scrubs every vault every 24 hours. -/
  | vaultScrub (pkg : Nat)
  /-- R379: An SPDM request returns a dual-signed attestation report. -/
  | getMeasurements (pkg : Nat) (nonce : List Byte) (dcc : Option Nat)
  /-- R382: A fatal error stops the package and the dump is written. -/
  | fatalError (pkg : Nat) (source : Nat)
  /-- R315: Advancing FQHEAD frees fault-queue room and lets waiting entries be written. -/
  | fqheadWrite (node : Nat) (value : Word)
  /-- R315: A write to FQBASE or FQCFG resets HEAD and TAIL. -/
  | fqResetWrite (node : Nat) (num : Nat) (value : Word)
  /-- R280: A write to RNGCFG sets the slot size and count and resets the ring entry. -/
  | rngcfgWrite (node : Nat) (seq : SeqId) (value : Word)
  /-- R281: A write to BUFCFG sets the buffer ring and resets HEAD and HELD. -/
  | bufcfgWrite (node : Nat) (seq : SeqId) (value : Word)
  /-- R316: Restarts a stopped or halted sequencer at SEQPC. -/
  | seqctlResume (node : Nat) (seq : SeqId)
  /-- R316: Halts the target sequencer. -/
  | seqctlKill (node : Nat) (seq : SeqId)
  /-- R316: Executes XOINS once at SEQPC, then resumes. -/
  | seqctlResumeXo (node : Nat) (seq : SeqId)
  /-- R86: Writes a system register without behaviour of its own. -/
  | sysregWrite (node : Nat) (seq : SeqId) (num : Nat) (value : Word)
  /-- R10: When the fabric domain is formed, the fabric manager assigns the package number that PKG reports and sets the routes between packages. -/
  | fabricDomainFormation (pkgs : List Nat)
  deriving DecidableEq, Repr

end Sys2Proof
end

