-- ==== Sys2Proof/Decode.lean ====
section
/-! DEFINITION. Decoding: the byte stream of R25, the five forms of R34 to R38, the opcode map of Table 2.8, and after them an encoder written from the same tables. Decoding is total: it answers an instruction with its length, or names what it met instead. -/

namespace Sys2Proof

/-- What the decoder answers on the bytes at an address. -/
inductive Decoded where
  /-- a defined instruction and its length in bytes -/
  | instr (i : Instr) (len : Nat)
  /-- a first byte from 0xF8 to 0xFF: one halfword, marked (R51) -/
  | undefinedPrefix
  /-- an OPC or FN that Table 2.8 does not list (R42), with the length of its form -/
  | undefinedOpcode (len : Nat)
  /-- fewer bytes than the prefix announces -/
  | truncated
  deriving DecidableEq, Repr

/-! The compiler of Lean gives at most 244 constructors with arguments a place in memory, and the table has 436 rows: what builds an Instr is therefore marked noncomputable as a whole. The kernel evaluates it all the same. -/

noncomputable section

/-- The number 16 × OPC + FN of a row of Table 2.8. -/
abbrev Code := Nat

/-- The type a form without a Q field takes (R33, the Q column of Table 2.8). -/
def defaultQ (c : Code) : BitVec 3 :=
  let opc := c / 16
  let fn := c % 16
  if opc = 0x0B then (if fn = 4 then 2 else if fn = 5 then 6 else 0)
  else if opc = 0x0F ∨ opc = 0x10 then 3
  else if opc = 0x21 then (if fn = 8 ∨ fn = 9 then 6 else 2)
  else if opc = 0x22 then (if fn = 4 ∨ fn = 5 then 6 else 2)
  else if opc = 0x25 then (if fn = 3 ∨ fn = 4 then 6 else 2)
  else if opc = 0x2C then (if fn = 2 ∨ fn = 3 then 6 else 2)
  else if opc = 0x2E then 0
  else if 0x20 ≤ opc ∧ opc ≤ 0x2F then 2
  else if 0x80 ≤ opc ∧ opc ≤ 0x83 then 2
  else if opc = 0xA8 ∨ opc = 0xA9 then (if fn = 6 ∨ fn = 7 then 6 else if fn < 10 then 2 else 0)
  else if opc = 0xB2 then (if fn < 3 then 0 else 2)
  else 0

/-- The opcodes whose X[11:0] is a fourth matrix-file operand (R39): VFMA, VFMS, VFNMA, VFMAC and VSEL. -/
def hasFourth (c : Code) : Bool :=
  c / 16 == 0x41 || c / 16 == 0x23

/-- The constructor of a core instruction, from OPC and FN (R42, Table 2.8). -/
def coreOf (c : Code) (f : Fields) : Option Instr :=
  match c with
  | 0x000 => some (.nop f)
  | 0x001 => some (.halt f)
  | 0x002 => some (.waitc f)
  | 0x010 => some (.br f)
  | 0x020 => some (.brcEq f)
  | 0x021 => some (.brcNe f)
  | 0x022 => some (.brcLt f)
  | 0x023 => some (.brcGe f)
  | 0x024 => some (.brcLtn f)
  | 0x025 => some (.brcGen f)
  | 0x026 => some (.brcBset f)
  | 0x027 => some (.brcBclr f)
  | 0x030 => some (.brciEq f)
  | 0x031 => some (.brciNe f)
  | 0x032 => some (.brciLt f)
  | 0x033 => some (.brciGe f)
  | 0x034 => some (.brciLtn f)
  | 0x035 => some (.brciGen f)
  | 0x036 => some (.brciBset f)
  | 0x037 => some (.brciBclr f)
  | 0x040 => some (.loop f)
  | 0x050 => some (.call f)
  | 0x060 => some (.jmpr f)
  | 0x061 => some (.callr f)
  | 0x062 => some (.ret f)
  | 0x080 => some (.add f)
  | 0x081 => some (.sub f)
  | 0x082 => some (.and f)
  | 0x083 => some (.or f)
  | 0x084 => some (.xor f)
  | 0x085 => some (.andn f)
  | 0x086 => some (.shl f)
  | 0x087 => some (.shr f)
  | 0x088 => some (.sar f)
  | 0x089 => some (.rol f)
  | 0x08A => some (.min f)
  | 0x08B => some (.max f)
  | 0x08C => some (.minn f)
  | 0x08D => some (.maxn f)
  | 0x08E => some (.slt f)
  | 0x08F => some (.sltn f)
  | 0x090 => some (.addi f)
  | 0x091 => some (.subi f)
  | 0x092 => some (.andi f)
  | 0x093 => some (.ori f)
  | 0x094 => some (.xori f)
  | 0x095 => some (.andni f)
  | 0x096 => some (.shli f)
  | 0x097 => some (.shri f)
  | 0x098 => some (.sari f)
  | 0x099 => some (.roli f)
  | 0x09A => some (.mini f)
  | 0x09B => some (.maxi f)
  | 0x09C => some (.minni f)
  | 0x09D => some (.maxni f)
  | 0x09E => some (.slti f)
  | 0x09F => some (.sltni f)
  | 0x0A0 => some (.mul f)
  | 0x0A1 => some (.mulh f)
  | 0x0A2 => some (.mulhn f)
  | 0x0A3 => some (.div f)
  | 0x0A4 => some (.divn f)
  | 0x0A5 => some (.rem f)
  | 0x0A6 => some (.remn f)
  | 0x0B0 => some (.clz f)
  | 0x0B1 => some (.ctz f)
  | 0x0B2 => some (.popc f)
  | 0x0B3 => some (.brev f)
  | 0x0B4 => some (.sext f)
  | 0x0B5 => some (.zext f)
  | 0x0C0 => some (.sel f)
  | 0x0D0 => some (.li f)
  | 0x0D1 => some (.lui f)
  | 0x0E0 => some (.mov f)
  | 0x0E1 => some (.mfs f)
  | 0x0E2 => some (.mts f)
  | 0x0F0 => some (.lds f)
  | 0x100 => some (.sts f)
  | 0x110 => some (.tokw f)
  | 0x111 => some (.toks f)
  | 0x200 => some (.vmov f)
  | 0x210 => some (.vand f)
  | 0x211 => some (.vor f)
  | 0x212 => some (.vxor f)
  | 0x213 => some (.vandn f)
  | 0x214 => some (.vadd f)
  | 0x215 => some (.vsub f)
  | 0x216 => some (.vmin f)
  | 0x217 => some (.vmax f)
  | 0x218 => some (.vminn f)
  | 0x219 => some (.vmaxn f)
  | 0x21A => some (.vmul f)
  | 0x21B => some (.vmulh f)
  | 0x21C => some (.vshl f)
  | 0x21D => some (.vshr f)
  | 0x21E => some (.vsar f)
  | 0x21F => some (.vavg f)
  | 0x220 => some (.vcmpEq f)
  | 0x221 => some (.vcmpNe f)
  | 0x222 => some (.vcmpLt f)
  | 0x223 => some (.vcmpGe f)
  | 0x224 => some (.vcmpLtn f)
  | 0x225 => some (.vcmpGen f)
  | 0x230 => some (.vsel f)
  | 0x240 => some (.vabs f)
  | 0x241 => some (.vclz f)
  | 0x242 => some (.vpopc f)
  | 0x250 => some (.vredAdd f)
  | 0x251 => some (.vredMin f)
  | 0x252 => some (.vredMax f)
  | 0x253 => some (.vredMinn f)
  | 0x254 => some (.vredMaxn f)
  | 0x255 => some (.vredAnd f)
  | 0x256 => some (.vredOr f)
  | 0x257 => some (.vredXor f)
  | 0x280 => some (.vaddin f)
  | 0x281 => some (.vsubin f)
  | 0x282 => some (.vnegin f)
  | 0x283 => some (.vnotin f)
  | 0x284 => some (.vrotin f)
  | 0x285 => some (.vmulin f)
  | 0x286 => some (.vbrevin f)
  | 0x290 => some (.vswap f)
  | 0x291 => some (.vcswap f)
  | 0x2A0 => some (.vrevl f)
  | 0x2A1 => some (.vrotl f)
  | 0x2A2 => some (.vbfly f)
  | 0x2C0 => some (.vmaxk f)
  | 0x2C1 => some (.vmink f)
  | 0x2C2 => some (.vmaxnk f)
  | 0x2C3 => some (.vminnk f)
  | 0x2C4 => some (.vabsk f)
  | 0x2D0 => some (.vuncx f)
  | 0x2D1 => some (.vunabs f)
  | 0x2E0 => some (.npush f)
  | 0x2E1 => some (.nunpush f)
  | 0x2E2 => some (.npop f)
  | 0x2E3 => some (.ndrop f)
  | 0x2E4 => some (.nspill f)
  | 0x2E5 => some (.nfill f)
  | 0x2E6 => some (.ndepth f)
  | 0x2F0 => some (.erase f)
  | 0x400 => some (.vfadd f)
  | 0x401 => some (.vfsub f)
  | 0x402 => some (.vfmul f)
  | 0x403 => some (.vfmin f)
  | 0x404 => some (.vfmax f)
  | 0x405 => some (.vfdiv f)
  | 0x406 => some (.vfscale f)
  | 0x407 => some (.vfcopysign f)
  | 0x410 => some (.vfma f)
  | 0x411 => some (.vfms f)
  | 0x412 => some (.vfnma f)
  | 0x413 => some (.vfmac f)
  | 0x420 => some (.vfabs f)
  | 0x421 => some (.vfsqrt f)
  | 0x422 => some (.vfrcp f)
  | 0x423 => some (.vfrsq f)
  | 0x424 => some (.vfexp2 f)
  | 0x425 => some (.vflog2 f)
  | 0x426 => some (.vffloor f)
  | 0x427 => some (.vfceil f)
  | 0x428 => some (.vftrunc f)
  | 0x429 => some (.vfrint f)
  | 0x42A => some (.vfclass f)
  | 0x430 => some (.vfcmpEq f)
  | 0x431 => some (.vfcmpNe f)
  | 0x432 => some (.vfcmpLt f)
  | 0x433 => some (.vfcmpLe f)
  | 0x434 => some (.vfcmpGt f)
  | 0x435 => some (.vfcmpGe f)
  | 0x436 => some (.vfcmpUnord f)
  | 0x437 => some (.vfcmpOrd f)
  | 0x440 => some (.vfredAdd f)
  | 0x441 => some (.vfredMax f)
  | 0x442 => some (.vfredMin f)
  | 0x443 => some (.vfredAmax f)
  | 0x450 => some (.vfnegin f)
  | 0x500 => some (.vcvt f)
  | 0x510 => some (.vqnt f)
  | 0x520 => some (.vdqnt f)
  | 0x530 => some (.vscl f)
  | 0x540 => some (.vpack f)
  | 0x541 => some (.vunpk f)
  | 0x550 => some (.vsplit f)
  | 0x600 => some (.mtt f)
  | 0x610 => some (.mgo f)
  | 0x620 => some (.mabort f)
  | 0x630 => some (.mma f)
  | 0x640 => some (.mlda f)
  | 0x650 => some (.wswap f)
  | 0x660 => some (.adrn f)
  | 0x670 => some (.aclr f)
  | 0x700 => some (.reelon f)
  | 0x710 => some (.reeloff f)
  | 0x720 => some (.cuew f)
  | 0x730 => some (.cuedone f)
  | 0x740 => some (.cuepoll f)
  | 0x780 => some (.hgdef f)
  | 0x790 => some (.hgl f)
  | 0x7A0 => some (.hgsDet f)
  | 0x7A1 => some (.hgsRel f)
  | 0x7B0 => some (.hgw f)
  | 0x800 => some (.vldUnit f)
  | 0x801 => some (.vldStrd f)
  | 0x802 => some (.vldGath f)
  | 0x810 => some (.vstUnit f)
  | 0x811 => some (.vstStrd f)
  | 0x812 => some (.vstScat f)
  | 0x820 => some (.tld f)
  | 0x830 => some (.tst f)
  | 0x840 => some (.sdef f)
  | 0x850 => some (.cpy f)
  | 0x860 => some (.cpyw f)
  | 0x870 => some (.pref f)
  | 0x880 => some (.smark f)
  | 0x890 => some (.phase f)
  | 0x8A0 => some (.vaultf f)
  | 0xA00 => some (.rngclaim f)
  | 0xA10 => some (.rngfill f)
  | 0xA20 => some (.rngwait f)
  | 0xA30 => some (.rngfree f)
  | 0xA40 => some (.bacq f)
  | 0xA50 => some (.brel f)
  | 0xA60 => some (.rfadd f)
  | 0xA61 => some (.mfset f)
  | 0xA62 => some (.flagw f)
  | 0xA63 => some (.flagclr f)
  | 0xA64 => some (.flagrd f)
  | 0xA70 => some (.fence f)
  | 0xA80 => some (.atomAdd f)
  | 0xA81 => some (.atomAnd f)
  | 0xA82 => some (.atomOr f)
  | 0xA83 => some (.atomXor f)
  | 0xA84 => some (.atomMin f)
  | 0xA85 => some (.atomMax f)
  | 0xA86 => some (.atomMinn f)
  | 0xA87 => some (.atomMaxn f)
  | 0xA88 => some (.atomXchg f)
  | 0xA89 => some (.atomCas f)
  | 0xA8A => some (.atomFadd f)
  | 0xA8B => some (.atomFmin f)
  | 0xA8C => some (.atomFmax f)
  | 0xA90 => some (.vatomAdd f)
  | 0xA91 => some (.vatomAnd f)
  | 0xA92 => some (.vatomOr f)
  | 0xA93 => some (.vatomXor f)
  | 0xA94 => some (.vatomMin f)
  | 0xA95 => some (.vatomMax f)
  | 0xA96 => some (.vatomMinn f)
  | 0xA97 => some (.vatomMaxn f)
  | 0xA98 => some (.vatomXchg f)
  | 0xA99 => some (.vatomCas f)
  | 0xA9A => some (.vatomFadd f)
  | 0xA9B => some (.vatomFmin f)
  | 0xA9C => some (.vatomFmax f)
  | 0xAA0 => some (.scopeset f)
  | 0xB00 => some (.xput f)
  | 0xB10 => some (.xget f)
  | 0xB20 => some (.clstFadd f)
  | 0xB21 => some (.clstFmax f)
  | 0xB22 => some (.clstFmin f)
  | 0xB23 => some (.clstIadd f)
  | 0xB24 => some (.clstImax f)
  | 0xC00 => some (.trap f)
  | 0xC10 => some (.eret f)
  | 0xC20 => some (.brk f)
  | 0xC30 => some (.wfe f)
  | 0xC31 => some (.evsig f)
  | 0xC40 => some (.synci f)
  | 0xC50 => some (.tlbi f)
  | 0xC60 => some (.csave f)
  | 0xC61 => some (.crest f)
  | 0xC70 => some (.mfp f)
  | 0xC71 => some (.mtp f)
  | 0xC80 => some (.yield f)
  | 0xD00 => some (.krun f)
  | 0xD10 => some (.strm f)
  | 0xD20 => some (.sigAdd f)
  | 0xD21 => some (.sigSet f)
  | 0xD22 => some (.sigWait f)
  | 0xD30 => some (.kabort f)
  | 0xD40 => some (.stkmap f)
  | 0xE00 => some (.permit f)
  | 0xE01 => some (.prel f)
  | 0xE10 => some (.lease f)
  | 0xE30 => some (.opset f)
  | 0xE40 => some (.gate f)
  | _ => none

/-- OPC and FN of a core instruction, and the fields it carries. -/
def codeOf (i : Instr) : Option (Code × Fields) :=
  match i with
  | .nop f => some (0x000, f)
  | .halt f => some (0x001, f)
  | .waitc f => some (0x002, f)
  | .br f => some (0x010, f)
  | .brcEq f => some (0x020, f)
  | .brcNe f => some (0x021, f)
  | .brcLt f => some (0x022, f)
  | .brcGe f => some (0x023, f)
  | .brcLtn f => some (0x024, f)
  | .brcGen f => some (0x025, f)
  | .brcBset f => some (0x026, f)
  | .brcBclr f => some (0x027, f)
  | .brciEq f => some (0x030, f)
  | .brciNe f => some (0x031, f)
  | .brciLt f => some (0x032, f)
  | .brciGe f => some (0x033, f)
  | .brciLtn f => some (0x034, f)
  | .brciGen f => some (0x035, f)
  | .brciBset f => some (0x036, f)
  | .brciBclr f => some (0x037, f)
  | .loop f => some (0x040, f)
  | .call f => some (0x050, f)
  | .jmpr f => some (0x060, f)
  | .callr f => some (0x061, f)
  | .ret f => some (0x062, f)
  | .add f => some (0x080, f)
  | .sub f => some (0x081, f)
  | .and f => some (0x082, f)
  | .or f => some (0x083, f)
  | .xor f => some (0x084, f)
  | .andn f => some (0x085, f)
  | .shl f => some (0x086, f)
  | .shr f => some (0x087, f)
  | .sar f => some (0x088, f)
  | .rol f => some (0x089, f)
  | .min f => some (0x08A, f)
  | .max f => some (0x08B, f)
  | .minn f => some (0x08C, f)
  | .maxn f => some (0x08D, f)
  | .slt f => some (0x08E, f)
  | .sltn f => some (0x08F, f)
  | .addi f => some (0x090, f)
  | .subi f => some (0x091, f)
  | .andi f => some (0x092, f)
  | .ori f => some (0x093, f)
  | .xori f => some (0x094, f)
  | .andni f => some (0x095, f)
  | .shli f => some (0x096, f)
  | .shri f => some (0x097, f)
  | .sari f => some (0x098, f)
  | .roli f => some (0x099, f)
  | .mini f => some (0x09A, f)
  | .maxi f => some (0x09B, f)
  | .minni f => some (0x09C, f)
  | .maxni f => some (0x09D, f)
  | .slti f => some (0x09E, f)
  | .sltni f => some (0x09F, f)
  | .mul f => some (0x0A0, f)
  | .mulh f => some (0x0A1, f)
  | .mulhn f => some (0x0A2, f)
  | .div f => some (0x0A3, f)
  | .divn f => some (0x0A4, f)
  | .rem f => some (0x0A5, f)
  | .remn f => some (0x0A6, f)
  | .clz f => some (0x0B0, f)
  | .ctz f => some (0x0B1, f)
  | .popc f => some (0x0B2, f)
  | .brev f => some (0x0B3, f)
  | .sext f => some (0x0B4, f)
  | .zext f => some (0x0B5, f)
  | .sel f => some (0x0C0, f)
  | .li f => some (0x0D0, f)
  | .lui f => some (0x0D1, f)
  | .mov f => some (0x0E0, f)
  | .mfs f => some (0x0E1, f)
  | .mts f => some (0x0E2, f)
  | .lds f => some (0x0F0, f)
  | .sts f => some (0x100, f)
  | .tokw f => some (0x110, f)
  | .toks f => some (0x111, f)
  | .vmov f => some (0x200, f)
  | .vand f => some (0x210, f)
  | .vor f => some (0x211, f)
  | .vxor f => some (0x212, f)
  | .vandn f => some (0x213, f)
  | .vadd f => some (0x214, f)
  | .vsub f => some (0x215, f)
  | .vmin f => some (0x216, f)
  | .vmax f => some (0x217, f)
  | .vminn f => some (0x218, f)
  | .vmaxn f => some (0x219, f)
  | .vmul f => some (0x21A, f)
  | .vmulh f => some (0x21B, f)
  | .vshl f => some (0x21C, f)
  | .vshr f => some (0x21D, f)
  | .vsar f => some (0x21E, f)
  | .vavg f => some (0x21F, f)
  | .vcmpEq f => some (0x220, f)
  | .vcmpNe f => some (0x221, f)
  | .vcmpLt f => some (0x222, f)
  | .vcmpGe f => some (0x223, f)
  | .vcmpLtn f => some (0x224, f)
  | .vcmpGen f => some (0x225, f)
  | .vsel f => some (0x230, f)
  | .vabs f => some (0x240, f)
  | .vclz f => some (0x241, f)
  | .vpopc f => some (0x242, f)
  | .vredAdd f => some (0x250, f)
  | .vredMin f => some (0x251, f)
  | .vredMax f => some (0x252, f)
  | .vredMinn f => some (0x253, f)
  | .vredMaxn f => some (0x254, f)
  | .vredAnd f => some (0x255, f)
  | .vredOr f => some (0x256, f)
  | .vredXor f => some (0x257, f)
  | .vaddin f => some (0x280, f)
  | .vsubin f => some (0x281, f)
  | .vnegin f => some (0x282, f)
  | .vnotin f => some (0x283, f)
  | .vrotin f => some (0x284, f)
  | .vmulin f => some (0x285, f)
  | .vbrevin f => some (0x286, f)
  | .vswap f => some (0x290, f)
  | .vcswap f => some (0x291, f)
  | .vrevl f => some (0x2A0, f)
  | .vrotl f => some (0x2A1, f)
  | .vbfly f => some (0x2A2, f)
  | .vmaxk f => some (0x2C0, f)
  | .vmink f => some (0x2C1, f)
  | .vmaxnk f => some (0x2C2, f)
  | .vminnk f => some (0x2C3, f)
  | .vabsk f => some (0x2C4, f)
  | .vuncx f => some (0x2D0, f)
  | .vunabs f => some (0x2D1, f)
  | .npush f => some (0x2E0, f)
  | .nunpush f => some (0x2E1, f)
  | .npop f => some (0x2E2, f)
  | .ndrop f => some (0x2E3, f)
  | .nspill f => some (0x2E4, f)
  | .nfill f => some (0x2E5, f)
  | .ndepth f => some (0x2E6, f)
  | .erase f => some (0x2F0, f)
  | .vfadd f => some (0x400, f)
  | .vfsub f => some (0x401, f)
  | .vfmul f => some (0x402, f)
  | .vfmin f => some (0x403, f)
  | .vfmax f => some (0x404, f)
  | .vfdiv f => some (0x405, f)
  | .vfscale f => some (0x406, f)
  | .vfcopysign f => some (0x407, f)
  | .vfma f => some (0x410, f)
  | .vfms f => some (0x411, f)
  | .vfnma f => some (0x412, f)
  | .vfmac f => some (0x413, f)
  | .vfabs f => some (0x420, f)
  | .vfsqrt f => some (0x421, f)
  | .vfrcp f => some (0x422, f)
  | .vfrsq f => some (0x423, f)
  | .vfexp2 f => some (0x424, f)
  | .vflog2 f => some (0x425, f)
  | .vffloor f => some (0x426, f)
  | .vfceil f => some (0x427, f)
  | .vftrunc f => some (0x428, f)
  | .vfrint f => some (0x429, f)
  | .vfclass f => some (0x42A, f)
  | .vfcmpEq f => some (0x430, f)
  | .vfcmpNe f => some (0x431, f)
  | .vfcmpLt f => some (0x432, f)
  | .vfcmpLe f => some (0x433, f)
  | .vfcmpGt f => some (0x434, f)
  | .vfcmpGe f => some (0x435, f)
  | .vfcmpUnord f => some (0x436, f)
  | .vfcmpOrd f => some (0x437, f)
  | .vfredAdd f => some (0x440, f)
  | .vfredMax f => some (0x441, f)
  | .vfredMin f => some (0x442, f)
  | .vfredAmax f => some (0x443, f)
  | .vfnegin f => some (0x450, f)
  | .vcvt f => some (0x500, f)
  | .vqnt f => some (0x510, f)
  | .vdqnt f => some (0x520, f)
  | .vscl f => some (0x530, f)
  | .vpack f => some (0x540, f)
  | .vunpk f => some (0x541, f)
  | .vsplit f => some (0x550, f)
  | .mtt f => some (0x600, f)
  | .mgo f => some (0x610, f)
  | .mabort f => some (0x620, f)
  | .mma f => some (0x630, f)
  | .mlda f => some (0x640, f)
  | .wswap f => some (0x650, f)
  | .adrn f => some (0x660, f)
  | .aclr f => some (0x670, f)
  | .reelon f => some (0x700, f)
  | .reeloff f => some (0x710, f)
  | .cuew f => some (0x720, f)
  | .cuedone f => some (0x730, f)
  | .cuepoll f => some (0x740, f)
  | .hgdef f => some (0x780, f)
  | .hgl f => some (0x790, f)
  | .hgsDet f => some (0x7A0, f)
  | .hgsRel f => some (0x7A1, f)
  | .hgw f => some (0x7B0, f)
  | .vldUnit f => some (0x800, f)
  | .vldStrd f => some (0x801, f)
  | .vldGath f => some (0x802, f)
  | .vstUnit f => some (0x810, f)
  | .vstStrd f => some (0x811, f)
  | .vstScat f => some (0x812, f)
  | .tld f => some (0x820, f)
  | .tst f => some (0x830, f)
  | .sdef f => some (0x840, f)
  | .cpy f => some (0x850, f)
  | .cpyw f => some (0x860, f)
  | .pref f => some (0x870, f)
  | .smark f => some (0x880, f)
  | .phase f => some (0x890, f)
  | .vaultf f => some (0x8A0, f)
  | .rngclaim f => some (0xA00, f)
  | .rngfill f => some (0xA10, f)
  | .rngwait f => some (0xA20, f)
  | .rngfree f => some (0xA30, f)
  | .bacq f => some (0xA40, f)
  | .brel f => some (0xA50, f)
  | .rfadd f => some (0xA60, f)
  | .mfset f => some (0xA61, f)
  | .flagw f => some (0xA62, f)
  | .flagclr f => some (0xA63, f)
  | .flagrd f => some (0xA64, f)
  | .fence f => some (0xA70, f)
  | .atomAdd f => some (0xA80, f)
  | .atomAnd f => some (0xA81, f)
  | .atomOr f => some (0xA82, f)
  | .atomXor f => some (0xA83, f)
  | .atomMin f => some (0xA84, f)
  | .atomMax f => some (0xA85, f)
  | .atomMinn f => some (0xA86, f)
  | .atomMaxn f => some (0xA87, f)
  | .atomXchg f => some (0xA88, f)
  | .atomCas f => some (0xA89, f)
  | .atomFadd f => some (0xA8A, f)
  | .atomFmin f => some (0xA8B, f)
  | .atomFmax f => some (0xA8C, f)
  | .vatomAdd f => some (0xA90, f)
  | .vatomAnd f => some (0xA91, f)
  | .vatomOr f => some (0xA92, f)
  | .vatomXor f => some (0xA93, f)
  | .vatomMin f => some (0xA94, f)
  | .vatomMax f => some (0xA95, f)
  | .vatomMinn f => some (0xA96, f)
  | .vatomMaxn f => some (0xA97, f)
  | .vatomXchg f => some (0xA98, f)
  | .vatomCas f => some (0xA99, f)
  | .vatomFadd f => some (0xA9A, f)
  | .vatomFmin f => some (0xA9B, f)
  | .vatomFmax f => some (0xA9C, f)
  | .scopeset f => some (0xAA0, f)
  | .xput f => some (0xB00, f)
  | .xget f => some (0xB10, f)
  | .clstFadd f => some (0xB20, f)
  | .clstFmax f => some (0xB21, f)
  | .clstFmin f => some (0xB22, f)
  | .clstIadd f => some (0xB23, f)
  | .clstImax f => some (0xB24, f)
  | .trap f => some (0xC00, f)
  | .eret f => some (0xC10, f)
  | .brk f => some (0xC20, f)
  | .wfe f => some (0xC30, f)
  | .evsig f => some (0xC31, f)
  | .synci f => some (0xC40, f)
  | .tlbi f => some (0xC50, f)
  | .csave f => some (0xC60, f)
  | .crest f => some (0xC61, f)
  | .mfp f => some (0xC70, f)
  | .mtp f => some (0xC71, f)
  | .yield f => some (0xC80, f)
  | .krun f => some (0xD00, f)
  | .strm f => some (0xD10, f)
  | .sigAdd f => some (0xD20, f)
  | .sigSet f => some (0xD21, f)
  | .sigWait f => some (0xD22, f)
  | .kabort f => some (0xD30, f)
  | .stkmap f => some (0xD40, f)
  | .permit f => some (0xE00, f)
  | .prel f => some (0xE01, f)
  | .lease f => some (0xE10, f)
  | .opset f => some (0xE30, f)
  | .gate f => some (0xE40, f)
  | _ => none

/-- The 2-byte form's instruction by op5 (Table 2.6). -/
def shortOf2 (op d a : BitVec 5) : Instr :=
  match op.toNat with
  | 0 => .nop2b d a
  | 1 => .add2b d a
  | 2 => .sub2b d a
  | 3 => .and2b d a
  | 4 => .or2b d a
  | 5 => .xor2b d a
  | 6 => .andn2b d a
  | 7 => .shl2b d a
  | 8 => .shr2b d a
  | 9 => .sar2b d a
  | 10 => .rol2b d a
  | 11 => .min2b d a
  | 12 => .max2b d a
  | 13 => .minn2b d a
  | 14 => .maxn2b d a
  | 15 => .slt2b d a
  | 16 => .sltn2b d a
  | 17 => .mul2b d a
  | 18 => .mulh2b d a
  | 19 => .mulhn2b d a
  | 20 => .div2b d a
  | 21 => .divn2b d a
  | 22 => .rem2b d a
  | 23 => .remn2b d a
  | 24 => .clz2b d a
  | 25 => .ctz2b d a
  | 26 => .popc2b d a
  | 27 => .brev2b d a
  | 28 => .sextI82b d a
  | 29 => .sextI162b d a
  | 30 => .sextI322b d a
  | _ => .mov2b d a

/-- op5 and the operands of a 2-byte instruction. -/
def op5Of (i : Instr) : Option (BitVec 5 × BitVec 5 × BitVec 5) :=
  match i with
  | .nop2b d a => some (0, d, a)
  | .add2b d a => some (1, d, a)
  | .sub2b d a => some (2, d, a)
  | .and2b d a => some (3, d, a)
  | .or2b d a => some (4, d, a)
  | .xor2b d a => some (5, d, a)
  | .andn2b d a => some (6, d, a)
  | .shl2b d a => some (7, d, a)
  | .shr2b d a => some (8, d, a)
  | .sar2b d a => some (9, d, a)
  | .rol2b d a => some (10, d, a)
  | .min2b d a => some (11, d, a)
  | .max2b d a => some (12, d, a)
  | .minn2b d a => some (13, d, a)
  | .maxn2b d a => some (14, d, a)
  | .slt2b d a => some (15, d, a)
  | .sltn2b d a => some (16, d, a)
  | .mul2b d a => some (17, d, a)
  | .mulh2b d a => some (18, d, a)
  | .mulhn2b d a => some (19, d, a)
  | .div2b d a => some (20, d, a)
  | .divn2b d a => some (21, d, a)
  | .rem2b d a => some (22, d, a)
  | .remn2b d a => some (23, d, a)
  | .clz2b d a => some (24, d, a)
  | .ctz2b d a => some (25, d, a)
  | .popc2b d a => some (26, d, a)
  | .brev2b d a => some (27, d, a)
  | .sextI82b d a => some (28, d, a)
  | .sextI162b d a => some (29, d, a)
  | .sextI322b d a => some (30, d, a)
  | .mov2b d a => some (31, d, a)
  | _ => none

/-- The 4-byte form's instruction by op6 (Table 2.7). -/
def shortOf4 (op : BitVec 6) (d a b : BitVec 8) : Instr :=
  match op.toNat with
  | 0 => .vmov4b d a b
  | 1 => .vand4b d a b
  | 2 => .vor4b d a b
  | 3 => .vxor4b d a b
  | 4 => .vandn4b d a b
  | 5 => .vadd4b d a b
  | 6 => .vsub4b d a b
  | 7 => .vmul4b d a b
  | 8 => .vmin4b d a b
  | 9 => .vmax4b d a b
  | 10 => .vminn4b d a b
  | 11 => .vmaxn4b d a b
  | 12 => .vshl4b d a b
  | 13 => .vshr4b d a b
  | 14 => .vsar4b d a b
  | 15 => .vavg4b d a b
  | 16 => .vaddI164b d a b
  | 17 => .vsubI164b d a b
  | 18 => .vaddI84b d a b
  | 19 => .vsubI84b d a b
  | 20 => .vmaxI164b d a b
  | 21 => .vminI164b d a b
  | 22 => .vmulI164b d a b
  | 23 => .vmulhI164b d a b
  | 24 => .vaddin4b d a b
  | 25 => .vsubin4b d a b
  | 26 => .vnegin4b d a b
  | 27 => .vnotin4b d a b
  | 28 => .vswap4b d a b
  | 29 => .vpopc4b d a b
  | 30 => .vrevl4b d a b
  | 31 => .vabs4b d a b
  | 32 => .vmaxk4b d a b
  | 33 => .vmink4b d a b
  | 34 => .vmaxnk4b d a b
  | 35 => .vminnk4b d a b
  | 36 => .vabsk4b d a b
  | 37 => .vuncx4b d a b
  | 38 => .vunabs4b d a b
  | 39 => .erase4b d a b
  | 40 => .vfadd4b d a b
  | 41 => .vfsub4b d a b
  | 42 => .vfmul4b d a b
  | 43 => .vfma4b d a b
  | 44 => .vfms4b d a b
  | 45 => .vfnma4b d a b
  | 46 => .vfmacE4b d a b
  | 47 => .vfmin4b d a b
  | 48 => .vfmax4b d a b
  | 49 => .vfdiv4b d a b
  | 50 => .vfsqrt4b d a b
  | 51 => .vfrcp4b d a b
  | 52 => .vfrsq4b d a b
  | 53 => .vfexp24b d a b
  | 54 => .vflog24b d a b
  | 55 => .vfabs4b d a b
  | 56 => .vfaddBf164b d a b
  | 57 => .vfmaBf164b d a b
  | 58 => .vfnegin4b d a b
  | 59 => .vmovE4b d a b
  | 60 => .vaddE4b d a b
  | 61 => .vfaddE4b d a b
  | 62 => .vfmulE4b d a b
  | _ => .vfmaE4b d a b

/-- op6 and the operands of a 4-byte instruction. -/
def op6Of (i : Instr) : Option (BitVec 6 × BitVec 8 × BitVec 8 × BitVec 8) :=
  match i with
  | .vmov4b d a b => some (0, d, a, b)
  | .vand4b d a b => some (1, d, a, b)
  | .vor4b d a b => some (2, d, a, b)
  | .vxor4b d a b => some (3, d, a, b)
  | .vandn4b d a b => some (4, d, a, b)
  | .vadd4b d a b => some (5, d, a, b)
  | .vsub4b d a b => some (6, d, a, b)
  | .vmul4b d a b => some (7, d, a, b)
  | .vmin4b d a b => some (8, d, a, b)
  | .vmax4b d a b => some (9, d, a, b)
  | .vminn4b d a b => some (10, d, a, b)
  | .vmaxn4b d a b => some (11, d, a, b)
  | .vshl4b d a b => some (12, d, a, b)
  | .vshr4b d a b => some (13, d, a, b)
  | .vsar4b d a b => some (14, d, a, b)
  | .vavg4b d a b => some (15, d, a, b)
  | .vaddI164b d a b => some (16, d, a, b)
  | .vsubI164b d a b => some (17, d, a, b)
  | .vaddI84b d a b => some (18, d, a, b)
  | .vsubI84b d a b => some (19, d, a, b)
  | .vmaxI164b d a b => some (20, d, a, b)
  | .vminI164b d a b => some (21, d, a, b)
  | .vmulI164b d a b => some (22, d, a, b)
  | .vmulhI164b d a b => some (23, d, a, b)
  | .vaddin4b d a b => some (24, d, a, b)
  | .vsubin4b d a b => some (25, d, a, b)
  | .vnegin4b d a b => some (26, d, a, b)
  | .vnotin4b d a b => some (27, d, a, b)
  | .vswap4b d a b => some (28, d, a, b)
  | .vpopc4b d a b => some (29, d, a, b)
  | .vrevl4b d a b => some (30, d, a, b)
  | .vabs4b d a b => some (31, d, a, b)
  | .vmaxk4b d a b => some (32, d, a, b)
  | .vmink4b d a b => some (33, d, a, b)
  | .vmaxnk4b d a b => some (34, d, a, b)
  | .vminnk4b d a b => some (35, d, a, b)
  | .vabsk4b d a b => some (36, d, a, b)
  | .vuncx4b d a b => some (37, d, a, b)
  | .vunabs4b d a b => some (38, d, a, b)
  | .erase4b d a b => some (39, d, a, b)
  | .vfadd4b d a b => some (40, d, a, b)
  | .vfsub4b d a b => some (41, d, a, b)
  | .vfmul4b d a b => some (42, d, a, b)
  | .vfma4b d a b => some (43, d, a, b)
  | .vfms4b d a b => some (44, d, a, b)
  | .vfnma4b d a b => some (45, d, a, b)
  | .vfmacE4b d a b => some (46, d, a, b)
  | .vfmin4b d a b => some (47, d, a, b)
  | .vfmax4b d a b => some (48, d, a, b)
  | .vfdiv4b d a b => some (49, d, a, b)
  | .vfsqrt4b d a b => some (50, d, a, b)
  | .vfrcp4b d a b => some (51, d, a, b)
  | .vfrsq4b d a b => some (52, d, a, b)
  | .vfexp24b d a b => some (53, d, a, b)
  | .vflog24b d a b => some (54, d, a, b)
  | .vfabs4b d a b => some (55, d, a, b)
  | .vfaddBf164b d a b => some (56, d, a, b)
  | .vfmaBf164b d a b => some (57, d, a, b)
  | .vfnegin4b d a b => some (58, d, a, b)
  | .vmovE4b d a b => some (59, d, a, b)
  | .vaddE4b d a b => some (60, d, a, b)
  | .vfaddE4b d a b => some (61, d, a, b)
  | .vfmulE4b d a b => some (62, d, a, b)
  | .vfmaE4b d a b => some (63, d, a, b)
  | _ => none

/-- The fields of the 6-byte form (R36): two scalar registers and a 23-bit immediate, sign-extended to 24 bits. -/
def fields6 (c : Code) (d a : BitVec 5) (imm : BitVec 23) : Fields :=
  { form := .six, pop := 0, push := 0, dly := 0, e := false, rc := 0, q := defaultQ c,
    d := d.setWidth 12, a := a.setWidth 12, b := 0, x := imm.signExtend 24 }

/-- The fields of the 8-byte form (R37): X takes D where R39 names the opcode. -/
def fields8 (c : Code) (pop push : BitVec 4) (e : BitVec 1) (rc : BitVec 3) (d a b : BitVec 12) : Fields :=
  { form := .eight, pop := pop, push := push, dly := 0, e := e == 1, rc := rc, q := defaultQ c,
    d := d, a := a, b := b, x := if hasFourth c then d.setWidth 24 else 0 }

/-- The 2-byte form: [15] 0, [14:10] op5, [9:5] d, [4:0] a (R34). -/
def decode2 (w : BitVec 16) : Instr :=
  shortOf2 (w.extractLsb' 10 5) (w.extractLsb' 5 5) (w.extractLsb' 0 5)

/-- The 4-byte form: [31:30] 0b10, [29:24] op6, three 8-bit operands (R35). -/
def decode4 (w : BitVec 32) : Instr :=
  shortOf4 (w.extractLsb' 24 6) (w.extractLsb' 16 8) (w.extractLsb' 8 8) (w.extractLsb' 0 8)

/-- OPC and FN as one number. -/
def codeBits (opc : BitVec 8) (fn : BitVec 4) : Code := 16 * opc.toNat + fn.toNat

/-- Code and fields of the 6-byte form (R36). -/
def split6 (w : BitVec 48) : Code × Fields :=
  let c := codeBits (w.extractLsb' 37 8) (w.extractLsb' 33 4)
  (c, fields6 c (w.extractLsb' 28 5) (w.extractLsb' 23 5) (w.extractLsb' 0 23))

/-- Code and fields of the 8-byte form (R37). -/
def split8 (w : BitVec 64) : Code × Fields :=
  let c := codeBits (w.extractLsb' 52 8) (w.extractLsb' 48 4)
  (c, fields8 c (w.extractLsb' 44 4) (w.extractLsb' 40 4) (w.extractLsb' 39 1) (w.extractLsb' 36 3)
    (w.extractLsb' 24 12) (w.extractLsb' 12 12) (w.extractLsb' 0 12))

/-- Code and fields of the 12-byte form: bits [90:0] are those of the internal word (R38, Table 2.2). -/
def split12 (w : BitVec 96) : Code × Fields :=
  (codeBits (w.extractLsb' 83 8) (w.extractLsb' 79 4),
    { form := .twelve, pop := w.extractLsb' 75 4, push := w.extractLsb' 71 4, dly := w.extractLsb' 67 4,
      e := w.extractLsb' 66 1 == 1, rc := w.extractLsb' 63 3, q := w.extractLsb' 60 3,
      d := w.extractLsb' 48 12, a := w.extractLsb' 36 12, b := w.extractLsb' 24 12, x := w.extractLsb' 0 24 })

/-- The 6-byte form (R36), the 8-byte form (R37) and the 12-byte form (R38). -/
def decode6 (w : BitVec 48) : Option Instr := coreOf (split6 w).1 (split6 w).2
def decode8 (w : BitVec 64) : Option Instr := coreOf (split8 w).1 (split8 w).2
def decode12 (w : BitVec 96) : Option Instr := coreOf (split12 w).1 (split12 w).2

/-- Bytes as one number, the most significant byte first (R25). -/
def beNat (bs : List Byte) : Nat :=
  bs.foldl (fun n b => 256 * n + b.toNat) 0

/-- The n bytes of a number, the most significant byte first (R25). -/
def beBytes : Nat → Nat → List Byte
  | 0, _ => []
  | n + 1, v => BitVec.ofNat 8 (v / 256 ^ n) :: beBytes n v

/-- The length that a first byte announces (Table 2.1); none for an undefined prefix. -/
def lengthOf (b0 : Byte) : Option Nat :=
  let n := b0.toNat
  if n < 0x80 then some 2 else if n < 0xC0 then some 4 else if n < 0xE0 then some 6
  else if n < 0xF0 then some 8 else if n < 0xF8 then some 12 else none

/-- The instruction in exactly the bytes of its length (Table 2.1). -/
def decodeExact (bs : List Byte) : Option Instr :=
  match bs.length with
  | 2 => some (decode2 (BitVec.ofNat 16 (beNat bs)))
  | 4 => some (decode4 (BitVec.ofNat 32 (beNat bs)))
  | 6 => decode6 (BitVec.ofNat 48 (beNat bs))
  | 8 => decode8 (BitVec.ofNat 64 (beNat bs))
  | 12 => decode12 (BitVec.ofNat 96 (beNat bs))
  | _ => none

/-- Fill decodes the bytes from an even address (R25, R26). -/
def decode (bs : List Byte) : Decoded :=
  match bs with
  | [] => .truncated
  | b0 :: _ =>
    match lengthOf b0 with
    | none => .undefinedPrefix
    | some n =>
      if bs.length < n then .truncated
      else
        match decodeExact (bs.take n) with
        | some i => .instr i n
        | none => .undefinedOpcode n

/-! ## The encoder, from the same tables -/

/-- The length in bytes of a form (Table 2.1). -/
def Form.len : Form → Nat
  | .two => 2
  | .four => 4
  | .six => 6
  | .eight => 8
  | .twelve => 12

/-- The number of a 2-byte instruction (R34). -/
def word2 (op d a : BitVec 5) : BitVec 16 := 0#1 ++ op ++ d ++ a

/-- The number of a 4-byte instruction (R35). -/
def word4 (op : BitVec 6) (d a b : BitVec 8) : BitVec 32 := 2#2 ++ op ++ d ++ a ++ b

/-- The number of a 6-byte instruction (R36). -/
def word6 (c : Code) (f : Fields) : BitVec 48 :=
  6#3 ++ BitVec.ofNat 8 (c / 16) ++ BitVec.ofNat 4 (c % 16) ++ f.d.setWidth 5 ++ f.a.setWidth 5 ++ f.x.setWidth 23

/-- The number of an 8-byte instruction (R37). -/
def word8 (c : Code) (f : Fields) : BitVec 64 :=
  14#4 ++ BitVec.ofNat 8 (c / 16) ++ BitVec.ofNat 4 (c % 16) ++ f.pop ++ f.push ++ BitVec.ofBool f.e ++ f.rc
    ++ f.d ++ f.a ++ f.b

/-- The number of a 12-byte instruction (R38): the prefix in place of TAG. -/
def word12 (c : Code) (f : Fields) : BitVec 96 :=
  30#5 ++ BitVec.ofNat 8 (c / 16) ++ BitVec.ofNat 4 (c % 16) ++ f.pop ++ f.push ++ f.dly ++ BitVec.ofBool f.e
    ++ f.rc ++ f.q ++ f.d ++ f.a ++ f.b ++ f.x

/-- The bytes of a core instruction in the form it names. -/
def encodeCore (c : Code) (f : Fields) : List Byte :=
  match f.form with
  | .two => []
  | .four => []
  | .six => beBytes 6 (word6 c f).toNat
  | .eight => beBytes 8 (word8 c f).toNat
  | .twelve => beBytes 12 (word12 c f).toNat

/-- The bytes of an instruction, in address order; an event has none. -/
def encode (i : Instr) : List Byte :=
  match codeOf i with
  | some (c, f) => encodeCore c f
  | none =>
    match op5Of i with
    | some (op, d, a) => beBytes 2 (word2 op d a).toNat
    | none =>
      match op6Of i with
      | some (op, d, a, b) => beBytes 4 (word4 op d a b).toNat
      | none => []

/-! ## What the short forms expand to -/

/-- The fields of a 2-byte instruction with two operands: d := d op a (R34). -/
def expand2 (q : BitVec 3) (d a : BitVec 5) : Fields :=
  { form := .two, pop := 0, push := 0, dly := 0, e := false, rc := 0, q := q,
    d := d.setWidth 12, a := d.setWidth 12, b := a.setWidth 12, x := 0 }

/-- The fields of a 2-byte instruction with one operand: D := d, A := a, B := 0 (R34). -/
def expand1 (q : BitVec 3) (d a : BitVec 5) : Fields :=
  { form := .two, pop := 0, push := 0, dly := 0, e := false, rc := 0, q := q,
    d := d.setWidth 12, a := a.setWidth 12, b := 0, x := 0 }

/-- An 8-bit operand of the 4-byte form: a direction bit and an index (R35). -/
def operand8 (o : BitVec 8) : BitVec 12 :=
  0#1 ++ o.extractLsb' 7 1 ++ 0#3 ++ o.extractLsb' 0 7

/-- The fields of a 4-byte instruction (R35); X[11:0] := D where R39 names the opcode. -/
def expand4 (q : BitVec 3) (e fourth : Bool) (d a b : BitVec 8) : Fields :=
  { form := .four, pop := 0, push := 0, dly := 0, e := e, rc := 0, q := q,
    d := operand8 d, a := operand8 a, b := operand8 b,
    x := if fourth then (operand8 d).setWidth 24 else 0 }


/-- What op5 expands to: OPC and FN, Q, and whether it has two operands (Table 2.6). -/
def short2 (op : BitVec 5) : Code × BitVec 3 × Bool :=
  match op.toNat with
  | 0 => (0x000, 0, false)
  | 1 => (0x080, 0, true)
  | 2 => (0x081, 0, true)
  | 3 => (0x082, 0, true)
  | 4 => (0x083, 0, true)
  | 5 => (0x084, 0, true)
  | 6 => (0x085, 0, true)
  | 7 => (0x086, 0, true)
  | 8 => (0x087, 0, true)
  | 9 => (0x088, 0, true)
  | 10 => (0x089, 0, true)
  | 11 => (0x08A, 0, true)
  | 12 => (0x08B, 0, true)
  | 13 => (0x08C, 0, true)
  | 14 => (0x08D, 0, true)
  | 15 => (0x08E, 0, true)
  | 16 => (0x08F, 0, true)
  | 17 => (0x0A0, 0, true)
  | 18 => (0x0A1, 0, true)
  | 19 => (0x0A2, 0, true)
  | 20 => (0x0A3, 0, true)
  | 21 => (0x0A4, 0, true)
  | 22 => (0x0A5, 0, true)
  | 23 => (0x0A6, 0, true)
  | 24 => (0x0B0, 0, false)
  | 25 => (0x0B1, 0, false)
  | 26 => (0x0B2, 0, false)
  | 27 => (0x0B3, 0, false)
  | 28 => (0x0B4, 0, false)
  | 29 => (0x0B4, 1, false)
  | 30 => (0x0B4, 2, false)
  | _ => (0x0E0, 0, false)

/-- What op6 expands to: OPC and FN, Q and E (Table 2.7). -/
def short4 (op : BitVec 6) : Code × BitVec 3 × Bool :=
  match op.toNat with
  | 0 => (0x200, defaultQ 0x200, false)
  | 1 => (0x210, defaultQ 0x210, false)
  | 2 => (0x211, defaultQ 0x211, false)
  | 3 => (0x212, defaultQ 0x212, false)
  | 4 => (0x213, defaultQ 0x213, false)
  | 5 => (0x214, defaultQ 0x214, false)
  | 6 => (0x215, defaultQ 0x215, false)
  | 7 => (0x21A, defaultQ 0x21A, false)
  | 8 => (0x216, defaultQ 0x216, false)
  | 9 => (0x217, defaultQ 0x217, false)
  | 10 => (0x218, defaultQ 0x218, false)
  | 11 => (0x219, defaultQ 0x219, false)
  | 12 => (0x21C, defaultQ 0x21C, false)
  | 13 => (0x21D, defaultQ 0x21D, false)
  | 14 => (0x21E, defaultQ 0x21E, false)
  | 15 => (0x21F, defaultQ 0x21F, false)
  | 16 => (0x214, 1, false)
  | 17 => (0x215, 1, false)
  | 18 => (0x214, 0, false)
  | 19 => (0x215, 0, false)
  | 20 => (0x217, 1, false)
  | 21 => (0x216, 1, false)
  | 22 => (0x21A, 1, false)
  | 23 => (0x21B, 1, false)
  | 24 => (0x280, defaultQ 0x280, false)
  | 25 => (0x281, defaultQ 0x281, false)
  | 26 => (0x282, defaultQ 0x282, false)
  | 27 => (0x283, defaultQ 0x283, false)
  | 28 => (0x290, defaultQ 0x290, false)
  | 29 => (0x242, defaultQ 0x242, false)
  | 30 => (0x2A0, defaultQ 0x2A0, false)
  | 31 => (0x240, defaultQ 0x240, false)
  | 32 => (0x2C0, defaultQ 0x2C0, false)
  | 33 => (0x2C1, defaultQ 0x2C1, false)
  | 34 => (0x2C2, defaultQ 0x2C2, false)
  | 35 => (0x2C3, defaultQ 0x2C3, false)
  | 36 => (0x2C4, defaultQ 0x2C4, false)
  | 37 => (0x2D0, defaultQ 0x2D0, false)
  | 38 => (0x2D1, defaultQ 0x2D1, false)
  | 39 => (0x2F0, defaultQ 0x2F0, false)
  | 40 => (0x400, defaultQ 0x400, false)
  | 41 => (0x401, defaultQ 0x401, false)
  | 42 => (0x402, defaultQ 0x402, false)
  | 43 => (0x410, defaultQ 0x410, false)
  | 44 => (0x411, defaultQ 0x411, false)
  | 45 => (0x412, defaultQ 0x412, false)
  | 46 => (0x413, defaultQ 0x413, true)
  | 47 => (0x403, defaultQ 0x403, false)
  | 48 => (0x404, defaultQ 0x404, false)
  | 49 => (0x405, defaultQ 0x405, false)
  | 50 => (0x421, defaultQ 0x421, false)
  | 51 => (0x422, defaultQ 0x422, false)
  | 52 => (0x423, defaultQ 0x423, false)
  | 53 => (0x424, defaultQ 0x424, false)
  | 54 => (0x425, defaultQ 0x425, false)
  | 55 => (0x420, defaultQ 0x420, false)
  | 56 => (0x400, 1, false)
  | 57 => (0x410, 1, false)
  | 58 => (0x450, defaultQ 0x450, false)
  | 59 => (0x200, defaultQ 0x200, true)
  | 60 => (0x214, defaultQ 0x214, true)
  | 61 => (0x400, defaultQ 0x400, true)
  | 62 => (0x402, defaultQ 0x402, true)
  | _ => (0x410, defaultQ 0x410, true)

/-- The internal word of an instruction: OPC and FN with the fields (R27, R40); none for an event. -/
def internalWord (i : Instr) : Option (Code × Fields) :=
  match codeOf i with
  | some cf => some cf
  | none =>
    match op5Of i with
    | some (op, d, a) =>
      let (c, q, two) := short2 op
      some (c, if two then expand2 q d a else expand1 q d a)
    | none =>
      match op6Of i with
      | some (op, d, a, b) =>
        let (c, q, e) := short4 op
        some (c, expand4 q e (hasFourth c) d a b)
      | none => none

/-- The internal word that exactly these bytes expand to, whatever instruction it is (R27, R34 to R38). -/
def wordExact (bs : List Byte) : Option (Code × Fields) :=
  match bs.length with
  | 2 =>
    let w := BitVec.ofNat 16 (beNat bs)
    let (c, q, two) := short2 (w.extractLsb' 10 5)
    some (c, if two then expand2 q (w.extractLsb' 5 5) (w.extractLsb' 0 5) else expand1 q (w.extractLsb' 5 5) (w.extractLsb' 0 5))
  | 4 =>
    let w := BitVec.ofNat 32 (beNat bs)
    let (c, q, e) := short4 (w.extractLsb' 24 6)
    some (c, expand4 q e (hasFourth c) (w.extractLsb' 16 8) (w.extractLsb' 8 8) (w.extractLsb' 0 8))
  | 6 => some (split6 (BitVec.ofNat 48 (beNat bs)))
  | 8 => some (split8 (BitVec.ofNat 64 (beNat bs)))
  | 12 => some (split12 (BitVec.ofNat 96 (beNat bs)))
  | _ => none

/-- What the decoder reads from an instruction whose bits are w, numbered as spec/opcode_table.json numbers them: the number W of R25, followed by bytes of zero. -/
def decodeTableWord (nbits w : Nat) : Option Instr :=
  match decode (beBytes (nbits / 8) w ++ List.replicate 12 0) with
  | .instr i _ => some i
  | _ => none

end

end Sys2Proof
end

