-- ==== Sys2Proof/Machine/OpTable.lean ====
section
/-! DEFINITION. What the spec fixes for each opcode and function whatever the state: where it issues, its types, its E column, which fields it uses and how, its privilege, latency and occupancy (Table 2.8 and the tables of the class chapters); the geometry of matrix-file operands (Table 2.4); and the encoding checks of Table 2.9 that need no state. -/

namespace Sys2Proof.Machine

/-! ## Matrix-file operands -/

/-- DIR of an operand field. -/
def opDir (o : BitVec 12) : Nat := (o.extractLsb' 10 2).toNat

/-- WID of an operand field. -/
def opWid (o : BitVec 12) : Nat := (o.extractLsb' 8 2).toNat

/-- INDEX of an operand field. -/
def opIndex (o : BitVec 12) : Nat := (o.extractLsb' 0 7).toNat

/-- The field names a pair (R30). -/
def opPair (o : BitVec 12) : Bool := opWid o == 1

/-- The field is a scalar broadcast (R31). -/
def opBcast (o : BitVec 12) : Bool := opWid o == 3

/-- The cell, as 128 × row + col, of lane i of a line of direction dir and index n (R29, R13). -/
def cellAt (dir n i : Nat) : Nat :=
  match dir with
  | 0 => 128 * n + i
  | 1 => 128 * i + n
  | 2 => 128 * i + (i + n) % 128
  | _ => 128 * i + (n + 128 - i) % 128

/-- The cells of lane i of an operand: one, or low and high of a pair; none for a broadcast. -/
def laneCells (o : BitVec 12) (i : Nat) : List Nat :=
  if opBcast o then []
  else if opPair o then [cellAt (opDir o) (opIndex o) i, cellAt (opDir o) (opIndex o + 1) i]
  else [cellAt (opDir o) (opIndex o) i]

/-- Lane i of d overlaps lane i of o: they share a cell (R107). -/
def laneMeets (d o : BitVec 12) (i : Nat) : Bool :=
  (laneCells d i).any (fun c => (laneCells o i).contains c)

/-- The lane of a line on which a cell lies, if it does. -/
def laneOf (dir n c : Nat) : Option Nat :=
  let r := c / 128
  let k := c % 128
  match dir with
  | 0 => if r = n then some k else none
  | 1 => if k = n then some r else none
  | 2 => if k = (r + n) % 128 then some r else none
  | _ => if k = (n + 128 - r) % 128 then some r else none

/-- The lane of an operand on which a cell lies. -/
def operandLane (o : BitVec 12) (c : Nat) : Option Nat :=
  if opBcast o then none
  else
    match laneOf (opDir o) (opIndex o) c with
    | some i => some i
    | none => if opPair o then laneOf (opDir o) (opIndex o + 1) c else none

/-- The cells of lane i that the matrix file has: a pair of columns from 127 on has no second column. -/
def fileCells (o : BitVec 12) (i : Nat) : List Nat := (laneCells o i).filter (fun c => (operandLane o c).isSome)

/-- Two operands share a cell. -/
def sharesCell (d a : BitVec 12) : Bool :=
  (List.range 128).any (fun i => (fileCells d i).any (fun c => (operandLane a c).isSome))

/-- Two operands share a cell that they name in different lanes (R111). -/
def sharesAcross (d a : BitVec 12) : Bool :=
  (List.range 128).any (fun i => (fileCells d i).any (fun c =>
    match operandLane a c with
    | some j => j != i
    | none => false))

/-- Some lane of d overlaps itself in a, over all 128 lanes (R107, R111). -/
def overlapsSelf (d a : BitVec 12) : Bool :=
  (List.range 128).any (fun i => (fileCells d i).any (fun c => (fileCells a i).contains c))

/-! ## Types -/

/-- Width in bits of an integer-class type (Table 2.5). -/
def intWidth (q : Nat) : Nat := 8 * 2 ^ (q % 4)

/-- Width in bits of a floating-class type (Table 2.5). -/
def floatWidth (q : Nat) : Nat :=
  match q with
  | 0 => 32
  | 1 => 16
  | 2 => 16
  | 3 => 64
  | _ => 8

/-- Width in bits of a type code (R145): bit 3 set for the floating class. -/
def codeWidth (t : Nat) : Nat :=
  if t < 8 then intWidth t else floatWidth (t - 8)

/-! ## The opcode map -/

/-- The "Runs on" column of Table 2.8: the sequencers of a core, and whether die control cores. -/
structure Runs where
  ld  : Bool
  cp  : Bool
  st  : Bool
  ct  : Bool
  dcc : Bool
  deriving DecidableEq, Repr

/-- all, core, DCC and the named sequencers (R43). -/
def Runs.all : Runs := ⟨true, true, true, true, true⟩
def Runs.core : Runs := ⟨true, true, true, true, false⟩
def Runs.dccOnly : Runs := ⟨false, false, false, false, true⟩
def Runs.ldOnly : Runs := ⟨true, false, false, false, false⟩
def Runs.cpOnly : Runs := ⟨false, true, false, false, false⟩
def Runs.stOnly : Runs := ⟨false, false, true, false, false⟩
def Runs.ctOnly : Runs := ⟨false, false, false, true, false⟩
def Runs.copyUnit : Runs := ⟨true, false, true, false, false⟩
def Runs.ldStCt : Runs := ⟨true, false, true, true, false⟩
def Runs.ldStCtDcc : Runs := ⟨true, false, true, true, true⟩

/-- The E column (R44). -/
inductive EForm where
  | zero | xo | one
  deriving DecidableEq, Repr

/-- How wide an operand's element is. -/
inductive MatW where
  | elt | single | pair | dstType | srcType
  deriving DecidableEq, Repr

/-- How an instruction uses a field D, A or B. -/
inductive Kind where
  /-- unused: zero (R47) -/
  | zero
  /-- a scalar register (R32) -/
  | sreg
  /-- a number in the low n bits -/
  | low (n : Nat)
  /-- a matrix-file operand: may it be a broadcast, must it be a row or a column, its width -/
  | mat (bcast lines : Bool) (w : MatW)
  deriving DecidableEq, Repr

/-- A row of the opcode map. -/
structure OpInfo where
  runs  : Runs
  /-- bit q set: Q value q is allowed -/
  qmask : Nat := 1
  /-- Q is read in the floating class -/
  flt   : Bool := false
  e     : EForm := .zero
  d     : Kind := .zero
  a     : Kind := .zero
  b     : Kind := .zero
  /-- the assigned bits of X -/
  x     : Nat := 0
  /-- X[11:0] is a fourth operand -/
  c     : Bool := false
  priv  : Bool := false
  /-- nominal latency at k = 1; 0 where no register or cell is written -/
  lat   : Nat := 0
  /-- occupancy at k = 1 of a CP-class instruction -/
  occ   : Nat := 0
  deriving DecidableEq, Repr

/-- A matrix source operand, a destination operand. -/
def Kind.src : Kind := .mat true false .elt
def Kind.dst : Kind := .mat false false .elt

/-- All bits of X. -/
def allX : Nat := 0xFFFFFF

/-- A control-class row. -/
def ctl (d a b : Kind) (x lat : Nat) : OpInfo :=
  { runs := .all, d := d, a := a, b := b, x := x, lat := lat }

/-- A row of the reversible vector class. -/
def vec (q : Nat) (e : EForm) (d a b : Kind) (x lat : Nat) : OpInfo :=
  { runs := .cpOnly, qmask := q, e := e, d := d, a := a, b := b, x := x, lat := lat, occ := 1 }

/-- A row of the vector floating-point class. -/
def vflt (a b : Kind) (e : EForm) (lat : Nat) : OpInfo :=
  { runs := .cpOnly, qmask := 0x0F, flt := true, e := e, d := .dst, a := a, b := b, lat := lat, occ := 1 }

/-- Table 2.8 with the field tables of the class chapters; none for an undefined OPC or FN (R42). Table 13.2 names the field cmp for ATOM and VATOM in brackets; here the functions other than CAS leave its bits unassigned, so that a non-zero one is an illegal instruction (DESIGN CHOICE, log 81). -/
def opInfo (c : Code) : Option OpInfo :=
  let fn := c % 16
  match c / 16 with
  | 0x00 =>
    match fn with
    | 0 => some (ctl .zero .zero .zero 0 0)
    | 1 => some (ctl .zero .zero .zero 0 0)
    | 2 => some (ctl .zero .sreg .zero allX 0)
    | _ => none
  | 0x01 => if fn = 0 then some (ctl .zero .zero .zero allX 0) else none
  | 0x02 => if fn < 8 then some (ctl .sreg .sreg .zero allX 0) else none
  | 0x03 => if fn < 8 then some (ctl .sreg .zero .zero allX 0) else none
  | 0x04 => if fn = 0 then some (ctl .sreg .zero .zero allX 1) else none
  | 0x05 => if fn = 0 then some (ctl .zero .zero .zero allX 1) else none
  | 0x06 =>
    match fn with
    | 0 => some (ctl .zero .sreg .zero 0 0)
    | 1 => some (ctl .zero .sreg .zero 0 1)
    | 2 => some (ctl .zero .zero .zero 0 0)
    | _ => none
  | 0x08 => some (ctl .sreg .sreg .sreg 0 1)
  | 0x09 => some (ctl .sreg .sreg .zero allX 1)
  | 0x0A =>
    if fn < 3 then some (ctl .sreg .sreg .sreg 0 3)
    else if fn < 7 then some (ctl .sreg .sreg .sreg 0 18) else none
  | 0x0B =>
    if fn < 4 then some (ctl .sreg .sreg .zero 0 1)
    else if fn = 4 then some { ctl .sreg .sreg .zero 0 1 with qmask := 0x07 }
    else if fn = 5 then some { ctl .sreg .sreg .zero 0 1 with qmask := 0x70 } else none
  | 0x0C => if fn = 0 then some (ctl .sreg .sreg .sreg 0x1F 1) else none
  | 0x0D => if fn < 2 then some (ctl .sreg .zero .zero allX 1) else none
  | 0x0E =>
    match fn with
    | 0 => some (ctl .sreg .sreg .zero 0 1)
    | 1 => some (ctl .sreg .zero .zero 0xFFF 2)
    | 2 => some (ctl .zero .sreg .zero 0xFFF 0)
    | _ => none
  | 0x0F => if fn = 0 then some { ctl .sreg .sreg .zero allX 12 with qmask := 0xFF } else none
  | 0x10 => if fn = 0 then some { ctl .sreg .sreg .zero allX 0 with qmask := 0xFF } else none
  | 0x11 => if fn < 2 then some { ctl .zero .zero .zero 0xFF 0 with runs := .core } else none
  | 0x20 => if fn = 0 then some (vec 0xFF .xo .dst .src .zero 0 2) else none
  | 0x21 =>
    let q := if fn = 6 ∨ fn = 7 then 0x0F else if fn = 8 ∨ fn = 9 then 0xF0 else 0xFF
    some (vec q .xo .dst .src .src 0 (if fn = 10 ∨ fn = 11 then 3 else 2))
  | 0x22 =>
    if fn < 6 then
      some (vec (if fn = 2 ∨ fn = 3 then 0x0F else if fn = 4 ∨ fn = 5 then 0xF0 else 0xFF) .xo .dst .src .src 0 2)
    else none
  | 0x23 => if fn = 0 then some { vec 0xFF .xo .dst .src .src 0xFFF 2 with c := true } else none
  | 0x24 => if fn < 3 then some (vec (if fn = 0 then 0x0F else 0xFF) .xo .dst .src .zero 0 2) else none
  | 0x25 =>
    if fn < 8 then
      some (vec (if fn = 1 ∨ fn = 2 then 0x0F else if fn = 3 ∨ fn = 4 then 0xF0 else 0xFF) .xo .dst .src .zero 0 6)
    else none
  | 0x28 =>
    match fn with
    | 0 => some (vec 0xFF .zero .dst .src .zero 0 2)
    | 1 => some (vec 0xFF .zero .dst .src .zero 0 2)
    | 2 => some (vec 0xFF .zero .dst .zero .zero 0 2)
    | 3 => some (vec 0xFF .zero .dst .zero .zero 0 2)
    | 4 => some (vec 0xFF .zero .dst .src .zero 0 2)
    | 5 => some (vec 0xFF .zero .dst .sreg .zero 0 3)
    | 6 => some (vec 0xFF .zero .dst .zero .zero 0 2)
    | _ => none
  | 0x29 =>
    match fn with
    | 0 => some (vec 0xFF .zero .dst .dst .zero 0 2)
    | 1 => some (vec 0xFF .zero .dst .dst .src 0 2)
    | _ => none
  | 0x2A =>
    match fn with
    | 0 => some (vec 0xFF .zero .dst .zero .zero 0 2)
    | 1 => some (vec 0xFF .zero .dst .sreg .zero 0 2)
    | 2 => some (vec 0xFF .zero .dst .sreg .zero 0 2)
    | _ => none
  | 0x2C =>
    match fn with
    | 0 => some (vec 0x0F .zero .dst .dst .zero 0 2)
    | 1 => some (vec 0x0F .zero .dst .dst .zero 0 2)
    | 2 => some (vec 0xF0 .zero .dst .dst .zero 0 2)
    | 3 => some (vec 0xF0 .zero .dst .dst .zero 0 2)
    | 4 => some (vec 0x0F .zero .dst .zero .zero 0 2)
    | _ => none
  | 0x2D =>
    match fn with
    | 0 => some (vec 0xFF .zero .dst .dst .zero 1 2)
    | 1 => some (vec 0x0F .zero .dst .zero .zero 0 2)
    | _ => none
  | 0x2E =>
    match fn with
    | 0 => some (vec 1 .zero .zero (.mat true false .single) .zero 0x1F 2)
    | 1 => some (vec 1 .zero .zero (.mat true false .single) .zero 0x1F 2)
    | 2 => some (vec 1 .zero (.mat false false .single) .zero .zero 0x1F 2)
    | 3 => some (vec 1 .zero .zero .zero .zero 0x1FFF 2)
    | 4 => some (vec 1 .zero .zero .sreg .zero 0x1FFF 2)
    | 5 => some (vec 1 .zero .zero .sreg .zero 0x1FFF 0)
    | 6 => some (vec 1 .zero .sreg .zero .zero 0 2)
    | _ => none
  | 0x2F => if fn = 0 then some (vec 0xFF .zero .dst .zero .zero 0 2) else none
  | 0x40 =>
    if fn < 8 then
      some (vflt .src .src .xo (if fn = 3 ∨ fn = 4 ∨ fn = 7 then 2 else if fn = 5 then 14 else 4))
    else none
  | 0x41 =>
    if fn < 4 then some { vflt .src .src (if fn = 3 then .one else .xo) 5 with x := 0xFFF, c := true } else none
  | 0x42 =>
    if fn < 11 then
      some (vflt .src .zero .xo
        (if fn = 0 ∨ fn = 10 then 2 else if fn ≤ 3 then 14 else if fn ≤ 5 then 16 else 4))
    else none
  | 0x43 => if fn < 8 then some (vflt .src .src .xo 2) else none
  | 0x44 => if fn < 4 then some (vflt .src .zero .xo 9) else none
  | 0x45 => if fn = 0 then some (vflt .zero .zero .zero 2) else none
  | 0x50 =>
    if fn = 0 then
      some { runs := .cpOnly, qmask := 0xFF, flt := true, e := .xo, d := .mat false false .dstType, a := .mat true false .srcType, x := 0x1FF, lat := 3, occ := 1 }
    else none
  | 0x51 =>
    if fn = 0 then
      some { runs := .cpOnly, qmask := 0xFF, flt := true, e := .xo, d := .mat false false .single, a := .mat true false .single, b := .mat true false .single, x := 0x1F0, lat := 5, occ := 1 }
    else none
  | 0x52 =>
    if fn = 0 then
      some { runs := .cpOnly, qmask := 0x07, flt := true, e := .xo, d := .mat false false .single, a := .mat true false .single, b := .mat true false .single, x := 0x0EF, lat := 5, occ := 1 }
    else none
  | 0x53 =>
    if fn = 0 then
      some { runs := .cpOnly, qmask := 0xFF, flt := true, e := .xo, d := .mat false false .single, a := .mat true false .single, x := 0x210, lat := 9, occ := 1 }
    else none
  | 0x54 =>
    if fn < 2 then
      some { runs := .cpOnly, qmask := 0xFF, flt := true, e := .xo, d := .mat false false .single, a := .mat true false .single, x := 0x010, lat := 2, occ := 1 }
    else none
  | 0x55 =>
    if fn = 0 then
      some { runs := .cpOnly, qmask := 0x16, flt := true, e := .xo, d := .mat false false .pair, a := .mat true false .single, x := 0x0E0, lat := 4, occ := 1 }
    else none
  | 0x60 => if fn = 0 then some { runs := .ctOnly, a := .sreg, x := 0x1F } else none
  | 0x61 => if fn = 0 then some { runs := .ctOnly } else none
  | 0x62 => if fn = 0 then some { runs := .ctOnly } else none
  | 0x63 => if fn = 0 then some { runs := .cpOnly, x := 0x1FFFF, lat := 10, occ := 1 } else none
  | 0x64 =>
    if fn = 0 then
      some { runs := .cpOnly, a := .mat true false .single, b := .mat true false .single, x := 0x7F, lat := 3, occ := 1 }
    else none
  | 0x65 => if fn = 0 then some { runs := .cpOnly, lat := 1, occ := 1 } else none
  | 0x66 =>
    if fn = 0 then
      some { runs := .cpOnly, qmask := 0x17, flt := true, e := .xo, d := .mat false false .single, b := .mat true false .single, x := 0x3FFFF, lat := 6, occ := 1 }
    else none
  | 0x67 => if fn = 0 then some { runs := .cpOnly, x := 0x7FFF, lat := 2, occ := 1 } else none
  | 0x70 => if fn = 0 then some { runs := .cpOnly, occ := 1 } else none
  | 0x71 => if fn = 0 then some { runs := .cpOnly, occ := 1 } else none
  | 0x72 => if fn = 0 then some { runs := .ctOnly, d := .sreg, lat := 2 } else none
  | 0x73 => if fn = 0 then some { runs := .ctOnly, a := .sreg } else none
  | 0x74 => if fn = 0 then some { runs := .ctOnly, d := .sreg, lat := 2 } else none
  | 0x78 => if fn = 0 then some { runs := .ldOnly, d := .low 3, a := .sreg, x := allX, lat := 12 } else none
  | 0x79 =>
    if fn = 0 then some { runs := .ldOnly, e := .xo, d := .mat false true .single, a := .mat false true .single, x := 7, lat := 16 }
    else none
  | 0x7A =>
    if fn < 2 then some { runs := .stOnly, a := .mat false true .single, b := .mat false true .single, x := 7 } else none
  | 0x7B =>
    if fn = 0 then some { runs := .ldOnly, e := .xo, d := .mat false true .single, a := .mat false true .single, x := 7, lat := 16 }
    else none
  | 0x80 =>
    match fn with
    | 0 => some { runs := .ldOnly, qmask := 0xFF, e := .xo, d := .dst, a := .sreg, x := allX, lat := 14 }
    | 1 => some { runs := .ldOnly, qmask := 0xFF, e := .xo, d := .dst, a := .sreg, b := .sreg, x := allX, lat := 14 }
    | 2 => some { runs := .ldOnly, qmask := 0xFF, e := .xo, d := .dst, a := .sreg, b := .mat true false .single, x := allX, lat := 14 }
    | _ => none
  | 0x81 =>
    match fn with
    | 0 => some { runs := .stOnly, qmask := 0xFF, d := .dst, a := .sreg, x := allX }
    | 1 => some { runs := .stOnly, qmask := 0xFF, d := .dst, a := .sreg, b := .sreg, x := allX }
    | 2 => some { runs := .stOnly, qmask := 0xFF, d := .dst, a := .sreg, b := .mat true false .single, x := allX }
    | _ => none
  | 0x82 => if fn = 0 then some { runs := .ldOnly, qmask := 0x77, e := .xo, d := .mat false true .single, a := .sreg, x := 0xF, lat := 14 } else none
  | 0x83 => if fn = 0 then some { runs := .stOnly, qmask := 0x77, d := .mat false true .single, a := .sreg, x := 0xF } else none
  | 0x84 => if fn = 0 then some { runs := .ldStCt, d := .low 4, a := .sreg, x := allX, lat := 12 } else none
  | 0x85 => if fn = 0 then some { runs := .copyUnit, d := .sreg, a := .sreg, b := .sreg } else none
  | 0x86 => if fn = 0 then some { runs := .ldOnly, a := .sreg, b := .sreg, x := 0x1F } else none
  | 0x87 => if fn = 0 then some { runs := .ldOnly, a := .sreg, b := .sreg, x := 3 } else none
  | 0x88 => if fn = 0 then some { runs := .ldStCt, x := 0xFFFFF } else none
  | 0x89 => if fn = 0 then some { runs := .ctOnly, x := 0xF } else none
  | 0x8A => if fn = 0 then some { runs := .ctOnly, a := .sreg, b := .sreg, x := 1 } else none
  | 0xA0 => if fn = 0 then some { runs := .ldStCt, d := .sreg, x := 0x1F, lat := 4 } else none
  | 0xA1 => if fn = 0 then some { runs := .ldStCt, a := .sreg, x := 0x1F } else none
  | 0xA2 => if fn = 0 then some { runs := .ldStCt, d := .sreg, x := 0x1F, lat := 4 } else none
  | 0xA3 => if fn = 0 then some { runs := .ldStCt, a := .sreg, x := 0x1F } else none
  | 0xA4 => if fn = 0 then some { runs := .ldStCt, d := .sreg, x := 7, lat := 4 } else none
  | 0xA5 => if fn = 0 then some { runs := .ldStCt, x := 7 } else none
  | 0xA6 =>
    match fn with
    | 0 => some { runs := .ldStCt, d := .sreg, a := .sreg, x := 0x1F1F }
    | 1 => some { runs := .ldStCt, d := .sreg, x := 0x1F1F }
    | 2 => some { runs := .ldStCt, d := .sreg, a := .sreg, x := 0x31F, lat := 2 }
    | 3 => some { runs := .ldStCt, x := 0x1F }
    | 4 => some { runs := .ldStCt, d := .sreg, x := 0x1F, lat := 2 }
    | _ => none
  | 0xA7 => if fn = 0 then some { runs := .all, x := 0x31F03 } else none
  | 0xA8 =>
    if fn < 13 then
      some { runs := .ldStCtDcc, qmask := (if fn < 10 then (if fn = 6 ∨ fn = 7 then 0xC0 else 0x0C) else 1), flt := decide (10 ≤ fn),
             d := .sreg, a := .sreg, x := (if fn = 9 then 0x1F011F else 0x11F), lat := 12 }
    else none
  | 0xA9 =>
    if fn < 13 then
      some { runs := .stOnly, qmask := (if fn < 10 then (if fn = 6 ∨ fn = 7 then 0xC0 else 0x0C) else 1), flt := decide (10 ≤ fn),
             d := .mat false true .elt, a := .sreg, b := .mat false true .single,
             x := (if fn = 9 then 0x1FFFF else 0x100FF), lat := 16 }
    else none
  | 0xAA => if fn = 0 then some { runs := .ctOnly, a := .sreg, x := 0x1F } else none
  | 0xB0 => if fn = 0 then some { runs := .stOnly, d := .sreg, a := .sreg, b := .sreg } else none
  | 0xB1 => if fn = 0 then some { runs := .ldOnly, d := .sreg, a := .sreg, b := .sreg } else none
  | 0xB2 =>
    if fn < 5 then
      some { runs := .cpOnly, qmask := (if fn < 3 then 1 else 0x0C), flt := decide (fn < 3), e := .xo, d := .dst, a := .src, x := 0x1F, lat := 40, occ := 1 }
    else none
  | 0xC0 => if fn = 0 then some (ctl .zero .zero .zero 0xFFFF 0) else none
  | 0xC1 => if fn = 0 then some (ctl .zero .zero .zero 1 0) else none
  | 0xC2 => if fn = 0 then some (ctl .zero .zero .zero 0xFFFF 0) else none
  | 0xC3 =>
    match fn with
    | 0 => some (ctl .zero .zero .zero 0 0)
    | 1 => some (ctl .zero .sreg .zero 0 0)
    | _ => none
  | 0xC4 => if fn = 0 then some (ctl .zero .zero .zero 0 0) else none
  | 0xC5 => if fn = 0 then some { ctl .sreg .sreg .zero 3 0 with priv := true } else none
  | 0xC6 =>
    match fn with
    | 0 => some { runs := .dccOnly, d := .sreg, a := .sreg, x := 0xFFFF03, priv := true }
    | 1 => some { runs := .dccOnly, d := .sreg, a := .sreg, priv := true }
    | _ => none
  | 0xC7 =>
    match fn with
    | 0 => some { ctl .sreg .sreg .zero 0xFFF 2 with priv := true }
    | 1 => some { ctl .sreg .sreg .zero 0xFFF 20 with priv := true }
    | _ => none
  | 0xC8 => if fn = 0 then some { runs := .core } else none
  | 0xD0 => if fn = 0 then some { runs := .dccOnly, d := .sreg, a := .sreg, lat := 60 } else none
  | 0xD1 => if fn = 0 then some { runs := .dccOnly, d := .sreg, a := .sreg, lat := 60 } else none
  | 0xD2 =>
    match fn with
    | 0 => some { runs := .dccOnly, d := .sreg, a := .sreg }
    | 1 => some { runs := .dccOnly, d := .sreg, a := .sreg }
    | 2 => some { runs := .dccOnly, d := .sreg, a := .sreg, lat := 4 }
    | _ => none
  | 0xD3 => if fn = 0 then some { runs := .dccOnly, a := .sreg } else none
  | 0xD4 => if fn = 0 then some { runs := .dccOnly, a := .sreg } else none
  | 0xE0 =>
    match fn with
    | 0 => some { runs := .core, a := .sreg }
    | 1 => some { runs := .core }
    | _ => none
  | 0xE1 => if fn = 0 then some { runs := .core, d := .sreg, a := .sreg, lat := 20 } else none
  | 0xE3 => if fn = 0 then some { runs := .dccOnly, d := .sreg, a := .sreg } else none
  | 0xE4 => if fn = 0 then some { runs := .dccOnly, d := .sreg, a := .sreg } else none
  | _ => none

/-! ## The encoding checks that need no state -/

/-- A set bit of X that the instruction does not use, or a used X value the class chapter calls an illegal instruction (R47 and the class chapters). -/
def xIllegal (c : Code) (f : Fields) : Bool :=
  let x := f.x.toNat
  match c / 16 with
  | 0x03 => -- BRCI BSET and BCLR: a bit number outside 0 to 63 (R77)
    (c % 16 == 6 || c % 16 == 7) && decide (64 ≤ x / 4096)
  | 0x11 => -- TOKW, TOKS: n of zero or an empty mask (R93)
    x / 16 % 16 == 0 || x % 16 == 0
  | 0x2E => -- counts outside 1 to 4,096 (R110)
    (c % 16 == 3 || c % 16 == 4 || c % 16 == 5) && (x == 0 || decide (4096 < x))
  | 0x50 => -- reserved type codes and rounding modes, OVF on other destinations (R145, R146)
    let ty := if x / 16 % 2 = 0 then 8 + f.q.toNat else f.q.toNat
    ty == 14 || ty == 15 || x % 16 == 14 || x % 16 == 15 || (decide (1 ≤ x / 32 % 8) && decide (x / 32 % 8 ≤ 3)) ||
      (x / 256 % 2 == 1 && !(ty == 12 || ty == 13))
  | 0x51 =>
    let ty := if x / 16 % 2 = 0 then 8 + f.q.toNat else f.q.toNat
    !([12, 13, 9, 10, 0, 4, 1, 5].contains ty) || (decide (1 ≤ x / 32 % 8) && decide (x / 32 % 8 ≤ 3)) ||
      (x / 256 % 2 == 1 && !(ty == 12 || ty == 13))
  | 0x52 => !([0, 4, 1, 5, 12, 13, 9, 10].contains (x % 16)) || (decide (1 ≤ x / 32 % 8) && decide (x / 32 % 8 ≤ 3))
  | 0x53 =>
    let ty := if x / 16 % 2 = 0 then 8 + f.q.toNat else f.q.toNat
    !([12, 13, 10, 0, 4, 1, 5].contains ty)
  | 0x54 =>
    let ty := if x / 16 % 2 = 0 then 8 + f.q.toNat else f.q.toNat
    !([12, 13, 9, 10, 0, 4, 1, 5].contains ty)
  | 0x55 => decide (1 ≤ x / 32 % 8) && decide (x / 32 % 8 ≤ 3)
  | 0x60 => decide (27 < x)
  | 0x63 => x / 16384 % 4 == 3
  | 0x66 => -- FROM of 3, AROW + CNT over 128, raw with a type or a scale, OVF without e4m3 (R179)
    x / 32768 % 4 == 3 || decide (128 < x % 128 + (x / 256 % 128 + 1)) ||
      (x / 32768 % 4 == 2 && (f.q != 0 || f.b != 0)) || (x / 131072 % 2 == 1 && f.q != 4)
  | 0x67 => decide (128 < x % 128 + (x / 256 % 128 + 1))
  | 0x87 => decide (2 ≤ x % 4)
  | 0x88 => x / 131072 % 2 == 1
  | 0x89 => !(decide (2 ≤ x) && decide (x ≤ 14))
  | 0xA6 => c % 16 == 2 && x / 256 % 4 == 3
  | 0xA7 => x % 4 == 0 || x / 65536 % 4 == 0
  | 0xA8 => x / 256 % 2 == 0 && x % 32 != 0
  | 0xA9 => x / 65536 % 2 == 0 && f.d != 0
  | 0xAA => decide (x % 32 < 6)
  | 0xC1 => f.pop != 0 || f.push != 0
  | 0xC5 => x % 4 == 3
  | _ => false

/-- A non-zero bit in a field that the class chapter does not assign (R47). -/
def unusedSet (i : OpInfo) (f : Fields) : Bool :=
  let bad (k : Kind) (v : BitVec 12) : Bool :=
    match k with
    | .zero => v != 0
    | .low n => decide (2 ^ n ≤ v.toNat)
    | _ => false
  bad i.d f.d || bad i.a f.a || bad i.b f.b || (f.x &&& ~~~(BitVec.ofNat 24 i.x)) != 0

/-- E against the E column (R44). -/
def eIllegal (i : OpInfo) (e : Bool) : Bool :=
  match i.e with
  | .zero => e
  | .xo => false
  | .one => !e

/-- RC may be non-zero only where "Runs on" is CP alone (R45). -/
def rcIllegal (i : OpInfo) (rc : BitVec 3) : Bool :=
  rc != 0 && i.runs != .cpOnly

/-- The part of check 4 of Table 2.9 that needs no state. -/
def illegalStatic (c : Code) (i : OpInfo) (f : Fields) : Bool :=
  !(i.qmask.testBit f.q.toNat) || unusedSet i f || eIllegal i f.e || rcIllegal i f.rc || xIllegal c f

/-- The element is 64 bits wide, for an operand of this width rule. -/
def wantsPair (i : OpInfo) (w : MatW) (f : Fields) : Bool :=
  match w with
  | .single => false
  | .pair => true
  | .elt => (if i.flt then floatWidth f.q.toNat else intWidth f.q.toNat) == 64
  | .dstType => codeWidth (if f.x.getLsbD 4 then f.q.toNat else 8 + f.q.toNat) == 64
  | .srcType => codeWidth (f.x.toNat % 16) == 64

/-- An operand field that check 6 refuses (R29 to R32). -/
def fieldIllegal (i : OpInfo) (k : Kind) (o : BitVec 12) (f : Fields) : Bool :=
  match k with
  | .zero => false
  | .low _ => false
  | .sreg => o.toNat / 32 != 0
  | .mat bcast lines w =>
    if opBcast o then !bcast || o.toNat / 1024 != 0 || o.toNat / 32 % 8 != 0
    else opWid o == 2 || o.getLsbD 7 || (opPair o && decide (2 ≤ opDir o)) || (lines && decide (2 ≤ opDir o)) ||
      (opPair o != wantsPair i w f)

/-- Operand conditions of the class chapters that belong to check 6, with the field they name (R111, R147, R179). -/
def classOperand (c : Code) (f : Fields) : Option Nat :=
  match c / 16 with
  | 0x28 => if c % 16 = 0 ∨ c % 16 = 1 ∨ c % 16 = 4 then (if overlapsSelf f.d f.a then some 1 else none) else none
  | 0x29 =>
    if sharesAcross f.d f.a then some 1
    else if c % 16 = 1 ∧ (sharesCell f.b f.d || sharesCell f.b f.a) then some 2 else none
  | 0x2C => if c % 16 < 4 ∧ sharesAcross f.d f.a then some 1 else none
  | 0x2D => if c % 16 = 0 ∧ sharesAcross f.d f.a then some 1 else none
  | 0x54 => if sharesCell f.d f.a then some 1 else none
  | 0x55 => if sharesCell f.d f.a then some 1 else none
  | 0x66 =>
    let cnt := f.x.toNat / 256 % 128 + 1
    if 1 < cnt ∧ (2 ≤ opDir f.d ∨ 128 < opIndex f.d + cnt) then some 0 else none
  | _ => none

/-- A fourth operand X[11:0]: a broadcast is legal in VFMA's addend and the like, and not in VSEL's mask (R110, R157). -/
def OpInfo.fourth (i : OpInfo) : Kind := if i.flt then .src else .dst

/-- D as check 6 judges it: VATOM with R = 0 reads and writes nothing through it (R30, R276). -/
def judgedD (c : Code) (i : OpInfo) (f : Fields) : Kind := if c / 16 = 0xA9 ∧ !f.x.getLsbD 16 then .zero else i.d

/-- The first field that is illegal by itself (R29 to R32). -/
def badField (c : Code) (i : OpInfo) (f : Fields) : Option Nat :=
  if fieldIllegal i (judgedD c i f) f.d f then some 0
  else if fieldIllegal i i.a f.a f then some 1
  else if fieldIllegal i i.b f.b f then some 2
  else if i.c && fieldIllegal i i.fourth (f.x.setWidth 12) f then some 3
  else none

/-- Check 6 of Table 2.9: the number of the first offending field. -/
def badOperand (c : Code) (i : OpInfo) (f : Fields) : Option Nat :=
  match badField c i f, classOperand c f with
  | some j, some k => some (min j k)
  | some j, none => some j
  | none, o => o

/-- The field is a pair with an odd INDEX (check 7). -/
def oddPair (k : Kind) (o : BitVec 12) : Bool :=
  match k with
  | .mat _ _ _ => opPair o && o.getLsbD 0
  | _ => false

/-- Check 7 of Table 2.9; for VATOM of a 64-bit type, X[7:0] and X[15:8] too (R276). -/
def oddIndex (c : Code) (i : OpInfo) (f : Fields) : Option Nat :=
  if oddPair i.d f.d then some 0
  else if oddPair i.a f.a then some 1
  else if oddPair i.b f.b then some 2
  else if i.c && oddPair .src (f.x.setWidth 12) then some 3
  else if c / 16 = 0xA9 ∧ !i.flt ∧ f.q.toNat % 4 = 3 ∧ (f.x.getLsbD 0 || (c % 16 == 9 && f.x.getLsbD 8)) then some 3
  else none

/-- The stretch k of a ramp class (Table 1.7). -/
def stretch (rc : Nat) : Nat :=
  match rc with
  | 0 => 1
  | 1 => 2
  | 2 => 3
  | 3 => 4
  | 4 => 6
  | 5 => 8
  | 6 => 12
  | _ => 16

/-- Nominal latency at k = 1 where the fields decide it (R126, R170, R185, R293); otherwise the row's. -/
def baseLatency (c : Code) (i : OpInfo) (f : Fields) : Nat :=
  let x := f.x.toNat
  match c / 16 with
  | 0x40 => if f.q = 3 then (match c % 16 with | 3 => 2 | 4 => 2 | 7 => 2 | 5 => 22 | _ => 5) else i.lat
  | 0x41 => if f.q = 3 then 6 else i.lat
  | 0x42 => if f.q = 3 then (match c % 16 with | 0 => 2 | 10 => 2 | 1 => 22 | 2 => 22 | 3 => 22 | 4 => 26 | 5 => 26 | _ => 5) else i.lat
  | 0x44 => if f.q = 3 then 11 else i.lat
  | 0x63 =>
    if x / 65536 % 2 = 1 then (if x / 16384 % 4 = 0 then 11 else 15) else (if x / 16384 % 4 = 0 then 10 else 14)
  | 0x66 => 5 + (x / 256 % 128 + 1)
  | 0x67 => 2 + (x / 256 % 128) / 32
  | 0xA8 => if x / 256 % 2 = 1 then 12 else 0
  | 0xA9 => if x / 65536 % 2 = 1 then 16 else 0
  | _ => i.lat

/-- Steps added to the RSTEP counter of the effective ramp class: occupancy at k = 1 with no trap enabled, array occupancy for MMA (R128, R155, R170, R180, R181, R184, R306). -/
def baseSteps (c : Code) (i : OpInfo) (f : Fields) : Nat :=
  let x := f.x.toNat
  match c / 16 with
  | 0x2E =>
    match c % 16 with
    | 3 => 1 + (x - 1) / 64
    | 4 => 1 + (x + 3) / 4
    | 5 => 1 + (x + 3) / 4
    | _ => 1
  | 0x40 => if f.q = 3 then 2 else 1
  | 0x41 => if f.q = 3 then 2 else 1
  | 0x42 => if f.q = 3 then 2 else 1
  | 0x43 => if f.q = 3 then 2 else 1
  | 0x44 => if f.q = 3 then 2 else 1
  | 0x45 => if f.q = 3 then 2 else 1
  | 0x63 => if x / 16384 % 4 = 0 then 4 else 8
  | 0x65 => 0
  | 0x66 => x / 256 % 128 + 1
  | 0x67 => 0
  | 0x70 => 0
  | 0x71 => 0
  | _ => i.occ

/-- Opcodes whose occupancy is their latency while a bit of FPCTL.TE is set: 0x40 to 0x45, 0x50 to 0x55, and ADRN, which follows the conversions (R144, R184). -/
def heldByTraps (op : Nat) : Bool := (decide (0x40 ≤ op) && decide (op ≤ 0x45)) || (decide (0x50 ≤ op) && decide (op ≤ 0x55)) || op == 0x66

/-- Cycles at k = 1 in which CP issues nothing else; with a bit of FPCTL.TE set, the latency where R144 says so (R126, R144, R170, Table 8.5). -/
def baseOccupancy (c : Code) (i : OpInfo) (f : Fields) (traps : Bool) : Nat :=
  if i.runs ≠ .cpOnly then 1
  else if traps && heldByTraps (c / 16) then baseLatency c i f
  else if c / 16 = 0x63 then 1
  else max 1 (baseSteps c i f)

end Sys2Proof.Machine
end

