-- ==== Sys2Proof/Machine/RegTable.lean ====
section
/-! DEFINITION. The system registers: for every assigned number, who holds it, which of its bits are written, which are sticky, what it resets to, and the field that saturates (Table 4.6 and the tables of the chapters that own the ranges of Table 4.12). -/

namespace Sys2Proof.Machine

/-- Who holds a system register. -/
inductive RegHome where
  | seq | core | bay | quad | stack | pkg
  deriving DecidableEq, Repr

/-- One system register: its writable bits, its sticky bits (R7), its reset value, and its saturating field as (lowest bit, floor, ceiling) (R405). -/
structure RegInfo where
  home   : RegHome
  rw     : Nat := 0
  sticky : Nat := 0
  reset  : Word := 0
  sat    : Option (Nat × Nat × Nat) := none
  deriving DecidableEq, Repr

/-- The bits of a register that a write or a restore can set; every other bit is computed or reserved (R6, R7). -/
def RegInfo.kept (r : RegInfo) : Word := BitVec.ofNat 64 (r.rw ||| r.sticky)

/-- All 64 bits. -/
def ones64 : Nat := 0xFFFFFFFFFFFFFFFF

/-- The number of a system register, or none where no chapter assigns it (R87, Table 4.6, Table 4.12). AGELIM is taken as a byte whose values above 255 saturate at 255 (DESIGN CHOICE, log 64). -/
def regInfo (n : Nat) : Option RegInfo :=
  if n < 0x080 then
    match n with
    | 0x000 => some { home := .seq }
    | 0x001 => some { home := .seq, rw := 3 }
    | 0x002 => some { home := .seq, rw := 0xFF, reset := 128, sat := some (0, 1, 128) }
    | 0x003 => some { home := .seq, rw := 0xFF, reset := 128, sat := some (0, 1, 128) }
    | 0x004 => some { home := .seq, rw := 0xFF, reset := 128, sat := some (0, 1, 128) }
    | 0x005 => some { home := .seq, rw := 0x1FF, reset := 256, sat := some (0, 1, 256) }
    | 0x006 => some { home := .seq, rw := 0x3F, reset := 32, sat := some (0, 10, 40) }
    | 0x007 => some { home := .core, rw := 0xFF, reset := 32, sat := some (0, 1, 255) }
    | 0x008 => some { home := .seq, rw := 1 }
    | 0x009 => some { home := .seq, rw := ones64 }
    | 0x00A => some { home := .core }
    | 0x00B => some { home := .core }
    | 0x00C => some { home := .seq, rw := 0x83010707001F073E }
    | 0x00D => some { home := .seq, rw := 0xFFFFFFFFFFFFFFFE }
    | 0x00E => some { home := .seq, rw := 0xFFFFFFFFFFFFFFFE }
    | 0x00F => some { home := .seq, rw := 0x101FF }
    | 0x010 => some { home := .seq, rw := ones64 }
    | 0x011 => some { home := .core }
    | 0x012 => some { home := .core }
    | 0x013 => some { home := .core }
    | 0x014 => some { home := .core }
    | 0x015 => some { home := .core }
    | 0x016 => some { home := .core }
    | 0x017 => some { home := .core }
    | 0x018 => some { home := .core }
    | 0x019 => some { home := .seq, rw := ones64 }
    | 0x01A => some { home := .seq, rw := ones64 }
    | 0x01B => some { home := .core }
    | 0x040 => some { home := .core }
    | 0x041 => some { home := .core, rw := ones64 }
    | 0x042 => some { home := .core, rw := 0x7FFFFFFFFFFFFFFF, sticky := 0x8000000000000000 }
    | 0x048 => some { home := .core }
    | 0x049 => some { home := .core }
    | 0x04A => some { home := .core }
    | 0x04B => some { home := .core }
    | 0x04C => some { home := .core }
    | 0x04D => some { home := .core }
    | 0x04E => some { home := .core }
    | 0x04F => some { home := .core }
    | 0x060 => some { home := .seq, rw := 0x1F07 }
    | 0x061 => some { home := .seq, sticky := 0x1F }
    | _ => none
  else if n < 0x100 then
    match n with
    | 0x080 => some { home := .core, sticky := 7 }
    | 0x081 => some { home := .core, sticky := 4 }
    | 0x082 => some { home := .core }
    | 0x0C0 => some { home := .core, rw := 0xF, reset := 8 }
    | 0x0C1 => some { home := .core, rw := 0xFFFFFFFF, reset := 8 }
    | 0x0C2 => some { home := .core, rw := 0x7F, reset := 1, sat := some (0, 1, 64) }
    | 0x0C3 => some { home := .core, rw := ones64 }
    | 0x0C4 => some { home := .core, rw := 1 }
    | 0x0C5 => some { home := .core, rw := 0x3FFFFFFFFFF }
    | 0x0C6 => some { home := .core, rw := 0x3FF }
    | 0x0C7 => some { home := .core, rw := 0xFF, reset := 16 }
    | 0x0C8 => some { home := .core, rw := 0xFFFF }
    | 0x0C9 => some { home := .core, rw := 1 }
    | 0x0D0 => some { home := .core }
    | 0x0D1 => some { home := .core }
    | 0x0D2 => some { home := .core }
    | 0x0D3 => some { home := .core }
    | 0x0D4 => some { home := .core, sticky := 0x18 }
    | 0x0D8 => some { home := .core }
    | 0x0E0 => some { home := .core, sticky := 1 }
    | 0x0E1 => some { home := .core, rw := ones64 }
    | _ => none
  else if n < 0x200 then some { home := .core, rw := 0xFFFFFFFF }
  else if n < 0x280 then
    match n with
    | 0x200 => some { home := .seq, sticky := 0x17 }
    | 0x201 => some { home := .seq, rw := 0x1F }
    | 0x202 => some { home := .bay, rw := 0x7FFFFFFFFFFFFF }
    | 0x203 => some { home := .bay, rw := 0x1FF00FFFFC0, reset := 0x100000040, sat := some (32, 1, 256) }
    | 0x204 => some { home := .bay }
    | 0x208 => some { home := .seq, rw := 7 }
    | 0x209 => some { home := .core, rw := ones64 }
    | 0x20A => some { home := .core, rw := 0x1FF00FFFFC0, reset := 0x100000040, sat := some (32, 1, 256) }
    | 0x20B => some { home := .core }
    | 0x20C => some { home := .core, sticky := 1 }
    | 0x240 => some { home := .core, rw := ones64 }
    | 0x241 => some { home := .core, rw := ones64 }
    | 0x242 => some { home := .pkg }
    | 0x243 => some { home := .pkg, reset := 0xFFFFFF }
    | 0x260 => some { home := .pkg, reset := 1 }
    | 0x261 => some { home := .pkg, reset := 0x4200 }
    | _ => none
  else if n < 0x300 then
    match n with
    | 0x280 => some { home := .seq, rw := 0xFFFFFFFFFFFFFFFE }
    | 0x281 => some { home := .seq, rw := 0xF }
    | 0x282 => some { home := .seq, rw := ones64 }
    | 0x283 => some { home := .seq, rw := 0xFFFFFFFF }
    | 0x298 => some { home := .core, rw := 1 }
    | 0x2A0 => some { home := .core, rw := 0x0FFFFFFFFFFFFFFF }
    | 0x2B0 => some { home := .stack, rw := 0xFFFFFFFFFFFFFFC0 }
    | 0x2B1 => some { home := .stack, rw := 0xF, reset := 12, sat := some (0, 6, 12) }
    | 0x2B2 => some { home := .stack, rw := 0xFFF }
    | 0x2B3 => some { home := .stack }
    | 0x2B4 => some { home := .stack, rw := ones64 }
    | 0x2C0 => some { home := .pkg }
    | 0x2C1 => some { home := .stack, rw := ones64 }
    | 0x2C2 => some { home := .core }
    | _ =>
      if 0x288 ≤ n ∧ n ≤ 0x297 then
        (if n % 2 = 0 then some { home := .core, rw := 0x7FFFFFFFFFFFFE }
         else some { home := .core, rw := 0x800FFFFF })
      else none
  else
    match n with
    | 0x300 => some { home := .quad }
    | 0x301 => some { home := .quad, reset := 512 }
    | 0x302 => some { home := .quad }
    | 0x303 => some { home := .quad }
    | 0x304 => some { home := .stack }
    | 0x305 => some { home := .seq, sticky := 0x200 }
    | 0x306 => some { home := .core, sticky := 0x10 }
    | 0x307 => some { home := .quad, reset := 100 }
    | 0x308 => some { home := .quad }
    | 0x309 => some { home := .quad }
    | 0x30A => some { home := .stack, reset := 0x1F }
    | 0x340 => some { home := .core, rw := ones64 }
    | 0x341 => some { home := .core, rw := ones64 }
    | 0x400 => some { home := .core, rw := 0xFFFFFFFFFFFFFFFE, sticky := 1 }
    | 0x401 => some { home := .stack }
    | 0x402 => some { home := .pkg, reset := 0xE4 }
    | 0x403 => some { home := .stack, rw := ones64 }
    | _ => none

/-- The value a register has at reset and at context creation. -/
def regReset (n : Nat) : Word :=
  match regInfo n with
  | some r => r.reset
  | none => 0

/-- A register all of whose fields are RO (R86). -/
def regReadOnly (r : RegInfo) : Bool :=
  r.rw == 0 && r.sticky == 0

/-- Registers reachable only through MFP and MTP (R316). -/
def regRemoteOnly (n : Nat) : Bool :=
  decide (0x280 ≤ n ∧ n ≤ 0x283)

/-- The source of a write after its saturating field is judged (R405). -/
def saturate (r : RegInfo) (v : Word) : Word :=
  match r.sat with
  | none => v
  | some (lo, floor, ceil) =>
    let hi := v.toNat / 2 ^ lo
    let f := if hi < floor then floor else if hi > ceil then ceil else hi
    BitVec.ofNat 64 (v.toNat % 2 ^ lo + f * 2 ^ lo)

/-- What a register holds after a write: writable bits taken, sticky bits cleared where written 1, the rest unchanged (R6, R7, R86). -/
def mergeWrite (r : RegInfo) (old v : Word) : Word :=
  let rw := BitVec.ofNat 64 r.rw
  let st := BitVec.ofNat 64 r.sticky
  (old &&& ~~~(rw ||| st)) ||| (saturate r v &&& rw) ||| (old &&& st &&& ~~~v)

end Sys2Proof.Machine
end

