-- ==== Sys2Proof/Machine/Tab.lean ====
section
/-! DEFINITION. Tables: sparse data by a natural-number key, as lists with keys rising and none twice. An absent key reads as the default that the reader names. -/

namespace Sys2Proof.Machine

/-- A sparse table: (key, value) pairs, keys rising, no key twice. -/
abbrev Tab (α : Type) := List (Nat × α)

/-- The value at a key, or the default. -/
def Tab.get {α : Type} (t : Tab α) (k : Nat) (d : α) : α :=
  match t with
  | [] => d
  | (k', v) :: r => if k' = k then v else Tab.get r k d

/-- Whether a key is listed. -/
def Tab.has {α : Type} (t : Tab α) (k : Nat) : Bool :=
  t.any (fun p => p.1 == k)

/-- Sets the value at a key, keeping the keys in order. -/
def Tab.put {α : Type} (t : Tab α) (k : Nat) (v : α) : Tab α :=
  match t with
  | [] => [(k, v)]
  | (k', v') :: r =>
    if k < k' then (k, v) :: (k', v') :: r
    else if k' = k then (k, v) :: r
    else (k', v') :: Tab.put r k v

/-- Removes a key. -/
def Tab.del {α : Type} (t : Tab α) (k : Nat) : Tab α :=
  t.filter (fun p => p.1 != k)

/-- Sets the value at a key of a table whose absent keys read as z: writing z removes the key. -/
def Tab.put0 {α : Type} [DecidableEq α] (z : α) (t : Tab α) (k : Nat) (v : α) : Tab α :=
  if v = z then Tab.del t k else Tab.put t k v

/-- The keys rise strictly. -/
def Tab.sorted {α : Type} (t : Tab α) : Bool :=
  match t with
  | [] => true
  | (k, _) :: r => r.all (fun p => decide (k < p.1)) && Tab.sorted r

end Sys2Proof.Machine
end

