-- ==== Sys2Proof/Machine/State.lean ====
section
/-! DEFINITION. The state of the machine as plain data: every store, register and engine the spec names (INVENTORY.md, State), the model's own schedule fields, and the state after reset. Cores, bays, quadrants, stacks and packages stand in tables by position; an absent one is as reset leaves it. -/

namespace Sys2Proof.Machine

/-! ## Outcomes that are no next state -/

/-- Reasons to stop with a fault. Every fault of the spec is a next state (R312, R235), so the model raises none of its own but this one. -/
inductive Fault where
  /-- never raised by a meaning of this model; kept so that the type has a name. Safe. -/
  | machineCheck
  deriving DecidableEq, Repr

/-- Reasons to refuse an instruction. -/
inductive Refusal where
  /-- raised by the arms of exec that have no meaning yet, with the row's mnemonic. Safe. -/
  | notModelled (mnemonic : String)
  deriving DecidableEq, Repr

/-! ## A sequencer -/

/-- Four things, one for each sequencer of a core (R12). -/
structure Four (α : Type) where
  ld : α
  cp : α
  st : α
  ct : α
  deriving DecidableEq, Repr

/-- SEQCTL.STATE (R316). -/
inductive RunState where
  | running | halted | stopped
  deriving DecidableEq, Repr

/-- The path class of a write (R241). -/
inductive Path where
  | vertical | horizontal
  deriving DecidableEq, Repr

/-- A cached translation (R221): the context's tag, the page number VA[54:16], and what the walk answered. -/
structure TlbEntry where
  tag   : Nat
  vpage : Nat
  ppage : Nat
  perm  : BitVec 6
  level : Nat
  deriving DecidableEq, Repr

/-- A write of at most 8 bytes to physical memory that has been issued and not yet performed (R242). -/
structure Store where
  tag  : Nat
  path : Path
  addr : Nat
  size : Nat
  val  : Word
  key  : Option Nat
  /-- the translation that it used; none for a window map's or a write that has none (R323) -/
  via  : Option TlbEntry
  deriving DecidableEq, Repr

/-- A matrix-file result on its way to its destination (R327): lane i's w-bit value, written under E. -/
structure Land where
  field : BitVec 12
  width : Nat
  e     : Bool
  lanes : List (Nat × Word)
  deriving DecidableEq, Repr

/-- An issued instruction that has not retired (R91, R326); one that is timed retires in the cycle it is due, like TOKS (R93). -/
structure Flight where
  tag    : Nat
  pc     : Word
  pushes : List (SeqId × Nat)
  lands  : List Land
  due    : Word
  rc     : Nat
  occ    : Nat
  timed  : Bool
  deriving DecidableEq, Repr

/-- A continuous wait: the resource (Table 4.10), CYCLE when it began, and the limit in force then (R103). -/
structure Wait where
  kind  : Nat
  id    : Word
  start : Word
  exp   : Nat
  deriving DecidableEq, Repr

/-- State that an instruction writes with a latency (R97, R99). -/
inductive Res where
  | reg (n : Nat)
  | line (op : BitVec 12) (lanes : Nat)
  | tile (op : BitVec 12) (rows cols : Nat)
  | negative
  | stream (q : Nat)
  | grid (g : Nat)
  | acc (i row cnt : Nat)
  | slot (n : Nat)
  | bank
  /-- a system register that MFP or MTP names: its holder and its number -/
  | held (holder num : Nat)
  deriving DecidableEq, Repr

/-- A producer within the reach of R99: its PC, nominal latency, the hint distance so far and what it writes. -/
structure Producer where
  pc     : Word
  lat    : Nat
  dist   : Nat
  writes : List Res
  deriving DecidableEq, Repr

/-- A request of MFP or MTP on its way: MTP or not, the instruction, which ends when it arrives, and whether LATMISS has counted it (R100, R324). -/
structure RemoteReq where
  write  : Bool
  fields : Fields
  missed : Bool
  deriving DecidableEq, Repr

/-- One sequencer (R12, R68). -/
structure Seq where
  pc      : Word
  regs    : Vector Word 32
  /-- sequencer-held system registers by number; absent reads as reset -/
  sys     : Tab Word
  run     : RunState
  /-- the event latch (R321) -/
  latch   : Bool
  wait    : Option Wait
  /-- an SMARK that has arrived and is unmatched (R244) -/
  mark    : Option Fields
  hist    : List Producer
  /-- the last instruction was a taken control transfer (R80, R99) -/
  jumped  : Bool
  queue   : List Store
  flights : List Flight
  /-- CYCLE at which the previous instruction issued, or issue restarted; none where nothing holds the next one back (R98) -/
  last    : Option Word
  /-- cycles from then on in which the previous instruction occupies CP (R126, R144, R170) -/
  occ     : Nat
  /-- delivered cycles in which the next instruction has been ready without issuing (R95) -/
  age     : Nat
  /-- a HALT has issued and waits for everything before it to retire (R82) -/
  halting : Option Fields
  /-- no hardware breakpoint matches the next instruction (R313, R316) -/
  skipBp  : Bool
  /-- XOINS is executed first (R316) -/
  xo      : Bool
  remote  : Option RemoteReq
  /-- cause 0x3F is still to be taken (R325) -/
  notice  : Bool
  deriving DecidableEq, Repr

/-! ## The engines of a core -/

/-- A context resident on a core (R345). -/
structure Ctx where
  priv      : Bool
  placement : List Nat
  lcore     : Nat
  conf      : Bool
  key       : Nat
  /-- the stack and sequence number of the scoreboard entry that made it -/
  entry     : Option (Nat × Nat)
  deriving DecidableEq, Repr

/-- A line of the L1 data cache: its physical address by 128, and which of its two sectors of 64 bytes it holds (R13). Its bytes are those of memory, with which a directory keeps it coherent (R251). -/
structure L1Line where
  line    : Nat
  sectors : BitVec 2
  deriving DecidableEq, Repr

/-- A word of the instruction cache, as the bytes it was expanded from, or marked with a fault (R28, R50, R51). -/
inductive Cached where
  | bytes (bs : List Byte)
  | marked (cause : Nat) (straddle : Bool) (addr : Word)
  deriving DecidableEq, Repr

/-- The stores of the matrix array (R171): accumulators, row buffer, the two weight banks. -/
structure MatrixStores where
  acc    : Tab W32
  elems  : Tab Byte
  scales : Tab W32
  side   : Tab W32
  bank   : Tab Byte
  index  : Tab Byte
  tile   : Tab W32
  active : Bool
  deriving DecidableEq, Repr

/-- A live loop nest (R190). -/
structure Nest where
  table   : List W32
  qa      : List W32
  qb      : List W32
  qc      : List W32
  idx     : List Nat
  row     : Nat
  slot    : Nat
  lastB   : Option Word
  /-- the effective ramp class in force when its MGO issued (R358) -/
  rc      : Nat
  paused  : Bool
  pausing : Bool
  stalled : Bool
  pc      : Word
  pushes  : List (SeqId × Nat)
  deriving DecidableEq, Repr

/-- A cue due or sent: its record and its target (R202, R203). -/
structure Cue where
  record : Word
  target : Nat
  deriving DecidableEq, Repr

/-- A beat's pass that has begun and is not promoted (R200): its beat, its start, and from the moment it has read its slot, the element pairs of each column and the two scales. Until then it keeps what each write that fell into the pass has overwritten in its slot, by the byte's offset (R207). -/
structure Beat where
  num   : Nat
  start : Word
  read  : Bool
  prior : List (Nat × Byte)
  pairs : List (List (Nat × Nat))
  sa    : Nat
  sb    : Nat
  deriving DecidableEq, Repr

/-- The running, suspended or draining reel of a core (R199 to R212). -/
structure Reel where
  elem    : Nat
  acc     : Nat
  clr     : Bool
  period  : Nat
  la      : Nat
  n       : Nat
  abortPolicy : Bool
  feeders : List Nat
  drain   : Nat
  dg      : Nat
  intv    : Nat
  klen    : Nat
  cols    : Nat
  /-- the effective ramp class of its passes -/
  rc      : Nat
  /-- nominal start of the next beat, or the next check while one is held -/
  next    : Word
  /-- checks that the held beat has missed -/
  held    : Nat
  holding : Bool
  begun   : List Beat
  /-- beats whose pass has read its slot -/
  read    : Nat
  /-- accumulator rows that are busy (R204) -/
  busy    : List Nat
  /-- beats whose fill cue has become due -/
  cued    : Nat
  due     : List Cue
  /-- cues sent and not answered -/
  out     : List Cue
  promoted : Nat
  off     : Bool
  offPushes : List (SeqId × Nat)
  draining : Bool
  /-- the cue of a partial last group has become due -/
  closed  : Bool
  suspending : Bool
  susp    : Bool
  pc      : Word
  pushes  : List (SeqId × Nat)
  deriving DecidableEq, Repr

/-- A copy-unit transfer in progress (R229). -/
inductive Copy where
  | tile (load e : Bool) (field : BitVec 12) (width rows cols : Nat) (va pitch : Word)
  | bytes (dst src : Word) (len : Nat) (remoteSrc remoteDst grid : Bool)
  | weights (stream : List W32) (va : Word) (klen cols : Nat) (scale : Option Word) (sparse bank : Bool)
  deriving DecidableEq, Repr

/-- A transfer with its place in its queue (R229, R236). -/
structure Transfer where
  tag    : Nat
  copy   : Copy
  chunk  : Nat
  pc     : Word
  pushes : List (SeqId × Nat)
  /-- waiting for a permit again at a chunk boundary (R353) -/
  paused : Bool
  pausing : Bool
  permit : Bool
  /-- stalled on a PHASE drain, already counted in PHSTALL (R233) -/
  stalled : Bool
  deriving DecidableEq, Repr

/-- A buffer ring (R281). -/
structure Buf where
  base  : Word
  size  : Nat
  count : Nat
  head  : Nat
  held  : Nat
  deriving DecidableEq, Repr

/-- What a member brings to a collective (R303). -/
structure Arrival where
  entry : Nat
  k     : Nat
  fn    : Nat
  q     : Nat
  set   : List Nat
  vlen  : Nat
  lanes : List Word
  fields : Fields
  deriving DecidableEq, Repr

/-- An entry of a stack's fault queue (Table 15.3). -/
structure FqEntry where
  cause    : Nat
  seq      : Nat
  freeze   : Bool
  straddle : Bool
  nest     : Bool
  ctx      : Nat
  core     : Nat
  ipc      : Word
  rpc      : Word
  info     : Word
  chunk    : Nat
  cycle    : Word
  deriving DecidableEq, Repr

/-- A copy freeze (R235): which queue's transfer faulted, or the nest. -/
inductive Freeze where
  | transfer (q : SeqId) (chunk : Nat)
  | nest
  deriving DecidableEq, Repr

/-- A pending pre-emption notice (R325): CYCLE at which its grace ends, and whether a YIELD has retired since it came. -/
structure Notice where
  ends    : Word
  yielded : Bool
  deriving DecidableEq, Repr

/-- One core (R13), or one die control core, whose only sequencer is kept in ld (R333). -/
structure Core where
  ctx     : Option Ctx
  seqs    : Four Seq
  /-- registers held per core or per context, by number; absent reads as reset -/
  sys     : Tab Word
  cycle   : Word
  /-- tokens and reserved places of the FIFO from f to t, at 4t + f (R89) -/
  tok     : Tab Nat
  resv    : Tab Nat
  /-- the matrix file: cell (row, col) at 128 × row + col -/
  cells   : Tab W32
  /-- the negative, top plane first; its length is NTOP -/
  neg     : List Plane
  mx      : MatrixStores
  nestTab : Tab W32
  nest    : Option Nest
  /-- CYCLE from which the array accepts a further pass (R172, R185) -/
  arrayAt : Option Word
  reel    : Option Reel
  /-- cause 0x2A still to be taken by CP, with the missed beat (R208) -/
  reelAbort : Option Nat
  cueq    : List Word
  /-- cues that this array core has sent and that have not arrived (R203) -/
  cueWay  : List Cue
  /-- records on their way back to this array core, with the core that returns each (R206) -/
  cueBack : List Cue
  /-- word j of stream register q at 16q + j -/
  streams : Tab W32
  /-- word j of grid slot g at 16g + j -/
  grids   : Tab W32
  flags   : Tab W32
  bufs    : Tab Buf
  /-- scope entries 6 to 31 that SCOPESET wrote, as LCORE numbers (R274, R291) -/
  scopes  : Tab (List Nat)
  ldq     : List Transfer
  stq     : List Transfer
  freeze  : Option Freeze
  notice  : Option Notice
  /-- issue is stopped by a pre-emption, from this CYCLE on (R326) -/
  paused  : Option Word
  /-- restored snapshot entries that have not landed (R329) -/
  snap    : List Flight
  icache  : Tab Cached
  /-- the L1 data cache, newest line last (R13) -/
  l1      : List L1Line
  /-- the scale cache: scales by virtual address, newest last (R13, R191) -/
  scales  : List (Nat × W32)
  tlb     : List TlbEntry
  clst    : Option Arrival
  clstCnt : Tab Nat
  fqWait  : List FqEntry
  /-- events on their way to a sequencer of this core (R321) -/
  events  : List SeqId
  /-- end of the active boost lease on the stack's control clock (R357) -/
  lease   : Option Nat
  deriving DecidableEq, Repr

/-! ## Above the core -/

/-- A ring of a bay's table (R277). -/
structure Ring where
  base  : Word
  slot  : Nat
  count : Nat
  head  : Nat
  take  : Nat
  tail  : Nat
  used  : Nat
  clm   : Nat
  fill  : List Nat
  claimed : List Nat
  deriving DecidableEq, Repr

/-- A PHASE drain under way (R233). -/
structure Drain where
  size   : Nat
  node   : Nat
  ends   : Word
  pushes : List (SeqId × Nat)
  deriving DecidableEq, Repr

/-- A bay: its scratchpad's size, its ring table, its second-level TLB, and who waits on its rings, in order (R18, R277, R279, R221). -/
structure Bay where
  mib   : Nat
  drain : Option Drain
  rings : Tab Ring
  tlb   : List TlbEntry
  line  : List (Nat × SeqId)
  deriving DecidableEq, Repr

/-- What a save area holds where Table 15.8 gives a place but no layout: the bytes there, the core they stand for, and its bay's rings where it is the lowest of its placement there (R330; DESIGN CHOICE, log 45). -/
structure Saved where
  bytes : List Byte
  core  : Core
  rings : Option (Tab Ring)
  deriving DecidableEq, Repr

/-- What holds or asks for a pour permit (Table 17.1). -/
inductive Holder where
  | nest | reel | collective | copy | explicit
  deriving DecidableEq, Repr

/-- A permit asked for or granted (R351, R352, R353). -/
structure Permit where
  node   : Nat
  seq    : SeqId
  holder : Holder
  weight : Nat
  /-- end of the lease on the stack's control clock, in cycles; none for a request and for a permit without lease -/
  ends   : Option Nat
  /-- of an instruction that waits at issue and has not taken it yet -/
  waiting : Bool
  /-- the transfer that a copy permit is for -/
  tag     : Nat
  deriving DecidableEq, Repr

/-- A quadrant (R351, R358, R363). -/
structure Quad where
  sys    : Tab Word
  grants : List Permit
  asks   : List Permit
  /-- the requests at the tail of asks that were made in this delivered cycle (R352) -/
  late   : Nat
  /-- the lowest core that can still arbitrate in this delivered cycle (R94, R352) -/
  turn   : Nat
  deriving DecidableEq, Repr

/-- An entry of a scoreboard (R338). -/
structure Entry where
  num     : Nat
  lstk    : Nat
  kernel  : Bool
  desc    : List W32
  root    : Word
  node    : Nat
  /-- control clock of its stack as it entered the scoreboard (R343) -/
  entered : Int
  promoted : Bool
  issued  : Bool
  failed  : Bool
  /-- it has ended, and the posted write of its completion signal has this tag (R335, R338) -/
  sent    : Option Nat
  cores   : List Nat
  chunk   : Nat
  deriving DecidableEq, Repr

/-- A domain of a stack's power arbiter: 0 to 3 a quadrant, 4 the stack (R360, R361). -/
structure Hold where
  dom  : Nat
  ends : Nat
  ask  : Bool
  deriving DecidableEq, Repr

/-- A stack (R315, R338, R343, R360). -/
structure Stack where
  sys    : Tab Word
  /-- the root latched by the last write of FQBASE (R315) -/
  fqRoot : Word
  /-- the key of the context that last wrote FQBASE, under which a PRIV slot is written (R315, R380) -/
  fqKey  : Nat
  board  : List Entry
  /-- the 1.0 GHz control clock, in cycles (R343) -/
  clock  : Nat
  /-- domains gated: 0 to 3 quadrants, 4 the stack -/
  gated  : List Nat
  holds  : List Hold
  wakes  : List Nat
  /-- control clock at which the wake in progress ends -/
  wakeAt : Nat
  /-- the lowest die control core that can still issue in this cycle (R338) -/
  turn   : Nat
  /-- control clock at which the last kernel issued (R343) -/
  launched : Option Nat
  deriving DecidableEq, Repr

/-- The partition of a virtual function, and the state of its TDI: 0 none, 1 CONFIG_LOCKED, 2 RUN, 3 ERROR (R307, R359, Table 19.2, R380). -/
structure Partition where
  tdi    : Nat
  config : VfConfig
  deriving DecidableEq, Repr

/-- What a permit event is (Table 19.3). -/
inductive PermitKind where
  | request | grant | release | expiry | timeout
  deriving DecidableEq, Repr

/-- A permit event: control-clock time, core, sequencer, weight, kind (Table 19.3). -/
structure PermitEvent where
  time   : Nat
  node   : Nat
  seq    : SeqId
  weight : Nat
  kind   : PermitKind
  deriving DecidableEq, Repr

/-- What an entry of the error log is (Table 19.3). -/
inductive ErrorKind where
  | corrected | uncorrected | repaired | retired
  deriving DecidableEq, Repr

/-- An error: control-clock time, physical address, kind; layer and syndrome are free values (Table 19.3). -/
structure ErrorEvent where
  time : Nat
  addr : Nat
  kind : ErrorKind
  deriving DecidableEq, Repr

/-- A package (R8, R334, R350, R375, R385). -/
structure Pkg where
  sys      : Tab Word
  /-- next sequence number of each logical stack (R338) -/
  seqNums  : Tab Nat
  /-- cores whose disable fuse is blown (R385) -/
  disabled : List Nat
  /-- cores whose vault has one layer retired (R377) -/
  retired  : List Nat
  /-- the source of a fatal error that has stopped the package (R382) -/
  fatal    : Option Nat
  /-- cold boots so far: the firmware image that booted belongs to the last (R379; DESIGN CHOICE, log 54) -/
  boots    : Nat
  /-- the fault-queue entries last written, oldest first, as the dump shows them (Table 19.3) -/
  fqLog    : List FqEntry
  /-- the report last returned to an SPDM requester (R379) -/
  report   : List Byte
  /-- the partition of each virtual function, 1 to 64 (R307) -/
  vfs      : Tab Partition
  /-- replays of the flit on each link that have failed in a row (R295) -/
  replays  : Tab Nat
  /-- the permit events and the errors of memory last seen, oldest first, as the dump shows them (Table 19.3) -/
  permitLog : List PermitEvent
  errorLog  : List ErrorEvent
  deriving DecidableEq, Repr

/-! ## The schedule, and the whole machine -/

/-- A page of a kernel's data: the package that maps it, or none where every package maps the one copy; its page number VA[54:16]; its frame, by address / 65536 (R396, R401). -/
structure DataPage where
  pkg   : Option Nat
  page  : Nat
  frame : Nat
  deriving DecidableEq, Repr

/-- The data of a kernel as the loader has placed it for every package of its placement (R365, R401): when it was placed, by the counter of free values; which launch of the image on the placement it is for; the image and the placement, the page number of each tier's base, the pages placed, the entries (stack, handle) that have started with it, and the packages whose entry of that launch has neither started nor failed. -/
structure Placed where
  born  : Nat
  launch : Nat
  image : List Nat
  cores : List Nat
  bases : List Nat
  pages : List DataPage
  users : List (Nat × Nat)
  due   : List Nat
  deriving DecidableEq, Repr

/-- How many entries of a package for an image on a placement of several packages have started, or failed without a start: so many launches are behind it (R347, R348, R401). -/
structure Launches where
  pkg   : Nat
  image : List Nat
  cores : List Nat
  count : Nat
  deriving DecidableEq, Repr

/-- An entry of a package that spans several, of so many cores, has ended without a start and with its image or its map unread, while no placed data waited for the package: its placement where it is known (R347, R348, R401). -/
structure Miss where
  pkg   : Nat
  size  : Nat
  cores : Option (List Nat)
  deriving DecidableEq, Repr

/-- Who moves in a turn: a core's issue arbiter, or a die control core, for one cycle, with the sequencers whose scoreboard and execution unit accept an instruction (R94); or an event. -/
inductive Act where
  | run (node : Nat) (accept : BitVec 4)
  | event (i : Instr)
  deriving DecidableEq, Repr

/-- One turn of the schedule: delivered cycles of the mover's quadrant, cycles of the control clocks, and whether what issues stays in flight. -/
structure Turn where
  act   : Act
  dt    : Nat
  ctrl  : Nat
  hold  : Bool
  deriving DecidableEq, Repr

/-- The whole machine. -/
structure State where
  cores  : Tab Core
  bays   : Tab Bay
  quads  : Tab Quad
  dies : Tab Stack
  pkgs   : Tab Pkg
  /-- the packages of the fabric domain (R10) -/
  domain : List Nat
  /-- bytes by 60-bit fabric-qualified physical address; an unlisted byte reads 0 -/
  mem    : List Host.Cell
  /-- 8-byte words that answer an uncorrectable error (R378) -/
  bad    : List Nat
  /-- 8-byte words of vaults with one symbol in error (R378) -/
  weak   : List Nat
  /-- 64 KiB rows of vaults that VAULTF has freed, by address / 65536 (R234) -/
  freed  : List Nat
  /-- 16-byte blocks written encrypted, by address / 16, with their key (R380) -/
  keyed  : Tab Nat
  /-- what CSAVE has put into save areas without a stated layout, newest first -/
  saved  : List Saved
  /-- the data of kernels, newest first (R401) -/
  placed : List Placed
  /-- the launches that are behind each package, where a placement spans several (R401) -/
  launches : List Launches
  /-- entries that ended without a start before their launch was known, eldest first (R401) -/
  missed : List Miss
  turns  : List Turn
  cur    : Nat × SeqId
  hold   : Bool
  fresh  : Nat
  nextTag : Nat
  deriving DecidableEq, Repr

/-! ## Reset -/

/-- A sequencer without a context: halted, though Table 15.4 gives SEQCTL.STATE the reset value 0 (DESIGN CHOICE, log 87); every register zero or at its reset value (R68, R345). -/
def Seq.reset : Seq :=
  { pc := 0, regs := Vector.replicate 32 0, sys := [], run := .halted, latch := false, wait := none, mark := none,
    hist := [], jumped := false, queue := [], flights := [], last := none, occ := 0, age := 0, halting := none, skipBp := false, xo := false,
    remote := none, notice := false }

/-- The array's stores with nothing written. -/
def MatrixStores.reset : MatrixStores :=
  { acc := [], elems := [], scales := [], side := [], bank := [], index := [], tile := [], active := false }

/-- A core that holds no context. -/
def Core.reset : Core :=
  { ctx := none, seqs := { ld := Seq.reset, cp := Seq.reset, st := Seq.reset, ct := Seq.reset }, sys := [], cycle := 0,
    tok := [], resv := [], cells := [], neg := [], mx := MatrixStores.reset, nestTab := [], nest := none, arrayAt := none, reel := none,
    reelAbort := none, cueq := [], cueWay := [], cueBack := [], streams := [], grids := [], flags := [], bufs := [], scopes := [], ldq := [],
    stq := [], freeze := none, notice := none, paused := none, snap := [], icache := [], l1 := [], scales := [], tlb := [],
    clst := none, clstCnt := [], fqWait := [], events := [], lease := none }

/-- A bay after a cold boot: 8 MiB, every ring as Table 13.5 resets it (R18). -/
def Bay.reset : Bay :=
  { mib := 8, drain := none, rings := [], tlb := [], line := [] }

/-- A quadrant after a cold boot. -/
def Quad.reset : Quad :=
  { sys := [], grants := [], asks := [], late := 0, turn := 0 }

/-- A stack after a cold boot. -/
def Stack.reset : Stack :=
  { sys := [], fqRoot := 0, fqKey := 0, board := [], clock := 0, gated := [], holds := [], wakes := [], wakeAt := 0, turn := 0, launched := none }

/-- A package at power-on: BOOTST.STAGE 0 (R385). -/
def Pkg.reset : Pkg :=
  { sys := [], seqNums := [], disabled := [], retired := [], fatal := none, boots := 0, fqLog := [], report := [], vfs := [],
    replays := [], permitLog := [], errorLog := [] }

/-- The machine right after reset: power-on, before stage 0 of the cold boot; no context anywhere, every die control core halted (R345, R375, R385). -/
def State.reset : State :=
  { cores := [], bays := [], quads := [], dies := [], pkgs := [], domain := [0], mem := [], bad := [], weak := [], freed := [],
    keyed := [], saved := [], placed := [], launches := [], missed := [], turns := [], cur := (0, .cp), hold := false, fresh := 0, nextTag := 0 }

end Sys2Proof.Machine
end

