-- ==== Sys2Proof/Machine/Regs.lean ====
section
/-! DEFINITION. Named access to the state: cores, sequencers and what stands above them, scalar registers, system registers as MFS reads them, the charge of R15. -/

namespace Sys2Proof.Machine

/-! ## Positions (R10) -/

/-- The key of the first die control core; a core's key is its 22-bit global identifier. -/
def dccBase : Nat := 4194304

/-- A die control core's key. -/
def dccKey (pkg stack d : Nat) : Nat := dccBase + 8 * pkg + 2 * stack + d

def isDcc (n : Nat) : Bool := decide (dccBase ≤ n)
def pkgOf (n : Nat) : Nat := if isDcc n then (n - dccBase) / 8 else n / 1024
/-- The stack's key: 4 × package + stack. -/
def stackOf (n : Nat) : Nat := if isDcc n then (n - dccBase) / 2 else n / 256
def quadOf (n : Nat) : Nat := n / 64
def bayOf (n : Nat) : Nat := n / 4

/-- The number of a sequencer (Table 1.5). -/
def seqNum (q : SeqId) : Nat :=
  match q with
  | .ld => 0
  | .cp => 1
  | .st => 2
  | .ct => 3

/-- The sequencer of a number. -/
def seqOfNum (n : Nat) : SeqId :=
  match n % 4 with
  | 0 => .ld
  | 1 => .cp
  | 2 => .st
  | _ => .ct

def allSeqs : List SeqId := [.ld, .cp, .st, .ct]

/-! ## Reaching into the state -/

def Four.get {α : Type} (f : Four α) (q : SeqId) : α :=
  match q with
  | .ld => f.ld
  | .cp => f.cp
  | .st => f.st
  | .ct => f.ct

def Four.set {α : Type} (f : Four α) (q : SeqId) (v : α) : Four α :=
  match q with
  | .ld => { f with ld := v }
  | .cp => { f with cp := v }
  | .st => { f with st := v }
  | .ct => { f with ct := v }

def State.core (s : State) (n : Nat) : Core := Tab.get s.cores n Core.reset
def State.setCore (s : State) (n : Nat) (c : Core) : State := { s with cores := Tab.put s.cores n c }
def State.modCore (s : State) (n : Nat) (f : Core → Core) : State := s.setCore n (f (s.core n))

def State.seq (s : State) (n : Nat) (q : SeqId) : Seq := (s.core n).seqs.get q
def Core.setSeq (c : Core) (q : SeqId) (v : Seq) : Core := { c with seqs := c.seqs.set q v }
def State.setSeq (s : State) (n : Nat) (q : SeqId) (v : Seq) : State := s.modCore n (fun c => c.setSeq q v)
def State.modSeq (s : State) (n : Nat) (q : SeqId) (f : Seq → Seq) : State := s.setSeq n q (f (s.seq n q))

def State.bay (s : State) (b : Nat) : Bay := Tab.get s.bays b Bay.reset
def State.setBay (s : State) (b : Nat) (v : Bay) : State := { s with bays := Tab.put s.bays b v }
def State.quad (s : State) (k : Nat) : Quad := Tab.get s.quads k Quad.reset
def State.setQuad (s : State) (k : Nat) (v : Quad) : State := { s with quads := Tab.put s.quads k v }
def State.stack (s : State) (k : Nat) : Stack := Tab.get s.dies k Stack.reset
def State.setStack (s : State) (k : Nat) (v : Stack) : State := { s with dies := Tab.put s.dies k v }
def State.pkg (s : State) (k : Nat) : Pkg := Tab.get s.pkgs k Pkg.reset
def State.setPkg (s : State) (k : Nat) (v : Pkg) : State := { s with pkgs := Tab.put s.pkgs k v }

/-- The node and the sequencer whose turn it is. -/
def State.node (s : State) : Nat := s.cur.1
def State.me (s : State) : SeqId := s.cur.2
def State.myCore (s : State) : Core := s.core s.node
def State.mySeq (s : State) : Seq := s.seq s.node s.me
def State.modMe (s : State) (f : Seq → Seq) : State := s.modSeq s.node s.me f
def State.modMyCore (s : State) (f : Core → Core) : State := s.modCore s.node f

/-! ## Free values -/

/-- The free value at the counter is spent (DESIGN CHOICE, log 2). -/
def State.spend (s : State) : State := { s with fresh := s.fresh + 1 }

/-- Spends a free value where one was used. -/
def State.useFree (s : State) (free : Bool) : State := if free then s.spend else s

/-! ## Scalar registers (R68) -/

/-- The register number in an operand field (R32). -/
def regNum (o : BitVec 12) : BitVec 5 := o.setWidth 5

def Seq.reg (q : Seq) (n : BitVec 5) : Word := q.regs[n.toNat]'(n.isLt)
def Seq.setReg (q : Seq) (n : BitVec 5) (v : Word) : Seq := { q with regs := q.regs.set n.toNat v n.isLt }

/-- s[field] of the current sequencer. -/
def State.sreg (s : State) (o : BitVec 12) : Word := s.mySeq.reg (regNum o)
/-- s[n] := v of the current sequencer. -/
def State.setReg (s : State) (n : BitVec 5) (v : Word) : State := s.modMe (fun q => q.setReg n v)

/-! ## System registers held plainly, by number -/

/-- A sequencer-held register. -/
def Seq.sysreg (q : Seq) (n : Nat) : Word := Tab.get q.sys n (regReset n)
def Seq.setSys (q : Seq) (n : Nat) (v : Word) : Seq := { q with sys := Tab.put q.sys n v }
/-- A core-held or context-held register. -/
def Core.sysreg (c : Core) (n : Nat) : Word := Tab.get c.sys n (regReset n)
def Core.setSys (c : Core) (n : Nat) (v : Word) : Core := { c with sys := Tab.put c.sys n v }
def Quad.sysreg (c : Quad) (n : Nat) : Word := Tab.get c.sys n (regReset n)
def Quad.setSys (c : Quad) (n : Nat) (v : Word) : Quad := { c with sys := Tab.put c.sys n v }
def Stack.sysreg (c : Stack) (n : Nat) : Word := Tab.get c.sys n (regReset n)
def Stack.setSys (c : Stack) (n : Nat) (v : Word) : Stack := { c with sys := Tab.put c.sys n v }
def Pkg.sysreg (c : Pkg) (n : Nat) : Word := Tab.get c.sys n (regReset n)
def Pkg.setSys (c : Pkg) (n : Nat) (v : Word) : Pkg := { c with sys := Tab.put c.sys n v }

/-- A package runs: its cold boot is complete, and no fatal error has stopped it (R375, R382). -/
def Pkg.runs (p : Pkg) : Bool := p.fatal.isNone && (p.sysreg 0x2C0).toNat % 16 == 4

/-- VLEN, ROWS, COLS, KLEN of a sequencer (R109, R178). -/
def Seq.vlen (q : Seq) : Nat := (q.sysreg 0x002).toNat
def Seq.rows (q : Seq) : Nat := (q.sysreg 0x003).toNat
def Seq.cols (q : Seq) : Nat := (q.sysreg 0x004).toNat
def Seq.klen (q : Seq) : Nat := (q.sysreg 0x005).toNat

/-- PTROOT.CTXTAG and the address of the level-0 table (R238). -/
def Core.ctxTag (c : Core) : Nat := (c.sysreg 0x2A0).toNat % 65536
def Core.root (c : Core) : Nat := ((c.sysreg 0x2A0).toNat / 65536 % 2 ^ 44) * 65536

/-- The key of the resident context (R380). -/
def Core.ctxKey (c : Core) : Nat := match c.ctx with | some x => x.key | none => 0

/-- The partition that a die control core serves: that of the virtual function which holds it (R307). -/
def State.partOf (s : State) (n : Nat) : Option Partition :=
  if isDcc n then ((s.pkg (pkgOf n)).vfs.map (fun p => p.2)).find? (fun p => p.config.dccs.contains ((n - dccBase) % 8)) else none

/-- The context is privileged (R317). A die control core's context always is. -/
def State.privileged (s : State) (n : Nat) : Bool :=
  isDcc n ||
    match (s.core n).ctx with
    | some c => c.priv
    | none => false

/-- The cores of the resident context's placement. -/
def Core.placement (c : Core) : List Nat :=
  match c.ctx with
  | some x => x.placement
  | none => []

/-- A set bit of a word as a number 0 or 1. -/
def bitNat (b : Bool) : Nat := if b then 1 else 0

/-! ## The charge of erased bits (R15, Table 3.5) -/

/-- ERASELIM.HIT is set by a charge that carries ERASEC from below LIMIT to LIMIT or above (R129). -/
def Core.charge (c : Core) (bits : Nat) : Core :=
  let e := (c.sysreg 0x041).toNat
  let l := c.sysreg 0x042
  let limit := l.toNat % 2 ^ 63
  let c1 := c.setSys 0x041 (BitVec.ofNat 64 (e + bits))
  if e < limit ∧ limit ≤ e + bits then c1.setSys 0x042 (l ||| 0x8000000000000000) else c1

/-- charge(bits) on a core: its ERASEC and its quadrant's erasure meter (R127, R363). -/
def State.charge (s : State) (n bits : Nat) : State :=
  if bits = 0 then s
  else
    let s1 := s.modCore n (fun c => c.charge bits)
    if isDcc n then s1
    else
      let q := s1.quad (quadOf n)
      s1.setQuad (quadOf n) (q.setSys 0x309 (q.sysreg 0x309 + BitVec.ofNat 64 bits))

/-! ## System registers as they are read (R86) -/

/-- TOKCNT: the count of the FIFO from f to t at bits [4(4t+f)+3 : 4(4t+f)] (Table 4.7). -/
def Core.tokcnt (c : Core) : Word :=
  BitVec.ofNat 64 ((List.range 16).foldl (fun n k => n + (Tab.get c.tok k 0) % 16 * 16 ^ k) 0)

/-- MBLK of a nest's table, 0 meaning 128 (Table 8.7). -/
def Nest.mblk (n : Nest) : Nat :=
  let w := (n.table.getD 1 0).toNat % 128
  if w = 0 then 128 else w

/-- The accumulator a nest uses (Table 8.7). -/
def Nest.acc (n : Nest) : Nat := (n.table.getD 0 0).toNat / 32768 % 2

/-- The first row of accumulator i that no nest and no reel reserves (Table 8.2). -/
def Core.accFree (c : Core) (i : Nat) : Nat :=
  match c.reel with
  | some r => if r.acc = i then 128 else (match c.nest with | some n => if n.acc = i then n.mblk else 0 | none => 0)
  | none =>
    match c.nest with
    | some n => if n.acc = i then n.mblk else 0
    | none => 0

/-- MNSTAT (Table 8.2). -/
def Core.mnstat (c : Core) : Word :=
  let live := bitNat c.nest.isSome
  let paused := match c.nest with | some n => bitNat n.paused | none => 0
  BitVec.ofNat 64 (live + 2 * paused + 8 * bitNat c.mx.active) ||| (c.sysreg 0x081 &&& 4)

/-- REELST: the stored sticky bits and GEN, with the state of the reel (Table 9.3). -/
def Core.reelst (c : Core) : Word :=
  let live :=
    match c.reel with
    | some r => 1 + 2 * bitNat r.susp + 4 * bitNat r.holding
    | none => 0
  c.sysreg 0x0D4 ||| BitVec.ofNat 64 live

/-- A moment has come. -/
def reached (cycle moment : Word) : Bool := decide ((cycle - moment).toNat < 2 ^ 63)

/-- The grace that remains of a pending notice, in units of 1,024 cycles, what remains of a unit being dropped (DESIGN CHOICE, log 95); 0 once it is over (Table 15.1, Table 15.2). -/
def Core.graceLeft (c : Core) : Nat :=
  match c.notice with
  | some k => if reached c.cycle k.ends then 0 else (k.ends - c.cycle).toNat / 1024
  | none => 0

/-- PRESTAT: a pending notice and the grace that remains, in units of 1,024 cycles (Table 15.2). -/
def Core.prestat (c : Core) : Word :=
  match c.notice with
  | some _ => BitVec.ofNat 64 (1 + c.graceLeft % 65536 * 65536)
  | none => 0

/-- Units granted in a quadrant (R351). -/
def Quad.used (q : Quad) : Nat := q.grants.foldl (fun n g => n + g.weight) 0
def Quad.budget (q : Quad) : Nat := (q.sysreg 0x301).toNat % 65536

/-- PERMITST (Table 17.6). -/
def Quad.permitst (q : Quad) : Word :=
  BitVec.ofNat 64 (q.budget + 65536 * (q.used % 65536) + 4294967296 * (min q.asks.length 255))

/-- The point at which a quadrant runs: the fastest of its assigned point and its active leases (R357). -/
def State.effPoint (s : State) (k : Nat) : Nat :=
  let assigned := ((s.quad k).sysreg 0x303).toNat % 8
  s.cores.foldl (fun m p =>
    if quadOf p.1 = k ∧ !isDcc p.1 ∧ p.2.lease.isSome then min m ((p.2.sysreg 0x306).toNat % 8) else m) assigned

/-- QOP (Table 17.6). -/
def State.qop (s : State) (k : Nat) : Word :=
  let w := (s.quad k).sysreg 0x303
  BitVec.ofNat 64 (w.toNat % 8 + 16 * s.effPoint k + 256 * (w.toNat / 256 % 8))

/-- LEASEST with the microseconds left of an active lease (Table 17.6). -/
def State.leasest (s : State) (n : Nat) : Word :=
  let c := s.core n
  let w := c.sysreg 0x306
  match c.lease with
  | some e => (w &&& 0x1F) ||| BitVec.ofNat 64 (((e - (s.stack (stackOf n)).clock) / 1000) % 65536 * 2 ^ 32)
  | none => w

/-- PWRST (Table 17.6). -/
def Stack.pwrst (k : Stack) : Word :=
  let on (d : Nat) : Nat := bitNat (!k.gated.contains d)
  let held (d : Nat) : Nat := bitNat (k.holds.any (fun h => h.dom == d))
  BitVec.ofNat 64 (on 0 + 2 * on 1 + 4 * on 2 + 8 * on 3 + 16 * on 4
    + 256 * (held 0 + 2 * held 1 + 4 * held 2 + 8 * held 3) + 65536 * (k.wakes.length % 256))

/-- A ring of a bay (R277): BASE 0, SLOT 64, COUNT 1 where nothing configured it (Table 13.5). -/
def Ring.reset : Ring :=
  { base := 0, slot := 64, count := 1, head := 0, take := 0, tail := 0, used := 0, clm := 0, fill := [], claimed := [] }
def Bay.ring (b : Bay) (e : Nat) : Ring := Tab.get b.rings e Ring.reset
def Bay.setRing (b : Bay) (e : Nat) (r : Ring) : Bay := { b with rings := Tab.put b.rings e r }

/-- A buffer ring of a core (R281). -/
def Buf.reset : Buf := { base := 0, size := 64, count := 1, head := 0, held := 0 }
def Core.buf (c : Core) (e : Nat) : Buf := Tab.get c.bufs e Buf.reset
def Core.setBuf (c : Core) (e : Nat) (b : Buf) : Core := { c with bufs := Tab.put c.bufs e b }

/-- SEQCTL.STATE (R316). -/
def runNum (r : RunState) : Nat :=
  match r with
  | .running => 0
  | .halted => 1
  | .stopped => 2

/-- A register held per sequencer, as read. The one sequencer of a die control core has number 0 (DESIGN CHOICE, log 20). -/
def State.readSeqReg (s : State) (n : Nat) (q : SeqId) (num : Nat) : Word :=
  let v := s.seq n q
  match num with
  | 0x000 => BitVec.ofNat 64 (seqNum q)
  | 0x001 => Tab.get v.sys 0x001 (BitVec.ofNat 64 (seqNum q))
  | 0x281 => BitVec.ofNat 64 (256 * runNum v.run)
  | _ => v.sysreg num

/-- Steps of a ramp class that instructions in flight still have to add (R128, R327). A read of RSTEP shows them, for CP changes it in program order (R130; DEDUCED, log 69). -/
def Core.pendingSteps (c : Core) (rc : Nat) : Nat :=
  (c.snap ++ c.seqs.cp.flights).foldl (fun a x => if x.rc = rc then a + x.occ else a) 0

/-- The bits that the fields of a coordinate, bay or quadrant register fill; the others read as zero (R6, R11; Tables 1.4, 10.9, 13.5 and 17.6). -/
def placeFields (num : Nat) : Word :=
  match num with
  | 0x011 => 3
  | 0x012 => 0xF
  | 0x013 => 3
  | 0x018 => 0x1F
  | 0x202 => 0x7FFFFFFFFFFFFF
  | 0x203 => 0x1FF00FFFFFF
  | 0x204 => 0x3FFFFFFFFFF
  | 0x300 => 7
  | 0x301 => 0xFFFFFFFFFF
  | 0x303 => 0x777
  | 0x307 => 0xFFFF
  | _ => 0xFFFFFFFFFFFFFFFF

/-- Such a register read on a die control core: a free value in its fields (DESIGN CHOICE, log 20). -/
def State.noPlace (s : State) (num : Nat) : Word := Config.noQuadrant s.fresh &&& placeFields num

/-- A register held per core or per context, as read. -/
def State.readCoreReg (s : State) (n : Nat) (q : SeqId) (num : Nat) : Word :=
  let c := s.core n
  match num with
  | 0x00A => c.cycle
  | 0x00B => c.tokcnt
  | 0x011 => if isDcc n then s.noPlace num else BitVec.ofNat 64 (n % 4)
  | 0x012 => if isDcc n then s.noPlace num else BitVec.ofNat 64 (n / 4 % 16)
  | 0x013 => if isDcc n then s.noPlace num else BitVec.ofNat 64 (n / 64 % 4)
  | 0x014 => BitVec.ofNat 64 (stackOf n % 4)
  | 0x015 => BitVec.ofNat 64 (pkgOf n)
  | 0x016 => match c.ctx with | some x => BitVec.ofNat 64 x.lcore | none => 0
  | 0x017 => BitVec.ofNat 64 (c.accFree 0 + 256 * c.accFree 1)
  | 0x018 =>
    if isDcc n then s.noPlace num
    else let b := s.bay (bayOf n); BitVec.ofNat 64 (b.mib + 16 * bitNat b.drain.isSome)
  | 0x01B => c.prestat
  | 0x040 => BitVec.ofNat 64 c.neg.length
  | 0x081 => c.mnstat
  | 0x0D4 => c.reelst
  | 0x0D8 => BitVec.ofNat 64 c.cueq.length
  | 0x209 => (c.buf ((s.seq n q).sysreg 0x208).toNat).base
  | 0x20A => let b := c.buf ((s.seq n q).sysreg 0x208).toNat; BitVec.ofNat 64 (b.size + 2 ^ 32 * b.count)
  | 0x20B => let b := c.buf ((s.seq n q).sysreg 0x208).toNat; BitVec.ofNat 64 (b.head + 256 * b.held)
  | 0x2C2 => match c.ctx with | some x => BitVec.ofNat 64 (bitNat x.conf) | none => 0
  | 0x306 => s.leasest n
  | _ =>
    if 0x100 ≤ num ∧ num < 0x200 then (Tab.get c.streams (num - 0x100) 0).setWidth 64
    else if 0x048 ≤ num ∧ num < 0x050 then c.sysreg num + BitVec.ofNat 64 (c.pendingSteps (num - 0x048))
    else c.sysreg num

/-- A register held per bay, as read through the sequencer's RNGSEL (R280). -/
def State.readBayReg (s : State) (n : Nat) (q : SeqId) (num : Nat) : Word :=
  if isDcc n then s.noPlace num
  else
    let r := (s.bay (bayOf n)).ring ((s.seq n q).sysreg 0x201).toNat
    match num with
    | 0x202 => r.base
    | 0x203 => BitVec.ofNat 64 (r.slot + 2 ^ 32 * r.count)
    | _ => BitVec.ofNat 64 (r.head + 256 * r.take + 65536 * r.tail + 2 ^ 24 * r.used + 2 ^ 33 * r.clm)

/-- EMETER: what the quadrant's estimate has gained in each cycle of the control clock since the cold boot (R363). -/
def State.emeter (s : State) (quad : Nat) : Word :=
  (List.range (s.stack (quad / 4)).clock).foldl (fun a i => a + Config.energy quad i) 0

/-- A register held per quadrant, as read. -/
def State.readQuadReg (s : State) (n num : Nat) : Word :=
  if isDcc n then s.noPlace num
  else
    match num with
    | 0x301 => (s.quad (quadOf n)).permitst
    | 0x303 => s.qop (quadOf n)
    | 0x308 => s.emeter (quadOf n)
    | _ => (s.quad (quadOf n)).sysreg num

/-- A register held per stack, as read. -/
def State.readStackReg (s : State) (n num : Nat) : Word :=
  match num with
  | 0x30A => (s.stack (stackOf n)).pwrst
  | 0x401 => BitVec.ofNat 64 (s.stack (stackOf n)).board.length
  | _ => (s.stack (stackOf n)).sysreg num

/-- A register held per package, as read. -/
def State.readPkgReg (s : State) (n num : Nat) : Word :=
  match num with
  | 0x2C0 =>
    let p := s.pkg (pkgOf n)
    (p.sysreg 0x2C0 &&& 0xFFFF) ||| BitVec.ofNat 64 (2 ^ 16 * (p.retired.length % 65536) + 2 ^ 32 * (p.disabled.length % 65536))
  | _ => (s.pkg (pkgOf n)).sysreg num

/-- A system register of node n and sequencer q as MFS and MFP read it (R86). -/
def State.readReg (s : State) (n : Nat) (q : SeqId) (num : Nat) : Word :=
  match regInfo num with
  | none => 0
  | some r =>
    match r.home with
    | .seq => s.readSeqReg n q num
    | .core => s.readCoreReg n q num
    | .bay => s.readBayReg n q num
    | .quad => s.readQuadReg n num
    | .stack => s.readStackReg n num
    | .pkg => s.readPkgReg n num

/-- Reading this register takes a free value, so the counter advances (DESIGN CHOICE, log 2). -/
def regIsFree (n num : Nat) : Bool :=
  isDcc n && (num == 0x011 || num == 0x012 || num == 0x013 || num == 0x018 ||
    match regInfo num with
    | some r => r.home == .bay || r.home == .quad
    | none => false)

end Sys2Proof.Machine
end

