-- ==== Sys2Proof/Machine/Mem.lean ====
section
/-! DEFINITION. Physical memory: the map of spaces (R214), plain bytes in canonical form, the windows into a core's stores (R216, Table 10.2), device registers, confidential blocks (R380), uncorrectable words (R378). -/

namespace Sys2Proof.Machine

/-! ## Plain bytes -/

/-- A byte of the listed memory; an unlisted one reads 0. -/
def Memory.get (m : List Host.Cell) (a : Nat) : Byte := Tab.get m a 0

/-- Sets a byte, keeping the canonical form: addresses rising, no byte of zero listed. -/
def Memory.put (m : List Host.Cell) (a : Nat) (v : Byte) : List Host.Cell := Tab.put0 0 m a v

/-- The canonical form. -/
def Memory.wf (m : List Host.Cell) : Bool := Tab.sorted m && m.all (fun p => p.2 != 0)

/-! ## The physical map -/

/-- What a fabric-qualified physical address names (Table 10.1). -/
inductive Place where
  /-- bytes of GDDR-7, a vault, a scratchpad, host memory or the pool -/
  | bytes
  /-- offset off of window w of a core -/
  | window (node w off : Nat)
  /-- an offset of space 0xE of a package -/
  | device (pkg off : Nat)
  /-- a bad physical address (R215) -/
  | bad
  deriving DecidableEq, Repr

def paPkg (pa : Nat) : Nat := pa / 2 ^ 48 % 4096
def paSpace (pa : Nat) : Nat := pa / 2 ^ 44 % 16

/-- The extent of a window (Table 10.2). -/
def windowExtent (w : Nat) : Nat :=
  match w with
  | 0 => 0x10000
  | 1 => 0x10000
  | 2 => 0x10000
  | 3 => 0x4000
  | 4 => 0x5100
  | 5 => 0x20000
  | 6 => 0x400
  | 7 => 0x70
  | 8 => 0x200
  | 9 => 0x80
  | 10 => 0x10000
  | 11 => 0x2000
  | _ => 0

/-- An access of n bytes is of a size that the window allows (Table 10.2). -/
def windowAllows (w n : Nat) : Bool :=
  match w with
  | 3 => true
  | 4 => true
  | 5 => true
  | 9 => n == 4
  | 11 => n == 8
  | _ => n == 4 || n == 8

/-- DUMPCFG and GDDRCAP of a package (R385), kept beside its registers. -/
def Pkg.dumpcfg (p : Pkg) : Word := Tab.get p.sys 0x1000 0
def Pkg.gddrcap (p : Pkg) : Nat := (Tab.get p.sys 0x1001 96).toNat

/-- Where the region reserved for the dump begins: the top 1 GiB of the installed GDDR-7, of 2 GiB or more (R382). -/
def Pkg.reserved (p : Pkg) : Option Nat := if p.gddrcap < 2 then none else some ((p.gddrcap - 1) * 2 ^ 30)

/-- The device offset lies in a die control core's range (R333): that core's number 2s + d, and the offset in its range. -/
def dccRange (off : Nat) : Option (Nat × Nat) :=
  if 0x100000 ≤ off ∧ off < 0x300000 then some ((off - 0x100000) / 0x40000, (off - 0x100000) % 0x40000) else none

/-- A named offset of space 0xE (R333, R385). -/
def deviceNamed (off : Nat) : Bool :=
  (dccRange off).isSome || decide (off < 8) || (decide (0x100 ≤ off) && decide (off < 0x180)) ||
    (decide (0x200 ≤ off) && decide (off < 0x210))

/-- The quadrant or the stack of an address is gated (R360): dom 0 to 3, or 4 the stack. -/
def State.gatedDom (s : State) (stack dom : Nat) : Bool := (s.stack stack).gated.contains dom

/-- A core stands in a gated quadrant or stack. -/
def State.gatedCore (s : State) (n : Nat) : Bool := s.gatedDom (stackOf n) (n / 64 % 4) || s.gatedDom (stackOf n) 4

/-- The place a physical address names, judged against the state as it stands (R214, R215, R360). The capacities of host memory and of the pool are the host's and the pool's to define (R17): here every address of spaces 0x4 to 0xB is within them (DESIGN CHOICE, log 82). -/
def State.place (s : State) (pa : Nat) : Place :=
  let pkg := paPkg pa
  let r := pa % 2 ^ 44
  let st := r / 2 ^ 40 % 4
  let hi := r / 2 ^ 42
  match paSpace pa with
  | 0 => if r < 2 ^ 37 ∧ r < (s.pkg pkg).gddrcap * 2 ^ 30 then .bytes else .bad
  | 1 =>
    if hi = 0 ∧ r % 2 ^ 32 < 2 ^ 27 ∧ !s.gatedDom (4 * pkg + st) 4 then .bytes else .bad
  | 2 =>
    let q := r / 2 ^ 38 % 4
    let b := r / 2 ^ 34 % 16
    let bay := 256 * pkg + 64 * st + 16 * q + b
    if hi = 0 ∧ r % 2 ^ 34 < 2 ^ 24 ∧ r % 2 ^ 24 < (s.bay bay).mib * 2 ^ 20 ∧ !s.gatedDom (4 * pkg + st) q ∧
        !s.gatedDom (4 * pkg + st) 4 then .bytes else .bad
  | 3 =>
    let q := r / 2 ^ 38 % 4
    let core := 1024 * pkg + 256 * st + r / 2 ^ 32 % 256
    let w := r / 2 ^ 24 % 256
    let off := r % 2 ^ 24
    if hi = 0 ∧ off < windowExtent w ∧ !s.gatedDom (4 * pkg + st) q ∧ !s.gatedDom (4 * pkg + st) 4 then .window core w off
    else .bad
  | 4 => .bytes
  | 5 => .bytes
  | 6 => .bytes
  | 7 => .bytes
  | 8 => .bytes
  | 9 => .bytes
  | 10 => .bytes
  | 11 => .bytes
  | 14 => if deviceNamed r then .device pkg r else .bad
  | _ => .bad

/-- The physical address of offset off of window w of a core. -/
def windowAddr (node w off : Nat) : Nat :=
  (node / 1024) * 2 ^ 48 + 3 * 2 ^ 44 + (node / 256 % 4) * 2 ^ 40 + (node % 256) * 2 ^ 32 + w * 2 ^ 24 + off

/-- The physical address of offset off of a core's vault, or of a bay's scratchpad. -/
def vaultAddr (node off : Nat) : Nat :=
  (node / 1024) * 2 ^ 48 + 1 * 2 ^ 44 + (node / 256 % 4) * 2 ^ 40 + (node % 256) * 2 ^ 32 + off
def spadAddr (bay off : Nat) : Nat :=
  (bay / 256) * 2 ^ 48 + 2 * 2 ^ 44 + (bay / 64 % 4) * 2 ^ 40 + (bay % 64) * 2 ^ 34 + off

/-- The physical address of a byte of a node's code store: window 0x05 of a core (R69), or the range of a die control core in space 0xE (R333). -/
def codeAddr (node off : Nat) : Nat :=
  if isDcc node then
    (pkgOf node) * 2 ^ 48 + 14 * 2 ^ 44 + 0x100000 + 0x40000 * ((node - dccBase) % 8) + 0x20000 + off
  else windowAddr node 5 off

/-- The core whose vault holds an address of space 0x1. -/
def vaultCore (pa : Nat) : Nat := 1024 * paPkg pa + pa / 2 ^ 32 % 1024

/-! ## The matrix file (R13, R108) -/

def Core.cell (c : Core) (k : Nat) : W32 := Tab.get c.cells k 0
def Core.setCell (c : Core) (k : Nat) (v : W32) : Core := { c with cells := Tab.put0 0 c.cells k v }

/-- The number of one bits (Table 3.5). -/
def popNat (n : Nat) : Nat := (List.range 128).foldl (fun a i => a + bitNat (n.testBit i)) 0
def pop32 (v : W32) : Nat := (List.range 32).foldl (fun a i => a + bitNat (v.getLsbD i)) 0

/-- The old bits of lane i's cell or pair. -/
def Core.laneBits (c : Core) (o : BitVec 12) (i : Nat) : Nat :=
  (laneCells o i).foldl (fun n k => n + pop32 (c.cell k)) 0

/-- Lane i of an operand as 64 bits: the cell zero-extended, or the pair, low word first (R30). -/
def Core.laneWord (c : Core) (o : BitVec 12) (i : Nat) : Word :=
  if opPair o then
    (c.cell (cellAt (opDir o) (opIndex o) i)).setWidth 64 |||
      ((c.cell (cellAt (opDir o) (opIndex o + 1) i)).setWidth 64 <<< 32)
  else (c.cell (cellAt (opDir o) (opIndex o) i)).setWidth 64

/-- Writes a 64-bit value to lane i's cell (its low word) or pair. -/
def Core.setLane (c : Core) (o : BitVec 12) (i : Nat) (v : Word) : Core :=
  if opPair o then
    (c.setCell (cellAt (opDir o) (opIndex o) i) (v.setWidth 32)).setCell (cellAt (opDir o) (opIndex o + 1) i)
      ((v >>> 32).setWidth 32)
  else c.setCell (cellAt (opDir o) (opIndex o) i) (v.setWidth 32)

/-- The low w bits of a word. -/
def lowBits (w : Nat) (v : Word) : Word := BitVec.ofNat 64 (v.toNat % 2 ^ w)

/-- Lands a result: the overwrite form writes the lane zero-extended, the XOR form changes its low w bits (R105, R108). -/
def Core.land (c : Core) (l : Land) : Core :=
  l.lanes.foldl (fun c p =>
    let v := lowBits l.width p.2
    if l.e then c.setLane l.field p.1 v else c.setLane l.field p.1 (c.laneWord l.field p.1 ^^^ v)) c

/-! ## The array's stores and the other windows -/

def accKey (i row col : Nat) : Nat := 16384 * i + 128 * row + col
def Core.accCell (c : Core) (i row col : Nat) : W32 := Tab.get c.mx.acc (accKey i row col) 0
def Core.setAcc (c : Core) (i row col : Nat) (v : W32) : Core :=
  { c with mx := { c.mx with acc := Tab.put0 0 c.mx.acc (accKey i row col) v } }

/-- Byte k of a 32-bit word. -/
def byteOf (v : W32) (k : Nat) : Byte := (v >>> (8 * k)).setWidth 8
/-- A 32-bit word with byte k replaced. -/
def setByte (v : W32) (k : Nat) (b : Byte) : W32 :=
  (v &&& ~~~((0xFF : W32) <<< (8 * k))) ||| ((b.setWidth 32) <<< (8 * k))

/-- FILL of a row-buffer slot (R171). -/
def Core.fill (c : Core) (slot : Nat) : Bool := (Tab.get c.mx.side slot 0).getLsbD 0
def Core.setFill (c : Core) (slot : Nat) (b : Bool) : Core :=
  { c with mx := { c.mx with side := Tab.put0 0 c.mx.side slot (if b then 1 else 0) } }

/-- The shadow bank's number, 0 or 1. -/
def MatrixStores.shadow (m : MatrixStores) : Nat := bitNat (!m.active)

/-- Plane j of the negative, counted from the oldest (R134). -/
def Core.plane (c : Core) (j : Nat) : Plane :=
  if j < c.neg.length then c.neg.getD (c.neg.length - 1 - j) 0 else 0

/-- A core-held register shown by window 0x0B (R217). BUFBASE, BUFCFG and BUFPTR, which the BUFSEL of a sequencer selects and a window store has none of, read zero there and ignore the store (R405; DESIGN CHOICE, log 114). -/
def windowReg (n : Nat) : Bool :=
  match regInfo n with
  | some r => r.home == .core && !(decide (0x209 ≤ n) && decide (n ≤ 0x20B)) && decide (n < 0x400)
  | none => false

/-- A byte of a window as read (Table 10.2, Table 8.1). -/
def State.windowByte (s : State) (n w off : Nat) : Byte :=
  let c := s.core n
  let word (v : W32) : Byte := byteOf v (off % 4)
  match w with
  | 0 => word (c.cell (off / 4))
  | 1 => word (c.accCell 0 (off / 512) (off % 512 / 4))
  | 2 => word (c.accCell 1 (off / 512) (off % 512 / 4))
  | 3 =>
    let slot := off / 256
    let k := off % 256
    if k < 128 then Tab.get c.mx.elems (128 * slot + k) 0
    else if k < 132 then word (Tab.get c.mx.scales slot 0)
    else if k < 136 then word (Tab.get c.mx.side slot 0)
    else 0
  | 5 => Memory.get s.mem (windowAddr n 5 off)
  | 6 => word (Tab.get c.streams (off / 4) 0)
  | 7 => word (Tab.get c.nestTab (off / 4) 0)
  | 8 => word (Tab.get c.grids (off / 4) 0)
  | 9 => word (Tab.get c.flags (off / 4) 0)
  | 10 => ((c.plane (off / 16)) >>> (8 * (off % 16))).setWidth 8
  | 11 => if windowReg (off / 8) then ((s.readReg n .ld (off / 8)) >>> (8 * (off % 8))).setWidth 8 else 0
  | _ => 0

/-- A pass that has begun and has not read its slot keeps the byte that a write takes out of it (R207). -/
def Core.keepByte (c : Core) (slot k : Nat) (old : Byte) : Core :=
  { c with reel := c.reel.map (fun r => { r with begun := r.begun.map (fun x =>
      if !x.read && x.num % 64 == slot then { x with prior := x.prior ++ [(k, old)] } else x) }) }

/-- A byte written into a window of a core, but for the matrix file and the registers. -/
def Core.windowPut (c : Core) (w off : Nat) (b : Byte) : Core :=
  match w with
  | 1 => c.setAcc 0 (off / 512) (off % 512 / 4) (setByte (c.accCell 0 (off / 512) (off % 512 / 4)) (off % 4) b)
  | 2 => c.setAcc 1 (off / 512) (off % 512 / 4) (setByte (c.accCell 1 (off / 512) (off % 512 / 4)) (off % 4) b)
  | 3 =>
    let slot := off / 256
    let k := off % 256
    if k < 128 then
      let c := c.keepByte slot k (Tab.get c.mx.elems (128 * slot + k) 0)
      { c with mx := { c.mx with elems := Tab.put0 0 c.mx.elems (128 * slot + k) b } }
    else if k < 132 then
      let c := c.keepByte slot k (byteOf (Tab.get c.mx.scales slot 0) (k % 4))
      { c with mx := { c.mx with scales := Tab.put0 0 c.mx.scales slot (setByte (Tab.get c.mx.scales slot 0) (off % 4) b) } }
    else if k = 132 ∧ c.reel.isNone then c.setFill slot (b.getLsbD 0)
    else c
  | 4 =>
    let bk := c.mx.shadow
    if off < 0x4000 then { c with mx := { c.mx with bank := Tab.put0 0 c.mx.bank (16384 * bk + off) b } }
    else if off < 0x4004 then
      { c with mx := { c.mx with tile := Tab.put0 0 c.mx.tile bk (setByte (Tab.get c.mx.tile bk 0) (off % 4) b) } }
    else if 0x4100 ≤ off then { c with mx := { c.mx with index := Tab.put0 0 c.mx.index (4096 * bk + (off - 0x4100)) b } }
    else c
  | 6 => { c with streams := Tab.put0 0 c.streams (off / 4) (setByte (Tab.get c.streams (off / 4) 0) (off % 4) b) }
  | 7 => { c with nestTab := Tab.put0 0 c.nestTab (off / 4) (setByte (Tab.get c.nestTab (off / 4) 0) (off % 4) b) }
  | 8 => { c with grids := Tab.put0 0 c.grids (off / 4) (setByte (Tab.get c.grids (off / 4) 0) (off % 4) b) }
  | 9 => { c with flags := Tab.put0 0 c.flags (off / 4) (setByte (Tab.get c.flags (off / 4) 0) (off % 4) b) }
  | _ => c

/-- The resident context is confidential (R380). -/
def Core.confidential (c : Core) : Bool :=
  match c.ctx with
  | some x => x.conf
  | none => false

/-- A core-held register written from outside: writable fields taken, RO fields ignored (R217); DEBUG of a confidential context stays 0 (R381). -/
def Core.putReg (c : Core) (num : Nat) (v : Word) : Core :=
  match regInfo num with
  | none => c
  | some r =>
    if 0x100 ≤ num ∧ num < 0x200 then { c with streams := Tab.put0 0 c.streams (num - 0x100) (v.setWidth 32) }
    else if num = 0x298 ∧ c.confidential then c
    else c.setSys num (mergeWrite r (c.sysreg num) v)

/-- Of the results of CP in flight, restored ones first, the lanes with a cell that a test names. -/
def Land.only (l : Land) (hit : Nat → Bool) : Land := { l with lanes := l.lanes.filter (fun p => (laneCells l.field p.1).any hit) }
def Land.without (l : Land) (hit : Nat → Bool) : Land := { l with lanes := l.lanes.filter (fun p => !(laneCells l.field p.1).any hit) }
def Flight.without (x : Flight) (hit : Nat → Bool) : Flight := { x with lands := x.lands.map (fun l => l.without hit) }

/-- A write from outside CP is about to reach the cells that a test names: it lands wholly after the instructions whose results for them are in flight, so those lanes land before it, in program order; every other lane stays in flight (R133). -/
def Core.landMet (c : Core) (hit : Nat → Bool) : Core :=
  let q := c.seqs.cp
  let l := c.snap ++ q.flights
  if l.any (fun x => x.lands.any (fun l => !(l.only hit).lanes.isEmpty)) then
    let c1 := l.foldl (fun c x => x.lands.foldl (fun c l => c.land (l.only hit)) c) c
    { c1.setSeq .cp { q with flights := q.flights.map (fun x => x.without hit) } with snap := c.snap.map (fun x => x.without hit) }
  else c

/-- Overwrites a cell of the matrix file from outside CP; the owner is charged the old bits (R133). -/
def State.putCell (s : State) (n k : Nat) (v : W32) : State :=
  let c := (s.core n).landMet (fun x => x == k)
  (s.setCore n (c.setCell k v)).charge n (pop32 (c.cell k))

/-! ## Bytes by physical address -/

/-- The 16 stored bytes of a block, the lowest address in the low bits. -/
def State.rawBlock (s : State) (b : Nat) : BitVec 128 :=
  BitVec.ofNat 128 ((List.range 16).foldl (fun n i => n + (Memory.get s.mem (16 * b + i)).toNat * 256 ^ i) 0)

/-- The key under which a block was written encrypted. -/
def State.blockKey (s : State) (b : Nat) : Option Nat :=
  let k := Tab.get s.keyed b 0
  if k = 0 then none else some (k - 1)

/-- A block as an access with this key, or without one, reads it (R380). -/
def State.viewBlock (s : State) (key : Option Nat) (b : Nat) : BitVec 128 :=
  let stored := s.rawBlock b
  let bits := match s.blockKey b with
    | some k => (Config.xts k b).toFun stored
    | none => stored
  match key with
  | none => bits
  | some k => if s.blockKey b = some k then stored else (Config.xts k b).invFun bits

/-- A byte of plain memory as an access with this key reads it. It is one byte for each whole address, the package's number among its bits: a pool or host address in the space of another package is another byte (R309; DESIGN CHOICE, log 108). -/
def State.plainByte (s : State) (key : Option Nat) (pa : Nat) : Byte :=
  if key = none ∧ s.blockKey (pa / 16) = none then Memory.get s.mem pa
  else ((s.viewBlock key (pa / 16)) >>> (8 * (pa % 16))).setWidth 8

/-- Makes a block hold its bytes as an access with this key reads them, before a write under it. -/
def State.rekey (s : State) (key : Option Nat) (b : Nat) : State :=
  if s.blockKey b = key then s
  else
    let v := s.viewBlock key b
    let m := (List.range 16).foldl (fun m i => Memory.put m (16 * b + i) ((v >>> (8 * i)).setWidth 8)) s.mem
    { s with mem := m, keyed := Tab.put0 0 s.keyed b (match key with | some k => k + 1 | none => 0) }

/-- A byte of space 0xE as read. -/
def State.deviceByte (s : State) (pkg off : Nat) : Byte :=
  let p := s.pkg pkg
  match dccRange off with
  | some (d, o) =>
    if o < 8 then (((s.core (dccBase + 8 * pkg + d)).sysreg 0x400) >>> (8 * o)).setWidth 8
    else if 0x20000 ≤ o then Memory.get s.mem (pkg * 2 ^ 48 + 14 * 2 ^ 44 + off)
    else 0
  | none =>
    if off < 8 then ((s.readPkgReg (1024 * pkg) 0x2C0) >>> (8 * off)).setWidth 8
    else if off < 0x180 then
      BitVec.ofNat 8 ((List.range 8).foldl (fun n i => n + 2 ^ i * bitNat (p.disabled.contains (8 * (off - 0x100) + i))) 0)
    else if off < 0x208 then (p.dumpcfg >>> (8 * (off - 0x200))).setWidth 8
    else BitVec.ofNat 8 (p.gddrcap / 256 ^ (off - 0x208) % 256)

/-- The byte at a physical address, as an access with this key reads it. -/
def State.physByte (s : State) (key : Option Nat) (pa : Nat) : Byte :=
  match s.place pa with
  | .bytes => s.plainByte key pa
  | .window n w off => s.windowByte n w off
  | .device p off => s.deviceByte p off
  | .bad => 0

/-- n bytes from an address, little-endian (R84). -/
def State.physRead (s : State) (key : Option Nat) (pa n : Nat) : Nat :=
  (List.range n).foldl (fun v i => v + (s.physByte key (pa + i)).toNat * 256 ^ i) 0

/-- Byte k of a value. -/
def valByte (v : Word) (k : Nat) : Byte := (v >>> (8 * k)).setWidth 8

/-- The context of a die control core: privileged, with a key of its own (R333, R380). -/
def dccCtx (key : Nat) : Ctx :=
  { priv := true, placement := [], lcore := 0, conf := false, key := key, entry := none }

/-- A mailbox write from outside: PC and PEND, and the event latch; a halted core restarts at PC (R321, R333); nothing where the package does not run (R375, R382). A core stopped on a fault counts as running, and is not restarted (DESIGN CHOICE, log 111). -/
def State.mailbox (s : State) (n : Nat) (v : Word) : State :=
  if !(s.pkg (pkgOf n)).runs then s else
  let c := s.core n
  let box := (v &&& 0xFFFFFFFFFFFFFFFE) ||| 1
  let q : Seq := { c.seqs.ld with latch := true }
  let q1 := if q.run = .halted then
      { q with pc := box &&& 0xFFFFFFFFFFFFFFFE, run := .running, wait := none, hist := [], jumped := false, last := some c.cycle, age := 0 }
    else q
  let c1 := c.setSys 0x400 box
  let c2 := if c1.ctx.isNone then { c1 with ctx := some (dccCtx (s.nextTag + 1)) } else c1
  { s.setCore n (c2.setSeq .ld q1) with nextTag := s.nextTag + 1 }

/-- The bytes of a word already known, with those of a write laid over it: a register of 8 bytes. -/
def overlay (old : Word) (off size : Nat) (v : Word) : Word :=
  (List.range 8).foldl (fun w i =>
    let b := if off ≤ i ∧ i < off + size then valByte v (i - off) else valByte old i
    w ||| ((b.setWidth 64) <<< (8 * i))) 0

/-- A write into space 0xE. -/
def State.deviceWrite (s : State) (pkg off size : Nat) (v : Word) : State :=
  match dccRange off with
  | some (d, o) =>
    if o < 8 then s.mailbox (dccBase + 8 * pkg + d) (overlay 0 o size v)
    else if 0x20000 ≤ o then
      { s with mem := (List.range size).foldl (fun m i => Memory.put m (pkg * 2 ^ 48 + 14 * 2 ^ 44 + off + i) (valByte v i)) s.mem }
    else s
  | none =>
    if 0x200 ≤ off ∧ off < 0x208 then
      let p := s.pkg pkg
      let w := overlay p.dumpcfg (off - 0x200) size v &&& 0xFFFFFFFFFFFFF001
      s.setPkg pkg { p with sys := Tab.put p.sys 0x1000 w }
    else s

/-- A write into a window (R217): matrix-file cells are overwritten and charged, registers obey their Access column. -/
def State.windowWrite (s : State) (n w off size : Nat) (v : Word) : State :=
  match w with
  | 0 => (List.range (size / 4)).foldl (fun s i => s.putCell n (off / 4 + i) ((v >>> (32 * i)).setWidth 32)) s
  | 5 => { s with mem := (List.range size).foldl (fun m i => Memory.put m (windowAddr n 5 (off + i)) (valByte v i)) s.mem }
  | 10 => s
  | 11 => if windowReg (off / 8) then s.modCore n (fun c => c.putReg (off / 8) v) else s
  | _ => s.modCore n (fun c => (List.range size).foldl (fun c i => c.windowPut w (off + i) (valByte v i)) c)

/-! ## Errors of memory (R378, Table 19.3) -/

/-- The 8-byte word b meets n bytes at an address. -/
def wordMeets (pa n b : Nat) : Bool := decide (8 * b < pa + n) && decide (pa < 8 * b + 8)

/-- The vault that holds an address has one layer retired, so that a symbol in error can no longer be corrected. -/
def State.layerRetired (s : State) (pa : Nat) : Bool := (s.pkg (paPkg pa)).retired.contains (vaultCore pa % 1024)

/-- A word of n bytes at an address answers an uncorrectable error: two symbols in error, or one beside a retired layer. -/
def State.isBad (s : State) (pa n : Nat) : Bool :=
  s.bad.any (wordMeets pa n) || s.weak.any (fun b => wordMeets pa n b && s.layerRetired (8 * b))

/-- An entry joins a package's error log, which keeps the newest 31,744. -/
def State.logError (s : State) (pa : Nat) (kind : ErrorKind) : State :=
  let k := paPkg pa
  let p := s.pkg k
  let time := (s.stack (4 * k + pa / 2 ^ 40 % 4)).clock
  let e : ErrorEvent := { time := time, addr := pa, kind := kind }
  s.setPkg k { p with errorLog := (p.errorLog ++ [e]).drop (p.errorLog.length + 1 - 31744) }

/-- A symbol is corrected: VLTCOR of the vault's stack counts it, and the error log notes it. -/
def State.correct (s : State) (b : Nat) : State :=
  let k := stackOf (vaultCore (8 * b))
  let v := s.stack k
  (s.setStack k (v.setSys 0x2C1 (v.sysreg 0x2C1 + 1))).logError (8 * b) .corrected

/-- The words with one symbol in error, no layer of their vault retired, that n bytes at an address meet. -/
def State.symbolsIn (s : State) (pa n : Nat) : List Nat := s.weak.filter (fun b => wordMeets pa n b && !s.layerRetired (8 * b))

/-- A read of n bytes corrects each word it meets that has one symbol in error; the word stays as it is. -/
def State.readNote (s : State) (pa n : Nat) : State :=
  (s.symbolsIn pa n).foldl State.correct s

/-- Words that a write covers whole hold valid codewords again. -/
def State.heal (s : State) (pa n : Nat) : State :=
  let keeps (b : Nat) : Bool := !(decide (pa ≤ 8 * b) && decide (8 * b + 8 ≤ pa + n))
  { s with bad := s.bad.filter keeps, weak := s.weak.filter keeps }

/-- A write of n bytes: a word that it covers becomes valid, and one symbol in error of a word that it merges into is corrected. -/
def State.writeNote (s : State) (pa n : Nat) : State :=
  let t := (s.heal pa n).readNote pa n
  { t with weak := t.weak.filter (fun b => !wordMeets pa n b || t.layerRetired (8 * b)) }

/-- Performs a write of size bytes at a physical address (R239). -/
def State.physWrite (s : State) (key : Option Nat) (pa size : Nat) (v : Word) : State :=
  match s.place pa with
  | .bytes =>
    let s1 := if key = none ∧ s.blockKey (pa / 16) = none then s else s.rekey key (pa / 16)
    let s2 := { s1 with mem := (List.range size).foldl (fun m i => Memory.put m (pa + i) (valByte v i)) s1.mem }
    if s2.bad.isEmpty && s2.weak.isEmpty then s2 else s2.writeNote pa size
  | .window n w off => s.windowWrite n w off size v
  | .device p off => s.deviceWrite p off size v
  | .bad => s

/-- A queued write is performed. -/
def State.performStore (s : State) (st : Store) : State := s.physWrite st.key st.addr st.size st.val

/-- A byte range touches a vault row that VAULTF has freed (R234). -/
def State.isFreed (s : State) (pa : Nat) : Bool :=
  paSpace pa == 1 && s.freed.contains (pa / 65536)

end Sys2Proof.Machine
end

