-- ==== Sys2Proof/Machine/Trans.lean ====
section
/-! DEFINITION. Translation (R219 to R221), the checks of one access in the order of R216 and R226, loads, and the writes an instruction queues. -/

namespace Sys2Proof.Machine

/-! ## The walk -/

/-- What a walk answers: the base of the page or block, its size as a power of two, and R, W, X, C, GRID, PRIV from the low bit up (Table 10.3). -/
structure Xlat where
  base  : Nat
  shift : Nat
  perm  : BitVec 6
  deriving DecidableEq, Repr

def Xlat.r (x : Xlat) : Bool := x.perm.getLsbD 0
def Xlat.w (x : Xlat) : Bool := x.perm.getLsbD 1
def Xlat.x (x : Xlat) : Bool := x.perm.getLsbD 2
def Xlat.c (x : Xlat) : Bool := x.perm.getLsbD 3
def Xlat.grid (x : Xlat) : Bool := x.perm.getLsbD 4
def Xlat.priv (x : Xlat) : Bool := x.perm.getLsbD 5
def Xlat.addr (x : Xlat) (va : Word) : Nat := x.base + va.toNat % 2 ^ x.shift

/-- A table entry is valid and its reserved bits are zero (R220). -/
def entryValid (e : Nat) : Bool :=
  e % 2 == 1 && e / 256 % 256 == 0 && e / 2 ^ 60 == 0

/-- Spaces that hold encrypted pages (R220). -/
def privSpace (sp : Nat) : Bool := sp == 0 || (decide (4 ≤ sp) && decide (sp ≤ 11))

/-- One level of tables after another, by the shifts of their indexes; an entry that answers an uncorrectable error gives none (R219, R220, R378). -/
def State.walk (s : State) (shifts : List Nat) (table va : Nat) : Option Xlat :=
  match shifts with
  | [] => none
  | sh :: rest =>
    let e := s.physRead none (table + 8 * (va / 2 ^ sh % 8192)) 8
    let pa := e / 65536 % 2 ^ 44 * 65536
    if s.isBad (table + 8 * (va / 2 ^ sh % 8192)) 8 ∨ !entryValid e then none
    else if e / 2 % 2 = 1 then (if rest.isEmpty then none else State.walk s rest pa va)
    else if pa % 2 ^ sh ≠ 0 then none
    else if e / 128 % 2 = 1 ∧ !privSpace (paSpace pa) then none
    else some { base := pa, shift := sh, perm := BitVec.ofNat 6 (e / 4 % 64) }

/-- The addresses of the entries that a walk reads, up to the one that ends it. -/
def State.walkWords (s : State) (shifts : List Nat) (table va : Nat) : List Nat :=
  match shifts with
  | [] => []
  | sh :: rest =>
    let a := table + 8 * (va / 2 ^ sh % 8192)
    let e := s.physRead none a 8
    a :: (if !s.isBad a 8 && entryValid e && e / 2 % 2 == 1 then State.walkWords s rest (e / 65536 % 2 ^ 44 * 65536) va else [])

/-- A TLB entry serves an address of its context (R221). -/
def TlbEntry.covers (t : TlbEntry) (tag : Nat) (va : Word) : Bool :=
  t.tag == tag && va.toNat / 2 ^ t.level == t.vpage

/-- The window map of a context that the stream controller created (R393): windows 0x00 to 0x09 of the cores of its placement, by LCORE, from address 2^54 on; nothing else with bit 54 set is mapped. -/
def windowMap (placement : List Nat) (va : Nat) : Option Xlat :=
  let j := (va - 2 ^ 54) / 2 ^ 32
  let w := va / 2 ^ 24 % 256
  match placement[j]? with
  | none => none
  | some n => if w ≤ 9 then some { base := windowAddr n w (va % 2 ^ 24 / 65536 * 65536), shift := 16, perm := if w = 4 then 2 else 3 } else none

/-- An address of a node's window map. -/
def Core.windowed (c : Core) (va : Word) : Bool :=
  decide (2 ^ 54 ≤ va.toNat) && (match c.ctx with | some x => x.entry.isSome | none => false)

/-- The entry of the core's or the bay's TLB that serves an address in the context of a node (R221). -/
def State.cached (s : State) (n : Nat) (va : Word) : Option TlbEntry :=
  ((s.core n).tlb ++ (if isDcc n then [] else (s.bay (bayOf n)).tlb)).find? (fun t => t.covers (s.core n).ctxTag va)

/-- The translation of a virtual address in the context of a node: a cached entry of the core's or the bay's TLB, or a walk; none is cause 0x10 but for what R215 adds. -/
def State.xlate (s : State) (n : Nat) (va : Word) : Option Xlat :=
  let c := s.core n
  if va.toNat / 2 ^ 55 ≠ 0 then none
  else if c.windowed va then windowMap c.placement va.toNat
  else
    match s.cached n va with
    | some t => some { base := t.ppage * 2 ^ t.level, shift := t.level, perm := t.perm }
    | none => s.walk [42, 29, 16] c.root va.toNat

/-- The addresses of the table entries that the translation of a virtual address reads; none where no walk is needed. -/
def State.tableWords (s : State) (n : Nat) (va : Word) : List Nat :=
  if va.toNat / 2 ^ 55 ≠ 0 ∨ (s.core n).windowed va ∨ (s.cached n va).isSome then []
  else s.walkWords [42, 29, 16] (s.core n).root va.toNat

/-- A table entry that answers an uncorrectable error, met by the translation of a virtual address (R378). -/
def State.tableLost (s : State) (n : Nat) (va : Word) : Option Nat := (s.tableWords n va).find? (fun a => s.isBad a 8)

/-! ## Reach -/

/-- The core is one the context of node n may reach: a core of its placement, or of a die control core's partition (R216, R321, R324). -/
def State.reaches (s : State) (n target : Nat) : Bool :=
  let c := s.core n
  if isDcc n then
    !isDcc target && pkgOf target == pkgOf n &&
      (match s.partOf n with
       | none => true
       | some p => p.config.quads.contains (quadOf target))
  else c.placement.contains target

/-! ## One access -/

/-- What an access wants: to read, to write, to fetch; whether it may write GRID pages and use other packages (R220), whether its write covers the whole 8-byte word with the other writes of its chunk (R378), and whether it reads the whole 128-byte line (R271). -/
structure Want where
  r    : Bool := false
  w    : Bool := false
  x    : Bool := false
  grid : Bool := false
  far  : Bool := false
  cover : Bool := false
  line : Bool := false
  deriving DecidableEq, Repr

def Want.load : Want := { r := true }
def Want.store : Want := { w := true }
/-- An atomic: read and write, GRID pages and other packages allowed (R220, R286). -/
def Want.atomic : Want := { r := true, w := true, grid := true, far := true }

/-- A privileged-only or one-way place refuses the access with cause 0x11 (R215, Table 10.2, R381). -/
def State.placeDenied (s : State) (n : Nat) (want : Want) (p : Place) : Bool :=
  match p with
  | .device _ _ => !s.privileged n
  | .window _ 4 _ => want.r
  | .window owner 10 _ => want.w || !s.privileged n || (s.core owner).confidential
  | .window _ 11 _ => !s.privileged n
  | _ => false

/-- A package cannot be reached from node n: it is outside the domain, or every link of it or of n's package is down (R294, R295; DEDUCED, log 65). -/
def State.unreachable (s : State) (n pkg : Nat) : Bool :=
  pkg != pkgOf n && (!s.domain.contains pkg || (s.pkg pkg).sysreg 0x243 == 0 || (s.pkg (pkgOf n)).sysreg 0x243 == 0)

/-- Check 6 of R216 and what R294 adds: a write to a GRID page, a place that no route reaches, an uncorrectable error (R220, R378). -/
def State.lateFault (s : State) (want : Want) (x : Xlat) (pa size : Nat) (lost : Bool) : Option (Nat × Nat) :=
  if want.w && x.grid && !want.grid then some (6, 0x14)
  else if lost then some (8, 0x18)
  else if want.r && s.isBad (if want.line then pa / 128 * 128 else pa) (if want.line then 128 else size) then some (7, 0x18)
  else if want.w && size != 8 && !want.cover && paSpace pa == 1 && s.isBad pa size then some (7, 0x18)
  else none

/-- The first check that fails for an access of size bytes, as (its place in the order of R216, cause). -/
def State.accessFault (s : State) (n : Nat) (want : Want) (va : Word) (size : Nat) : Option (Nat × Nat) :=
  if va.toNat % size ≠ 0 then some (1, 0x12)
  else
    match s.xlate n va with
    | none => if (s.tableLost n va).isSome then some (7, 0x18) else some (2, 0x10)
    | some x =>
      let pa := x.addr va
      let far := paPkg pa != pkgOf n
      let lost := s.unreachable n (paPkg pa)
      let p := s.place pa
      if p = .bad ∧ !lost then some (2, 0x10)
      else if (want.r && !x.r) || (want.w && !x.w) || (want.x && !x.x) || (far && !want.far) ||
          s.placeDenied n want p || s.isFreed pa then some (3, 0x11)
      else
        match p with
        | .window owner w _ =>
          if !windowAllows w size then some (4, 0x12)
          else if !s.reaches n owner then some (5, 0x13)
          else s.lateFault want x pa size lost
        | _ => s.lateFault want x pa size lost

/-- The first fault of several accesses: checks in order, and for each check the accesses in order (R226). -/
def firstFault (l : List (Word × Option (Nat × Nat))) : Option (Nat × Word) :=
  let hits := l.filterMap (fun p => match p.2 with | some (st, c) => some (st, c, p.1) | none => none)
  match hits with
  | [] => none
  | h :: t =>
    let best := t.foldl (fun m x => if x.1 < m.1 then x else m) h
    some (best.2.1, best.2.2)

/-- UFADDR of a fault: the virtual address, but the fabric-qualified address of a reachable-nowhere place (R294). -/
def State.faultAddr (s : State) (n : Nat) (va : Word) (f : Option (Nat × Nat)) : Word :=
  match f, s.xlate n va with
  | some (8, _), some x => BitVec.ofNat 64 (x.addr va)
  | _, _ => va

/-- The first fault of a list of addresses, each accessed with size bytes. -/
def State.lanesFault (s : State) (n : Nat) (want : Want) (size : Nat) (vas : List Word) : Option (Nat × Word) :=
  firstFault (vas.map (fun va =>
    let f := s.accessFault n want va size
    (s.faultAddr n va f, f)))

/-- The addresses of cnt units of size bytes from va. -/
def units (va : Word) (size cnt : Nat) : List Word :=
  (List.range cnt).map (fun i => va + BitVec.ofNat 64 (size * i))

/-! ## The drain of a PHASE (R233) -/

/-- An access that meets the scratchpad range a drain moves stalls until the drain ends. -/
def State.drainHit (s : State) (pa : Nat) : Bool :=
  if paSpace pa = 2 then
    let bay := 256 * paPkg pa + 64 * (pa / 2 ^ 40 % 4) + pa / 2 ^ 34 % 64
    let b := s.bay bay
    match b.drain with
    | none => false
    | some d => decide (min b.mib d.size * 2 ^ 20 ≤ pa % 2 ^ 24) && decide (pa % 2 ^ 24 < max b.mib d.size * 2 ^ 20)
  else false

/-- How many of these addresses stall on a drain. -/
def State.drainStalls (s : State) (n : Nat) (vas : List Word) : Nat :=
  (vas.filter (fun va => match s.xlate n va with | some x => s.drainHit (x.addr va) | none => false)).length

/-! ## Loads and stores -/

/-- The key an access through a translation uses: the context's on a PRIV page (R380). -/
def State.keyFor (s : State) (n : Nat) (x : Xlat) : Option Nat :=
  if x.priv then some (s.core n).ctxKey else none

/-- The size bytes at a virtual address, little-endian; 0 where nothing translates. -/
def State.load (s : State) (n : Nat) (va : Word) (size : Nat) : Nat :=
  match s.xlate n va with
  | none => 0
  | some x => s.physRead (s.keyFor n x) (x.addr va) size

/-- The path class of a write to an address (R241). -/
def pathOf (n pa : Nat) : Path :=
  if paSpace pa = 1 ∧ vaultCore pa = n then .vertical else .horizontal

/-- A translation as a TLB entry of a tag keeps it (R221). -/
def Xlat.entry (x : Xlat) (tag : Nat) (va : Word) : TlbEntry :=
  { tag := tag, vpage := va.toNat / 2 ^ x.shift, ppage := x.base / 2 ^ x.shift, perm := x.perm, level := x.shift }

/-- The write of size bytes at a virtual address, ready to be queued or performed. -/
def State.mkStore (s : State) (n : Nat) (va : Word) (size : Nat) (v : Word) : List Store :=
  match s.xlate n va with
  | none => []
  | some x =>
    let pa := x.addr va
    [{ tag := 0, path := pathOf n pa, addr := pa, size := size, val := v, key := s.keyFor n x,
       via := if (s.core n).windowed va then none else some (x.entry (s.core n).ctxTag va) }]

/-- Performs writes in order. -/
def State.performAll (s : State) (l : List Store) : State := l.foldl State.performStore s

/-- Performs every queued write of a sequencer, oldest first. -/
def State.drainQueue (s : State) (n : Nat) (q : SeqId) : State :=
  let l := (s.seq n q).queue
  let s1 := s.modSeq n q (fun v => { v with queue := [] })
  s1.performAll l

/-- Pages among these addresses that no entry of the core's own TLB serves: its TLB misses (R221, TLBMISS; DEDUCED, log 21). -/
def State.misses (s : State) (n : Nat) (vas : List Word) : Nat :=
  let c := s.core n
  ((vas.filter (fun va => decide (va.toNat / 2 ^ 55 = 0) && !(c.tlb.any (fun t => t.covers c.ctxTag va)))).map
    (fun va => va.toNat / 65536)).eraseDups.length

/-- Adds to TLBMISS. -/
def State.countMisses (s : State) (n : Nat) (vas : List Word) : State :=
  if s.misses n vas = 0 then s
  else s.modCore n (fun c => c.setSys 0x341 (c.sysreg 0x341 + BitVec.ofNat 64 (s.misses n vas)))

/-- The table entries that the translations of these addresses read and that have one symbol in error, each once, as 8-byte words (R378). -/
def State.tablesRead (s : State) (n : Nat) (vas : List Word) : List Nat :=
  ((vas.flatMap (s.tableWords n)).flatMap (fun a => s.symbolsIn a 8)).eraseDups

/-- The 8-byte words with one symbol in error that reads of size bytes at these addresses meet, with those of their translations, each once. -/
def State.wordsRead (s : State) (n size : Nat) (vas : List Word) : List Nat :=
  ((vas.filterMap (fun va => (s.xlate n va).map (fun x => x.addr va))).flatMap (fun pa => s.symbolsIn pa size) ++ s.tablesRead n vas).eraseDups

/-- What allowed accesses leave beside their data: TLBMISS (R221), and the symbols corrected in the tables and, where they read, in what they read (R378). -/
def State.noteAccess (s : State) (n : Nat) (read : Bool) (size : Nat) (vas : List Word) : State :=
  let t := s.countMisses n vas
  if t.weak.isEmpty then t else (if read then t.wordsRead n size vas else t.tablesRead n vas).foldl State.correct t

/-! ## The L1 data cache (R13, R251, R301) -/

/-- Lines of the spaces that an L1 caches: GDDR-7, vaults, host memory and the pool (R251). -/
def cachedSpace (sp : Nat) : Bool := sp == 0 || sp == 1 || (decide (4 ≤ sp) && decide (sp ≤ 0xB))

/-- The physical address of an access that the core's L1 serves: one through a page with C = 1 to a cached space of the own package (R220, R251, R301). -/
def State.cachedAddr (s : State) (n : Nat) (va : Word) : Option Nat :=
  (s.xlate n va).bind (fun x => if x.c && cachedSpace (paSpace (x.addr va)) && paPkg (x.addr va) == pkgOf n then some (x.addr va) else none)

/-- The cache holds the sector of a physical address. -/
def Core.holdsSector (c : Core) (pa : Nat) : Bool := c.l1.any (fun x => x.line == pa / 128 && x.sectors.getLsbD (pa / 64 % 2))

/-- The sector of a physical address is in the cache: in its line, or in a new one, for which a full set of eight lines, of 128 such sets, gives up its oldest (R13; DESIGN CHOICE, log 112). -/
def Core.fillSector (c : Core) (pa : Nat) : Core :=
  let bit : BitVec 2 := BitVec.ofNat 2 (2 ^ (pa / 64 % 2))
  let mine (x : L1Line) : Bool := x.line % 128 == pa / 128 % 128
  if c.l1.any (fun x => x.line == pa / 128) then
    { c with l1 := c.l1.map (fun x => if x.line = pa / 128 then { x with sectors := x.sectors ||| bit } else x) }
  else
    let l := if (c.l1.filter mine).length < 8 then c.l1 else c.l1.eraseP mine
    { c with l1 := l ++ [{ line := pa / 128, sectors := bit }] }

/-- Physical addresses, one for each sector that these accesses need and the core's L1 does not hold. -/
def State.l1Misses (s : State) (n : Nat) (vas : List Word) : List Nat :=
  ((vas.filterMap (s.cachedAddr n)).map (fun pa => pa / 64 * 64)).eraseDups.filter (fun pa => !(s.core n).holdsSector pa)

/-- The sectors that reads at these addresses need come into the core's L1; a write brings none (DESIGN CHOICE, log 112). -/
def State.fillL1 (s : State) (n : Nat) (read : Bool) (vas : List Word) : State :=
  if read && !(s.l1Misses n vas).isEmpty then s.modCore n (fun c => (s.l1Misses n vas).foldl Core.fillSector c) else s

/-- What allowed accesses to data leave beside their data: the sectors that reads bring into L1, TLBMISS, and the symbols corrected (R13, R221, R378). -/
def State.noteData (s : State) (n : Nat) (read : Bool) (size : Nat) (vas : List Word) : State :=
  (s.fillL1 n read vas).noteAccess n read size vas

/-- A core of a package, but for one, gives up the line of a physical address. -/
def State.dropLine (s : State) (pkg keep pa : Nat) : State :=
  let drops (p : Nat × Core) : Bool := pkgOf p.1 == pkg && p.1 != keep && p.2.l1.any (fun x => x.line == pa / 128)
  if s.cores.any drops then
    { s with cores := s.cores.map (fun p => if drops p then (p.1, { p.2 with l1 := p.2.l1.filter (fun x => x.line != pa / 128) }) else p) }
  else s

/-- The line of an atomic's location in GDDR-7 or a vault: an atomic on another package's takes it from every L1 there (R300), and one in the own L1, through a page with C = 1, from every other L1 of the package (R288, Table 13.7). -/
def State.takeLine (s : State) (n : Nat) (va : Word) : State :=
  match s.xlate n va with
  | none => s
  | some x =>
    let pa := x.addr va
    if 2 ≤ paSpace pa then s
    else if paPkg pa ≠ pkgOf n then s.dropLine (paPkg pa) n pa
    else if x.c then s.dropLine (pkgOf n) n pa
    else s

/-- A queued write meets one of these accesses of size bytes. -/
def State.meetsQueue (s : State) (n : Nat) (q : SeqId) (size : Nat) (vas : List Word) : Bool :=
  (s.seq n q).queue.any (fun st => vas.any (fun va =>
    match s.xlate n va with
    | some x => decide (st.addr < x.addr va + size) && decide (x.addr va < st.addr + st.size)
    | none => false))

/-- Performs the queued writes of the path classes of a mask, oldest first. -/
def State.drainPaths (s : State) (n : Nat) (q : SeqId) (v h : Bool) : State :=
  let hit (st : Store) : Bool := match st.path with | .vertical => v | .horizontal => h
  let l := (s.seq n q).queue.filter hit
  (s.modSeq n q (fun k => { k with queue := k.queue.filter (fun st => !hit st) })).performAll l

/-- The path classes of writes to these addresses: vertical, horizontal (R241). -/
def State.pathsOf (s : State) (n : Nat) (vas : List Word) : Bool × Bool :=
  let l := vas.filterMap (fun va => (s.xlate n va).map (fun x => pathOf n (x.addr va)))
  (l.contains .vertical, l.contains .horizontal)

/-- Before an atomic, which is a write of its path class: the older writes of that class are performed, those of the other need not be (R242, R250). -/
def State.behindWrites (s : State) (n : Nat) (q : SeqId) (vas : List Word) : State :=
  s.drainPaths n q (s.pathsOf n vas).1 (s.pathsOf n vas).2

/-- Before a read: older writes of the same queue to the same bytes are performed (R240). -/
def State.behind (s : State) (n : Nat) (q : SeqId) (size : Nat) (vas : List Word) : State :=
  if s.meetsQueue n q size vas then s.drainQueue n q else s

end Sys2Proof.Machine
end

