-- ==== Sys2Proof/Machine/Operands.lean ====
section
/-! DEFINITION. Operand forms: immediates, scalar and matrix-file sources, element types, and the state an instruction reads or writes for the scoreboard (R97, R99). -/

namespace Sys2Proof.Machine

/-! ## Immediates and addresses -/

/-- X sign-extended from bit 23 (R71, R72). -/
def immX (f : Fields) : Word := f.x.signExtend 64

/-- The length of the instruction in bytes. -/
def instrLen (f : Fields) : Word := BitVec.ofNat 64 f.form.len

/-- A PC-relative target: PC + 2 × off (R76). -/
def State.target (s : State) (off : Word) : Word := s.mySeq.pc + (off <<< 1)

/-- s[A] + X, the address of a scalar access (R84). -/
def State.baseOff (s : State) (f : Fields) : Word := s.sreg f.a + immX f

/-! ## Elements -/

/-- Lane i of a source operand as w bits: a cell's low bits, a pair, or the broadcast register's (R29 to R31, R108). -/
def State.srcLane (s : State) (o : BitVec 12) (w i : Nat) : Nat :=
  if opBcast o then (s.mySeq.reg (regNum o)).toNat % 2 ^ w
  else (s.myCore.laneWord o i).toNat % 2 ^ w

/-- A w-bit pattern read as a signed number. -/
def toInt (w v : Nat) : Int := if 2 ^ (w - 1) ≤ v then (v : Int) - 2 ^ w else v

/-- A number as a w-bit pattern, wrapping modulo 2^w. -/
def wrap (w : Nat) (z : Int) : Nat := (z % (2 ^ w : Int)).toNat

/-- A w-bit pattern read as Q's signedness says: Q[2] = 1 unsigned (Table 2.5). -/
def readInt (q w v : Nat) : Int := if 4 ≤ q then v else toInt w v

/-- Width in bits of the instruction's element in its own class. -/
def eltWidth (c : Code) (f : Fields) : Nat :=
  match opInfo c with
  | some i => if i.flt then floatWidth f.q.toNat else intWidth f.q.toNat
  | none => 32

/-! ## What the scoreboard sees (R97, R99) -/

/-- One piece of state as a number: a register, the negative, a stream, a slot, an accumulator row or a cell. -/
abbrev Atom := Nat

/-- The atoms of a line of lanes. -/
def lineAtoms (o : BitVec 12) (lanes : Nat) : List Atom :=
  if opBcast o then [o.toNat % 32]
  else (List.range lanes).flatMap (fun i => (laneCells o i).map (fun c => 2000 + c))

/-- The atoms that a resource names. -/
def atomsOf (r : Res) : List Atom :=
  match r with
  | .reg n => [n]
  | .line o lanes => lineAtoms o lanes
  | .tile o rows cols =>
    (List.range rows).flatMap (fun j =>
      (List.range cols).map (fun c => 2000 + (if opDir o = 0 then 128 * (opIndex o + j) + c else 128 * c + opIndex o + j)))
  | .negative => [100]
  | .stream q => [200 + q]
  | .grid g => [300 + g]
  | .slot n => [400 + n]
  | .bank => [500]
  | .acc i row cnt => (List.range cnt).map (fun j => 1000 + 128 * i + row + j)
  | .held holder num => [2 ^ 32 + 4096 * holder + num]

/-- A resource names an atom. -/
def resHas (r : Res) (a : Atom) : Bool :=
  match r with
  | .line o lanes =>
    if opBcast o then a == o.toNat % 32
    else
      decide (2000 ≤ a) &&
        (match operandLane o (a - 2000) with
         | some i => decide (i < lanes)
         | none => false)
  | .tile o rows cols =>
    decide (2000 ≤ a) &&
      (let r := (a - 2000) / 128
       let k := (a - 2000) % 128
       if opDir o = 0 then decide (opIndex o ≤ r) && decide (r < opIndex o + rows) && decide (k < cols)
       else decide (opIndex o ≤ k) && decide (k < opIndex o + rows) && decide (r < cols))
  | _ => (atomsOf r).contains a

/-- The state a matrix or scalar field names. -/
def fieldRes (k : Kind) (o : BitVec 12) (lanes : Nat) : List Res :=
  match k with
  | .sreg => [.reg (o.toNat % 32)]
  | .mat _ _ _ => [.line o lanes]
  | _ => []

/-- Stream registers and the negative, where MFS and MTS reach them (R126, R222, R223). FPSTAT is no state of R99 here (DESIGN CHOICE, log 66). -/
def sregRes (num : Nat) : List Res :=
  if 0x100 ≤ num ∧ num < 0x200 then [.stream ((num - 0x100) / 16)] else if num = 0x040 then [.negative] else []

/-- The lanes that hold the packed elements of VPACK and VUNPK: ceil(VLEN / f) with f elements per cell (R154). -/
def packedCount (f : Fields) (n : Nat) : Nat :=
  let per := 32 / max 1 (codeWidth (if f.x.getLsbD 4 then f.q.toNat else 8 + f.q.toNat))
  if per = 0 then n else (n + per - 1) / per

/-- The lanes that A reaches: VLEN, but the lanes of 128 elements for MLDA, which ignores it (R181), and the packed ones for VUNPK (R154). -/
def lanesOfA (c : Code) (f : Fields) (q : Seq) : Nat :=
  if c / 16 = 0x64 then (if f.x.getLsbD 6 then 32 else 128) else if c = 0x541 then packedCount f q.vlen else q.vlen

/-- The lanes that B reaches: lane 0 alone for MLDA's scale (R181), none for a raw ADRN (R184). -/
def lanesOfB (c : Code) (f : Fields) (q : Seq) : Nat :=
  if c / 16 = 0x64 then 1 else if c / 16 = 0x66 ∧ f.x.toNat / 32768 % 4 = 2 then 0 else q.vlen

/-- The lanes that D reaches: lane 0 alone for the reductions (R115, R168), the packed ones for VPACK (R154). -/
def lanesOfD (c : Code) (f : Fields) (q : Seq) : Nat :=
  if c / 16 = 0x25 ∨ c / 16 = 0x44 then 1 else if c = 0x540 then packedCount f q.vlen else q.vlen

/-- Accumulator rows that ACLR and ADRN reach: those below ROWS (R183, R184). -/
def accRows (f : Fields) (q : Seq) : Nat := min (f.x.toNat / 256 % 128 + 1) (q.rows - f.x.toNat % 128)

/-- What ADRN writes: a line for each row it drains; one line where D is a diagonal, which CNT 1 allows (R179, R184). -/
def drainRes (f : Fields) (q : Seq) : Res :=
  if 2 ≤ opDir f.d then .line f.d (if accRows f q = 0 then 0 else q.vlen) else .tile f.d (accRows f q) q.vlen

/-- An 8-bit operand of VATOM: a line, or for a 64-bit type the pair it begins (R276). -/
def atomOperand (q : Nat) (o : BitVec 8) : BitVec 12 := if q % 4 = 3 then operand8 o ||| 0x100 else operand8 o

/-- The core of a package-local number, in the package of n. -/
def globalCore (n k : Nat) : Nat := 1024 * (n / 1024) + k % 1024

/-- The target of MFP and MTP: a core of the package and a sequencer. -/
def remoteNode (s : State) (f : Fields) : Nat := globalCore s.node ((s.sreg f.a).toNat % 1024)
def remoteSeq (s : State) (f : Fields) : SeqId := seqOfNum ((s.sreg f.a).toNat / 1024)

/-- What holds a register of a sequencer of a core, as a number: the sequencer, or what its core shares with others. -/
def holderOf (home : RegHome) (n : Nat) (q : SeqId) : Nat :=
  match home with
  | .seq => 8 * n + seqNum q
  | .core => 8 * n + 4
  | .bay => 8 * bayOf n + 5
  | .quad => 8 * quadOf n + 6
  | .stack => 8 * stackOf n + 7
  | .pkg => 2 ^ 26 + pkgOf n

/-- The register that MFP reads and MTP writes (R99, R332). -/
def remoteUses (s : State) (c : Nat) (f : Fields) : List Res :=
  if c / 16 = 0xC7 then
    match regInfo (f.x.toNat % 4096) with
    | some r => [.held (holderOf r.home (remoteNode s f) (remoteSeq s f)) (f.x.toNat % 4096)]
    | none => []
  else []

/-- What an instruction reads or writes (R99). -/
def usesOf (c : Code) (i : OpInfo) (f : Fields) (q : Seq) : List Res :=
  let x := f.x.toNat
  let n := q.vlen
  let fields := (if c / 16 = 0x66 ∨ (c / 16 = 0xA9 ∧ x / 65536 % 2 = 0) then [] else fieldRes i.d f.d (lanesOfD c f q)) ++ fieldRes i.a f.a (lanesOfA c f q) ++ fieldRes i.b f.b (lanesOfB c f q)
  let extra : List Res :=
    match c / 16 with
    | 0x05 => [.reg 31]
    | 0x06 => if c % 16 = 0 then [] else [.reg 31]
    | 0x0C => [.reg (x % 32)]
    | 0x0E => if c % 16 = 0 then [] else sregRes (x % 4096)
    | 0x23 => [.line (f.x.setWidth 12) n]
    | 0x41 => [.line (f.x.setWidth 12) n]
    | 0x2C => [.negative]
    | 0x2D => [.negative]
    | 0x2E => [.negative]
    | 0x63 =>
      let s := x % 64
      if x / 65536 % 2 = 1 then [.slot s, .slot ((s + 1) % 64), .bank] else [.slot s, .bank]
    | 0x64 => [.slot (x % 64)]
    | 0x65 => [.bank]
    | 0x66 => [.acc (x / 128 % 2) (x % 128) (accRows f q), drainRes f q]
    | 0x78 => [.grid (f.d.toNat % 8)]
    | 0x79 => [.grid (x % 8)]
    | 0x7A => [.grid (x % 8)]
    | 0x7B => [.grid (x % 8)]
    | 0x82 => [.stream (x % 16), .tile f.d q.rows q.cols]
    | 0x83 => [.stream (x % 16), .tile f.d q.rows q.cols]
    | 0x84 => [.stream (f.d.toNat % 16)]
    | 0x86 => [.stream (x % 16)]
    | 0xA8 => (if x / 256 % 2 = 1 then [.reg (x % 32)] else []) ++ (if c % 16 = 9 then [.reg (x / 65536 % 32)] else [])
    | 0xA9 =>
      [.line (atomOperand f.q.toNat (BitVec.ofNat 8 x)) n] ++
        (if c % 16 = 9 then [.line (atomOperand f.q.toNat (BitVec.ofNat 8 (x / 256))) n] else [])
    | _ => []
  fields ++ extra

/-- The stream registers that MGO latches: QA, QB and QC of the shadow table's word 0 (R189, R223). -/
def nestUses (c : Code) (w : Nat) : List Res :=
  if c / 16 = 0x61 then [.stream (w % 16), .stream (w / 16 % 16), .stream (w / 256 % 16)] else []

/-- Lines that HGL, HGW and HGS reach by the descriptor of their slot, from word 2 of it (R264, R267, R268). -/
def gridUses (c : Code) (f : Fields) (w lanes : Nat) : List Res :=
  let l := w % 32
  let d := w / 256 % 16
  let n := 2 ^ (w / 65536 % 4)
  match c / 16 with
  | 0x79 => [.tile f.a d lanes, .tile f.d (l * n) lanes]
  | 0x7A => [.tile f.a d lanes, .tile f.b (l * n) lanes]
  | 0x7B => [.tile f.a d lanes, .tile f.d (2 * l * 2 ^ d) lanes]
  | _ => []

/-- What an instruction writes with its nominal latency; NFILL, whose latency is none, so that it is no producer of a mismatch (R126), among them. -/
def writesOf (c : Code) (i : OpInfo) (f : Fields) (q : Seq) : List Res :=
  let x := f.x.toNat
  let n := q.vlen
  match c / 16 with
  | 0x05 => [.reg 31]
  | 0x06 => if c % 16 = 1 then [.reg 31] else []
  | 0x25 => [.line f.d 1]
  | 0x44 => [.line f.d 1]
  | 0x29 => [.line f.d n, .line f.a n]
  | 0x2C => if c % 16 = 4 then [.line f.d n, .negative] else [.line f.d n, .line f.a n, .negative]
  | 0x2D => if c % 16 = 1 then [.line f.d n, .negative] else [.line f.d n, .line f.a n, .negative]
  | 0x2E =>
    match c % 16 with
    | 0 => [.negative]
    | 1 => [.negative]
    | 2 => [.line f.d n, .negative]
    | 3 => [.negative]
    | 4 => [.negative]
    | 5 => [.negative]
    | 6 => [.reg (f.d.toNat % 32)]
    | _ => []
  | 0x63 => [.acc (x / 8192 % 2) (x / 64 % 128) 1]
  | 0x64 => [.slot (x % 64)]
  | 0x65 => [.bank]
  | 0x66 => [drainRes f q]
  | 0x67 => [.acc (x / 128 % 2) (x % 128) (accRows f q)]
  | 0x54 => fieldRes i.d f.d (lanesOfD c f q)
  | 0x78 => [.grid (f.d.toNat % 8)]
  | 0x82 => [.tile f.d q.rows q.cols]
  | 0x84 => [.stream (f.d.toNat % 16)]
  | 0xA8 => if x / 256 % 2 = 1 then [.reg (x % 32)] else []
  | 0xA9 => if x / 65536 % 2 = 1 then fieldRes i.d f.d n else []
  | 0xC7 => if c % 16 = 0 then fieldRes i.d f.d n else []
  | _ => if i.lat = 0 then [] else fieldRes i.d f.d n

end Sys2Proof.Machine
end

