-- ==== Sys2Proof/Machine/Float.lean ====
section
/-! DEFINITION. Floating point (R135 to R141): the six formats, exact values, the one rounding of a result with its flags, and the exact operations that the instructions round. -/

namespace Sys2Proof.Machine

/-! ## Formats -/

/-- A format of Table 6.1: exponent and fraction widths, and whether it has infinities. -/
structure Fmt where
  ew  : Nat
  fw  : Nat
  inf : Bool
  deriving DecidableEq, Repr

def Fmt.f64 : Fmt := ⟨11, 52, true⟩
def Fmt.f32 : Fmt := ⟨8, 23, true⟩
def Fmt.f16 : Fmt := ⟨5, 10, true⟩
def Fmt.bf16 : Fmt := ⟨8, 7, true⟩
def Fmt.e4m3 : Fmt := ⟨4, 3, false⟩
def Fmt.e5m2 : Fmt := ⟨5, 2, true⟩

/-- The floating class of Q (Table 2.5). -/
def fmtOf (q : Nat) : Fmt :=
  match q with
  | 0 => .f32
  | 1 => .bf16
  | 2 => .f16
  | 3 => .f64
  | 4 => .e4m3
  | _ => .e5m2

def Fmt.bias (t : Fmt) : Nat := 2 ^ (t.ew - 1) - 1
def Fmt.width (t : Fmt) : Nat := t.ew + t.fw + 1
/-- The exponent of the smallest normal value. -/
def Fmt.emin (t : Fmt) : Int := 1 - (t.bias : Int)
/-- The sign bit's weight. -/
def Fmt.signBit (t : Fmt) : Nat := 2 ^ (t.ew + t.fw)
/-- The pattern of a sign. -/
def Fmt.sgn (t : Fmt) (neg : Bool) : Nat := if neg then t.signBit else 0

/-- The canonical NaN (Table 6.2). -/
def Fmt.nan (t : Fmt) : Nat :=
  if t.inf then (2 ^ t.ew - 1) * 2 ^ t.fw + 2 ^ (t.fw - 1) else 2 ^ (t.ew + t.fw) - 1

/-- The magnitude pattern of the largest finite value. -/
def Fmt.maxMag (t : Fmt) : Nat :=
  if t.inf then (2 ^ t.ew - 1) * 2 ^ t.fw - 1 else 2 ^ (t.ew + t.fw) - 2

/-- The pattern of an infinity; the canonical NaN where the format has none (R139). -/
def Fmt.infinity (t : Fmt) (neg : Bool) : Nat :=
  if t.inf then t.sgn neg + (2 ^ t.ew - 1) * 2 ^ t.fw else t.nan

/-! ## Values -/

/-- A value: a NaN (signalling or not), an infinity, or (−1)^neg × m × 2^e. -/
inductive Fp where
  | nan (signalling : Bool)
  | inf (neg : Bool)
  | fin (neg : Bool) (m : Nat) (e : Int)
  deriving DecidableEq, Repr

/-- The value of a pattern (R135, R136). -/
def Fmt.value (t : Fmt) (v : Nat) : Fp :=
  let s := v / t.signBit % 2 == 1
  let e := v / 2 ^ t.fw % 2 ^ t.ew
  let f := v % 2 ^ t.fw
  if e = 2 ^ t.ew - 1 ∧ t.inf then (if f = 0 then .inf s else .nan (decide (f < 2 ^ (t.fw - 1))))
  else if e = 2 ^ t.ew - 1 ∧ f = 2 ^ t.fw - 1 then .nan false
  else if e = 0 then .fin s f (t.emin - t.fw)
  else .fin s (2 ^ t.fw + f) ((e : Int) - t.bias - t.fw)

/-- A subnormal pattern. -/
def Fmt.subnormal (t : Fmt) (v : Nat) : Bool := v / 2 ^ t.fw % 2 ^ t.ew == 0 && v % 2 ^ t.fw != 0

/-- The value of an operand: a subnormal reads as zero of its sign where flushing (R141). -/
def Fmt.operand (t : Fmt) (ftz : Bool) (v : Nat) : Fp :=
  if ftz && t.subnormal v then .fin (v / t.signBit % 2 == 1) 0 0 else t.value v

def Fp.isNan : Fp → Bool
  | .nan _ => true
  | _ => false
def Fp.isInf : Fp → Bool
  | .inf _ => true
  | _ => false
def Fp.isZero : Fp → Bool
  | .fin _ m _ => m == 0
  | _ => false
def Fp.neg : Fp → Bool
  | .nan _ => false
  | .inf s => s
  | .fin s _ _ => s
/-- The same magnitude with this sign. -/
def Fp.withSign (neg : Bool) : Fp → Fp
  | .nan s => .nan s
  | .inf _ => .inf neg
  | .fin _ m e => .fin neg m e
def Fp.negate (x : Fp) : Fp := x.withSign (!x.neg)

/-- The flags of FPSTAT[4:0] (Table 6.3). -/
def flNX : Nat := 1
def flUF : Nat := 2
def flOF : Nat := 4
def flDZ : Nat := 8
def flNV : Nat := 16

/-- NV for a signalling NaN read as an operand. -/
def Fp.sigFlag : Fp → Nat
  | .nan true => flNV
  | _ => 0

/-- An exact result: sticky says that the value lies strictly between m × 2^e and (m + 1) × 2^e. -/
inductive Ex where
  | nan
  | inf (neg : Bool)
  | zero (neg : Bool)
  | num (neg : Bool) (m : Nat) (e : Int) (sticky : Bool)
  deriving DecidableEq, Repr

/-- A value as an exact result. -/
def Fp.exact : Fp → Ex
  | .nan _ => .nan
  | .inf s => .inf s
  | .fin s m e => if m = 0 then .zero s else .num s m e false

/-! ## Rounding (R138 to R141) -/

/-- FPCTL as the rules use it: RM, and FTZ. -/
structure FpEnv where
  rm  : Nat
  ftz : Bool
  deriving DecidableEq, Repr

/-- RNE without flushing, as the atomics round (R287). -/
def FpEnv.rne : FpEnv := ⟨0, false⟩

/-- Bits of a number. -/
def numBits (m : Nat) : Nat := if m = 0 then 0 else Nat.log2 m + 1

/-- m × 2^e, or a little more, as an integer count of 2^q, rounded in the mode; and whether that is inexact. -/
def roundAt (rm : Nat) (neg : Bool) (m : Nat) (e : Int) (sticky : Bool) (q : Int) : Nat × Bool :=
  if q ≤ e then (m <<< (e - q).toNat, sticky)
  else
    let d := min (q - e).toNat (numBits m + 2)
    let hi := m >>> d
    let rem := m % 2 ^ d
    let half := 2 ^ (d - 1)
    let inexact := rem != 0 || sticky
    let up :=
      match rm with
      | 0 => decide (half < rem) || (rem == half && (sticky || hi % 2 == 1))
      | 1 => false
      | 2 => neg && inexact
      | _ => !neg && inexact
    (if up then hi + 1 else hi, inexact)

/-- A result with its flags. -/
structure FpOut where
  bits : Nat
  fl   : Nat
  deriving DecidableEq, Repr

/-- What overflow delivers under the rounding mode (R139). -/
def Fmt.overflow (t : Fmt) (rm : Nat) (neg : Bool) : Nat :=
  let big := t.sgn neg + t.maxMag
  match rm with
  | 0 => t.infinity neg
  | 1 => big
  | 2 => if neg then t.infinity neg else big
  | _ => if neg then big else t.infinity neg

/-- Rounds a non-zero number once to the format; sat delivers the largest finite value on overflow (R145). -/
def Fmt.roundNum (t : Fmt) (env : FpEnv) (sat neg : Bool) (m : Nat) (e : Int) (sticky : Bool) : FpOut :=
  let p := t.fw + 1
  let lead := e + (numBits m : Int) - 1
  let q1 := lead - t.fw
  let r1 := roundAt env.rm neg m e sticky q1
  let top : Int := (2 ^ t.ew : Nat) - (if t.inf then 2 else 1) - t.bias - t.fw
  let maxM := if t.inf then 2 ^ p - 1 else 2 ^ p - 2
  let tooBig := decide (top < q1) || (decide (q1 = top) && decide (maxM < r1.1))
  let lead1 := if r1.1 = 2 ^ p then lead + 1 else lead
  if tooBig then ⟨if sat then t.sgn neg + t.maxMag else t.overflow env.rm neg, flOF ||| flNX⟩
  else if lead1 < t.emin then
    if env.ftz then ⟨t.sgn neg, flUF ||| flNX⟩
    else
      let r2 := roundAt env.rm neg m e sticky (t.emin - t.fw)
      ⟨t.sgn neg + r2.1, if r2.2 then flUF ||| flNX else 0⟩
  else
    ⟨t.sgn neg + ((q1 + t.fw + t.bias - 1) * (2 ^ t.fw : Nat) + r1.1).toNat, if r1.2 then flNX else 0⟩

/-- An exact result delivered in the format (R138 to R141, R145). -/
def Fmt.deliver (t : Fmt) (env : FpEnv) (sat : Bool) (x : Ex) : FpOut :=
  match x with
  | .nan => ⟨t.nan, 0⟩
  | .inf s =>
    if t.inf then ⟨t.infinity s, 0⟩
    else ⟨if sat then t.sgn s + t.maxMag else t.nan, flOF ||| flNX⟩
  | .zero s => ⟨t.sgn s, 0⟩
  | .num s m e sticky => t.roundNum env sat s m e sticky

/-- A result rounded in FPCTL's mode, with overflow under R139. -/
def Fmt.round (t : Fmt) (env : FpEnv) (x : Ex) : FpOut := t.deliver env false x

/-- Flags added to a result. -/
def FpOut.plus (o : FpOut) (fl : Nat) : FpOut := { o with fl := o.fl ||| fl }

/-! ## Exact operations -/

/-- A signed sum m1 × 2^e1 + m2 × 2^e2 as a signed count of 2^min. -/
def alignedSum (s1 : Bool) (m1 : Nat) (e1 : Int) (s2 : Bool) (m2 : Nat) (e2 : Int) : Int × Int :=
  let e := min e1 e2
  let a : Int := ((m1 <<< (e1 - e).toNat : Nat) : Int)
  let b : Int := ((m2 <<< (e2 - e).toNat : Nat) : Int)
  ((if s1 then -a else a) + (if s2 then -b else b), e)

/-- x + y, exact; a zero sum of unlike signs is +0, or −0 under RDN (R138, Table 7.2). -/
def exAdd (rm : Nat) (x y : Fp) : Ex × Nat :=
  match x, y with
  | .nan _, _ => (.nan, 0)
  | _, .nan _ => (.nan, 0)
  | .inf a, .inf b => if a = b then (.inf a, 0) else (.nan, flNV)
  | .inf a, _ => (.inf a, 0)
  | _, .inf b => (.inf b, 0)
  | .fin s1 m1 e1, .fin s2 m2 e2 =>
    if m1 = 0 ∧ m2 = 0 then (.zero (if s1 = s2 then s1 else rm == 2), 0)
    else if m1 = 0 then (.num s2 m2 e2 false, 0)
    else if m2 = 0 then (.num s1 m1 e1 false, 0)
    else
      let z := alignedSum s1 m1 e1 s2 m2 e2
      if z.1 = 0 then (.zero (rm == 2), 0) else (.num (decide (z.1 < 0)) z.1.natAbs z.2 false, 0)

/-- x × y, exact: a value of its own, and NV for 0 × ∞. -/
def exMul (x y : Fp) : Fp × Nat :=
  match x, y with
  | .nan _, _ => (.nan false, 0)
  | _, .nan _ => (.nan false, 0)
  | .inf a, .inf b => (.inf (a != b), 0)
  | .inf a, .fin b m _ => if m = 0 then (.nan false, flNV) else (.inf (a != b), 0)
  | .fin a m _, .inf b => if m = 0 then (.nan false, flNV) else (.inf (a != b), 0)
  | .fin a m e, .fin b n g => (.fin (a != b) (m * n) (e + g), 0)

/-- A quotient of two non-zero numbers, with guard bits and sticky. -/
def exQuot (neg : Bool) (m : Nat) (e : Int) (n : Nat) (g : Int) : Ex :=
  let num := m <<< 160
  .num neg (num / n) (e - g - 160) (num % n != 0)

/-- x / y (Table 7.2). -/
def exDiv (x y : Fp) : Ex × Nat :=
  match x, y with
  | .nan _, _ => (.nan, 0)
  | _, .nan _ => (.nan, 0)
  | .inf _, .inf _ => (.nan, flNV)
  | .inf a, .fin b _ _ => (.inf (a != b), 0)
  | .fin a _ _, .inf b => (.zero (a != b), 0)
  | .fin a m e, .fin b n g =>
    if m = 0 ∧ n = 0 then (.nan, flNV)
    else if n = 0 then (.inf (a != b), flDZ)
    else if m = 0 then (.zero (a != b), 0)
    else (exQuot (a != b) m e n g, 0)

/-- The integer square root by bits, for roots below 2^bits. -/
def isqrt (bits m : Nat) : Nat :=
  (List.range bits).foldl (fun r i =>
    let t := r + 2 ^ (bits - 1 - i)
    if t * t ≤ m then t else r) 0

/-- √(m × 2^e) for m not zero (R165). -/
def exRoot (m : Nat) (e : Int) : Ex :=
  let odd := e % 2 != 0
  let m1 := if odd then 2 * m else m
  let e1 := if odd then e - 1 else e
  let n := m1 <<< 160
  let r := isqrt 120 n
  .num false r (e1 / 2 - 80) (r * r != n)

/-- 1/√(m × 2^e) for m not zero. -/
def exRecipRoot (m : Nat) (e : Int) : Ex :=
  let odd := e % 2 != 0
  let m1 := if odd then 2 * m else m
  let e1 := if odd then e - 1 else e
  let n := 2 ^ 300
  let r := isqrt 151 (n / m1)
  .num false r (-(e1 / 2) - 150) (r * r * m1 != n)

/-! ## Powers and logarithms of two, in fixed point -/

/-- Fraction bits of the fixed-point numbers. -/
def fixP : Nat := 400

/-- ln 2 as the sum of 1/(k 2^k). -/
def fixLn2 : Nat := (List.range fixP).foldl (fun s k => s + 2 ^ fixP / ((k + 1) * 2 ^ (k + 1))) 0

/-- e^y for 0 ≤ y < 1, by its series. -/
def fixExp (y : Nat) : Nat :=
  ((List.range 100).foldl (fun (p : Nat × Nat) k =>
    let t := p.2 * y / 2 ^ fixP / (k + 1)
    (p.1 + t, t)) (2 ^ fixP, 2 ^ fixP)).1

/-- ln of x/2^fixP for x from 2^fixP to 2^(fixP+1), as 2 atanh((x − 1)/(x + 1)). -/
def fixLn (x : Nat) : Nat :=
  let z := (x - 2 ^ fixP) * 2 ^ fixP / (x + 2 ^ fixP)
  let z2 := z * z / 2 ^ fixP
  2 * ((List.range 140).foldl (fun (p : Nat × Nat) k => (p.1 + p.2 / (2 * k + 1), p.2 * z2 / 2 ^ fixP)) (0, z)).1

/-- 2^a for a = (−1)^neg × m × 2^e, m not zero; exact for an integer a (R165). -/
def exExp2 (neg : Bool) (m : Nat) (e : Int) : Ex :=
  let lead := e + (numBits m : Int)
  if lead < -200 then
    (if neg then .num false (2 ^ fixP - 1) (-(fixP : Int)) true else .num false (2 ^ fixP) (-(fixP : Int)) true)
  else
    let mag : Int := if 0 ≤ e + fixP then ((m <<< (e + fixP).toNat : Nat) : Int) else ((m >>> (-(e + fixP)).toNat : Nat) : Int)
    let a := if neg then -mag else mag
    let n := a / (2 ^ fixP : Nat)
    let fr := (a % (2 ^ fixP : Nat)).toNat
    if fr = 0 then .num false 1 n false
    else .num false (fixExp (fr * fixLn2 / 2 ^ fixP)) (n - fixP) true

/-- log2 of m × 2^e, m not zero; exact for a power of two (R165). -/
def exLog2 (m : Nat) (e : Int) : Ex :=
  let k := numBits m - 1
  let n : Int := e + k
  if m = 2 ^ k then (if n = 0 then .zero false else .num (decide (n < 0)) n.natAbs 0 false)
  else
    let x := m <<< (fixP - k)
    let l : Int := ((fixLn x * 2 ^ fixP / fixLn2 : Nat) : Int)
    let v := n * (2 ^ fixP : Nat) + l
    .num (decide (v < 0)) v.natAbs (-(fixP : Int)) true

/-! ## Order -/

/-- The order of two values that are no NaN, with −0 below +0. -/
def Fp.le (x y : Fp) : Bool :=
  match x, y with
  | .inf a, .inf b => a || !b
  | .inf a, _ => a
  | _, .inf b => !b
  | .fin s1 m1 e1, .fin s2 m2 e2 =>
    let z := (alignedSum s1 m1 e1 (!s2) m2 e2).1
    if z = 0 then s1 || !s2 else decide (z < 0)
  | _, _ => false

/-- The order of two values that are no NaN, zeros being equal. -/
def Fp.lt (x y : Fp) : Bool :=
  match x, y with
  | .inf a, .inf b => a && !b
  | .inf a, _ => a
  | _, .inf b => !b
  | .fin s1 m1 e1, .fin s2 m2 e2 => decide ((alignedSum s1 m1 e1 (!s2) m2 e2).1 < 0)
  | _, _ => false

def Fp.eq (x y : Fp) : Bool := !x.isNan && !y.isNan && !(x.lt y) && !(y.lt x)

/-! ## Integers -/

/-- A number rounded to an integer in a mode, and whether that is inexact. -/
def roundInt (rm : Nat) (neg : Bool) (m : Nat) (e : Int) (sticky : Bool) : Int × Bool :=
  let r := roundAt rm neg m e sticky 0
  (if neg then -(r.1 : Int) else (r.1 : Int), r.2)

/-- The range of the integer type of Q and width w. -/
def intMin (q w : Nat) : Int := if 4 ≤ q then 0 else -(2 ^ (w - 1) : Nat)
def intMax (q w : Nat) : Int := if 4 ≤ q then (2 ^ w : Nat) - 1 else (2 ^ (w - 1) : Nat) - 1

/-- An exact result as an integer of the type: rounded, checked against the range, saturated (Table 6.6). -/
def toIntType (q w rm : Nat) (x : Ex) : FpOut :=
  match x with
  | .nan => ⟨0, flNV⟩
  | .inf s => ⟨wrap w (if s then intMin q w else intMax q w), flNV⟩
  | .zero _ => ⟨0, 0⟩
  | .num s m e sticky =>
    if (70 : Int) < e + (numBits m : Int) then ⟨wrap w (if s then intMin q w else intMax q w), flNV⟩
    else
      let r := roundInt rm s m e sticky
      if r.1 < intMin q w then ⟨wrap w (intMin q w), flNV⟩
      else if intMax q w < r.1 then ⟨wrap w (intMax q w), flNV⟩
      else ⟨wrap w r.1, if r.2 then flNX else 0⟩

/-- An integer as an exact result. -/
def exOfInt (z : Int) : Ex := if z = 0 then .zero false else .num (decide (z < 0)) z.natAbs 0 false

end Sys2Proof.Machine
end

