-- ==== Sys2Proof/Machine/Ops.lean ====
section
/-! DEFINITION. What every instruction shares: taking an exception and returning from one (R311 to R316), the stack's fault queue (R315), tokens (R89 to R93), waits and the watchdog (R103), the order of checks (R49), latency mismatches (R99, R100), retiring (R91), and the issue of an instruction as a whole. -/

namespace Sys2Proof.Machine

/-! ## The fault queue of a stack (R315) -/

/-- Entries a ring holds, out of 2^LOG2N. -/
def Stack.fqSize (k : Stack) : Nat := 2 ^ (k.sysreg 0x2B1).toNat
def Stack.fqHead (k : Stack) : Nat := (k.sysreg 0x2B2).toNat % k.fqSize
def Stack.fqTail (k : Stack) : Nat := (k.sysreg 0x2B3).toNat % k.fqSize
def Stack.fqUsed (k : Stack) : Nat := (k.fqTail + k.fqSize - k.fqHead) % k.fqSize

/-- The eight words of an entry (Table 15.3). -/
def FqEntry.words (e : FqEntry) : List Word :=
  [BitVec.ofNat 64 (e.cause % 256 + 256 * (e.seq % 4) + 1024 * bitNat e.freeze + 2048 * bitNat e.straddle + 4096 * bitNat e.nest
      + 65536 * (e.ctx % 65536) + 2 ^ 32 * (e.core % 2 ^ 22)),
   e.ipc, e.rpc, e.info, BitVec.ofNat 64 e.chunk, e.cycle, 0, 0]

/-- The translation of the slot at FQTAIL under the latched root, and its physical address. -/
def State.fqXlat (s : State) (stack : Nat) : Option (Xlat × Nat) :=
  let k := s.stack stack
  let va := (k.sysreg 0x2B0).toNat + 64 * k.fqTail
  if va / 2 ^ 55 ≠ 0 then none
  else (s.walk [42, 29, 16] ((k.fqRoot.toNat / 65536 % 2 ^ 44) * 65536) va).map (fun x => (x, x.base + va % 2 ^ x.shift))

/-- The physical address of the slot at FQTAIL, where it translates to a place that takes the write. -/
def State.fqSlot (s : State) (stack : Nat) : Option Nat :=
  match s.fqXlat stack with
  | none => none
  | some (x, pa) => if x.w && !x.grid && paPkg pa == stack / 4 && s.place pa == .bytes && !s.isFreed pa then some pa else none

/-- The key under which the slot at FQTAIL is written: on a PRIV page that of the context which last wrote FQBASE (R315, R380). -/
def State.fqSlotKey (s : State) (stack : Nat) : Option Nat :=
  match s.fqXlat stack with
  | none => none
  | some (x, _) => if x.priv then some (s.stack stack).fqKey else none

/-- The symbols that the walk for the slot at FQTAIL corrects (R378). -/
def State.noteFqWalk (s : State) (stack : Nat) : State :=
  let k := s.stack stack
  if s.weak.isEmpty then s
  else
    ((s.walkWords [42, 29, 16] ((k.fqRoot.toNat / 65536 % 2 ^ 44) * 65536) ((k.sysreg 0x2B0).toNat + 64 * k.fqTail)).flatMap
      (fun a => s.symbolsIn a 8)).eraseDups.foldl State.correct s

/-- Sets the event latch of both die control cores of a stack (R315, R321). -/
def State.signalDccs (s : State) (stack : Nat) : State :=
  (s.modSeq (dccKey (stack / 4) (stack % 4) 0) .ld (fun q => { q with latch := true })).modSeq
    (dccKey (stack / 4) (stack % 4) 1) .ld (fun q => { q with latch := true })

/-- Writes an entry at the tail. -/
def State.fqWrite (s : State) (stack pa : Nat) (e : FqEntry) : State :=
  let s1 := (e.words.zipIdx).foldl (fun t p => t.physWrite (s.fqSlotKey stack) (pa + 8 * p.2) 8 p.1) (s.noteFqWalk stack)
  let p := s1.pkg (stack / 4)
  let s1 := s1.setPkg (stack / 4) { p with fqLog := (p.fqLog ++ [e]).drop (p.fqLog.length + 1 - 4096) }
  let k := s1.stack stack
  (s1.setStack stack (k.setSys 0x2B3 (BitVec.ofNat 64 ((k.fqTail + 1) % k.fqSize)))).signalDccs stack

/-- Adds an entry: written while the ring has room and its slot can be written, else held in the core and counted in FQOVF; one whose slot a PHASE drain moves waits in the core for the drain's end (R233). -/
def State.postFault (s : State) (n : Nat) (e : FqEntry) : State :=
  let stack := stackOf n
  let k := s.stack stack
  let keep (s : State) : State := s.modCore n (fun c => { c with fqWait := c.fqWait ++ [e] })
  let hold (s : State) : State :=
    let s1 := keep s
    let k := s1.stack stack
    s1.setStack stack (k.setSys 0x2B4 (k.sysreg 0x2B4 + 1))
  if k.fqUsed + 1 = k.fqSize then hold s
  else
    match s.fqSlot stack with
    | some pa => if s.drainHit pa then keep s else s.fqWrite stack pa e
    | none => (hold (s.noteFqWalk stack)).signalDccs stack

/-- Entries that waited in one core are written while the ring has room (R315); a walk that ends without a slot counts what it corrects too (R378). -/
def State.flushCore (s : State) (n : Nat) (l : List FqEntry) : State :=
  match l with
  | [] => s
  | e :: rest =>
    let k := s.stack (stackOf n)
    if k.fqUsed + 1 = k.fqSize then s
    else
      match s.fqSlot (stackOf n) with
      | none => s.noteFqWalk (stackOf n)
      | some pa => if s.drainHit pa then s else State.flushCore ((s.fqWrite (stackOf n) pa e).modCore n (fun c => { c with fqWait := rest })) n rest

/-- Entries that waited in the cores of a stack are written while its ring has room, core after core by number: so it is where FQHEAD, FQBASE or FQCFG is written, and where a drain ends (R315; DESIGN CHOICE, log 96). -/
def State.flushStack (s : State) (stack : Nat) : State :=
  s.cores.foldl (fun s p => if stackOf p.1 = stack ∧ !p.2.fqWait.isEmpty then s.flushCore p.1 p.2.fqWait else s) s

/-- So it is for every stack of a package, as a PHASE drain ends (R233). -/
def State.flushFaults (s : State) (pkg : Nat) : State := (List.range 4).foldl (fun t k => t.flushStack (4 * pkg + k)) s

/-! ## Taking an exception, and returning (R311 to R313) -/

/-- Issue restarts at a cycle: after a trap entry, where it is the third after the fault (R312), a stop, an ERET, a resume (R98); the producers before it count no more (R99), and a wait begins afresh (R103). -/
def Seq.restart (q : Seq) (now : Word) : Seq :=
  { q with last := some now, occ := 0, age := 0, hist := [], jumped := false, wait := none }

/-- The causes that DELEG can delegate (Table 15.1). -/
def delegable (cause : Nat) : Bool :=
  cause != 0x0B && cause != 0x18 && cause != 0x3A

/-- UCAUSE.INH. -/
def Seq.inh (q : Seq) : Bool := (q.sysreg 0x00F).getLsbD 16

/-- The sequencer takes this cause by trap entry. -/
def Seq.delegates (q : Seq) (cause : Nat) : Bool :=
  delegable cause && (q.sysreg 0x00C).getLsbD cause && !q.inh

/-- Trap entry: UEPC, UCAUSE, UFADDR and PC as R312 sets them; the producers before it count no more (R99). -/
def Seq.trapEntry (q : Seq) (cause : Nat) (epc ufaddr : Word) (straddle : Bool) : Seq :=
  { (((q.setSys 0x00E (epc &&& 0xFFFFFFFFFFFFFFFE)).setSys 0x00F
        (BitVec.ofNat 64 (cause + 256 * bitNat straddle + 65536))).setSys 0x010 ufaddr) with
    pc := q.sysreg 0x00D, hist := [], jumped := false, wait := none, mark := none, xo := false, skipBp := false }

/-- A fault that stops the sequencer: SEQPC reads where it resumes (R312, R316). -/
def Seq.stopOn (q : Seq) (rpc : Word) : Seq :=
  { (q.setSys 0x280 rpc) with run := .stopped, hist := [], jumped := false, wait := none, mark := none, xo := false }

/-- A fault of sequencer q of node n: trap entry where its cause is delegated, else the sequencer stops and an entry goes to the stack's fault queue; a stopped CP suspends its reel (R212). -/
def State.faultAt (s : State) (n : Nat) (q : SeqId) (cause : Nat) (ufaddr epc : Word) (straddle : Bool) : State :=
  let v := s.seq n q
  let c := s.core n
  if v.delegates cause then s.setSeq n q ((v.trapEntry cause epc ufaddr straddle).restart (c.cycle + 3))
  else
    let e : FqEntry :=
      { cause := cause, seq := seqNum q, freeze := false, straddle := straddle, nest := v.inh, ctx := c.ctxTag,
        core := if isDcc n then 0 else n, ipc := v.pc, rpc := epc, info := ufaddr, chunk := 0, cycle := c.cycle }
    let s1 := s.setSeq n q ((v.stopOn epc).restart c.cycle)
    let s2 := if q = .cp then s1.modCore n (fun c => { c with reel := c.reel.map (fun r => { r with suspending := true }) }) else s1
    s2.postFault n e

/-- A permit of a sequencer's waiting instruction: one it has not taken, or the one of its CLST. -/
def Permit.waits (p : Permit) (n : Nat) (q : SeqId) (clst : Bool) : Bool :=
  p.node == n && p.seq == q && (p.waiting || (clst && p.holder == .collective))

/-- A permit event joins the package's log, which keeps the newest 256 (Table 19.3). -/
def State.notePermit (s : State) (p : Permit) (kind : PermitKind) : State :=
  let k := pkgOf p.node
  let g := s.pkg k
  let e : PermitEvent := { time := (s.stack (stackOf p.node)).clock, node := p.node, seq := p.seq, weight := p.weight, kind := kind }
  s.setPkg k { g with permitLog := (g.permitLog ++ [e]).drop (g.permitLog.length + 1 - 256) }

/-- Permit events, one after the other. -/
def State.notePermits (s : State) (l : List Permit) (kind : PermitKind) : State := l.foldl (fun t p => t.notePermit p kind) s

/-- Requests are withdrawn; of those that stay, the ones of this cycle still stand at the tail (R352). -/
def Quad.dropAsks (k : Quad) (gone : Permit → Bool) : Quad :=
  { k with asks := k.asks.filter (fun p => !gone p), late := ((k.asks.drop (k.asks.length - k.late)).filter (fun p => !gone p)).length }

/-- A sequencer's permits for a waiting instruction are given back (R352). -/
def State.withdrawPermits (s : State) (n : Nat) (q : SeqId) (clst : Bool) : State :=
  let k := s.quad (quadOf n)
  if (k.asks ++ k.grants).any (fun p => p.waits n q clst) then
    (s.setQuad (quadOf n) { k.dropAsks (fun p => p.waits n q clst) with grants := k.grants.filter (fun p => !p.waits n q clst) }).notePermits
      (k.grants.filter (fun p => p.waits n q clst)) .release
  else s

/-- A sequencer leaves the line of its bay's rings (R279). -/
def State.leaveLine (s : State) (n : Nat) (q : SeqId) : State :=
  let b := s.bay (bayOf n)
  if b.line.contains (n, q) then s.setBay (bayOf n) { b with line := b.line.filter (fun p => !(p.1 == n && p.2 == q)) } else s

/-- The waiting instruction of a sequencer gives up: its permit, its arrival at a collective (R303), and its place in the line of a bay ring. -/
def State.withdraw (s : State) (n : Nat) (q : SeqId) : State :=
  if isDcc n then s
  else if q = .cp ∧ (s.core n).clst.isSome then
    ((s.modCore n (fun c => { c with clst := none })).withdrawPermits n q true).leaveLine n q
  else (s.withdrawPermits n q false).leaveLine n q

/-- The error log notes an uncorrectable word that an access at a virtual address met, in what it reads or in a table (Table 19.3). -/
def State.noteBad (s : State) (n cause : Nat) (va : Word) : State :=
  match s.xlate n va, s.tableLost n va with
  | some x, _ => if cause = 0x18 ∧ s.isBad (x.addr va / 128 * 128) 128 then s.logError (x.addr va) .uncorrected else s
  | none, some a => if cause = 0x18 then s.logError a .uncorrected else s
  | none, none => s

/-- A fault of the instruction at PC of the current sequencer, with nothing of it done (R66). -/
def State.takeFault (s : State) (cause : Nat) (ufaddr : Word) : State :=
  (if cause = 0x18 then (s.withdraw s.node s.me).noteBad s.node cause ufaddr else s.withdraw s.node s.me).faultAt
    s.node s.me cause ufaddr s.mySeq.pc false

/-- ERET: PC := UEPC, INH := 0; with skipbp no breakpoint matches the next instruction (R313). -/
def Seq.eret (q : Seq) (skip : Bool) : Seq :=
  { (q.setSys 0x00F (q.sysreg 0x00F &&& 0xFFFFFFFFFFFEFFFF)) with
    pc := q.sysreg 0x00E, hist := [], jumped := false, wait := none, skipBp := skip, xo := false }

/-! ## Tokens (R89 to R93) -/

/-- The key of the FIFO from f to t. -/
def fifo (f t : Nat) : Nat := 4 * t + f

def Core.tokens (c : Core) (k : Nat) : Nat := Tab.get c.tok k 0
def Core.reserved (c : Core) (k : Nat) : Nat := Tab.get c.resv k 0
def Core.setTokens (c : Core) (k v : Nat) : Core := { c with tok := Tab.put0 0 c.tok k v }
def Core.setReserved (c : Core) (k v : Nat) : Core := { c with resv := Tab.put0 0 c.resv k v }

/-- The sequencers a mask names. -/
def maskSeqs (m : BitVec 4) : List SeqId := allSeqs.filter (fun q => m.getLsbD (seqNum q))

/-- The mask of popped FIFOs that hold fewer than cnt tokens. -/
def Core.shortPops (c : Core) (me : SeqId) (m : BitVec 4) (cnt : Nat) : Nat :=
  (maskSeqs m).foldl (fun a q => if c.tokens (fifo (seqNum q) (seqNum me)) < cnt then a + 2 ^ seqNum q else a) 0

/-- The mask of pushed FIFOs without room for these pushes (R89). -/
def Core.shortPushes (c : Core) (me : SeqId) (l : List (SeqId × Nat)) : Nat :=
  l.foldl (fun a p =>
    let k := fifo (seqNum me) (seqNum p.1)
    if 15 < c.tokens k + c.reserved k + p.2 then a + 2 ^ seqNum p.1 else a) 0

/-- One token for each sequencer of PUSH. -/
def pushList (m : BitVec 4) : List (SeqId × Nat) := (maskSeqs m).map (fun q => (q, 1))

/-- Removes one token from each popped FIFO. -/
def Core.popAll (c : Core) (me : SeqId) (m : BitVec 4) : Core :=
  (maskSeqs m).foldl (fun c q =>
    let k := fifo (seqNum q) (seqNum me)
    c.setTokens k (c.tokens k - 1)) c

/-- Reserves the places of pushes. -/
def Core.reserve (c : Core) (me : SeqId) (l : List (SeqId × Nat)) : Core :=
  l.foldl (fun c p =>
    let k := fifo (seqNum me) (seqNum p.1)
    c.setReserved k (c.reserved k + p.2)) c

/-- The tokens that an instruction popped come back as it is discarded, as far as the FIFOs have room (R407; DESIGN CHOICE, log 93). -/
def Core.giveBack (c : Core) (me : SeqId) (m : BitVec 4) : Core :=
  (maskSeqs m).foldl (fun c q =>
    let k := fifo (seqNum q) (seqNum me)
    if c.tokens k + c.reserved k < 15 then c.setTokens k (c.tokens k + 1) else c) c

/-- Reserved places are released. -/
def Core.unreserve (c : Core) (me : SeqId) (l : List (SeqId × Nat)) : Core :=
  l.foldl (fun c p =>
    let k := fifo (seqNum me) (seqNum p.1)
    c.setReserved k (c.reserved k - p.2)) c

/-- Places pushes into their reserved places, when their instruction retires (R91). -/
def Core.place (c : Core) (me : SeqId) (l : List (SeqId × Nat)) : Core :=
  l.foldl (fun c p =>
    let k := fifo (seqNum me) (seqNum p.1)
    (c.setReserved k (c.reserved k - p.2)).setTokens k (c.tokens k + p.2)) c

/-! ## Waits (R103, R104) -/

/-- UFADDR of a wait timeout: kind and resource (Table 4.10). -/
def waitAddr (kind : Nat) (id : Word) : Word :=
  BitVec.ofNat 64 (kind % 256 * 2 ^ 56 + id.toNat % 2 ^ 56)

/-- The count of a wait has reached its limit: 2^EXP delivered cycles since it began. -/
def Wait.expired (w : Wait) (cycle : Word) : Bool := decide (2 ^ w.exp ≤ (cycle - w.start).toNat)

/-- The stall of an access on a PHASE drain is no wait (R103); this kind only keeps it from being counted twice. -/
def stallKind : Nat := 0xF0

/-- A wait under R103; from 0x80 on a kind is only a mark: of a stall on a drain, or of the place of a waiter that the arbiter has passed over. -/
def Wait.counts (w : Wait) : Bool := decide (w.kind < 0x80)

/-- The wait has a place in the order in which a bay ring or a buffer ring serves: it waits, or has been passed over (R279, R281). -/
def Wait.inOrder (w : Wait) (kind : Nat) (id : Word) : Bool := (w.kind == kind || w.kind == kind + 0x80) && w.id == id

/-- What is left of the wait of an instruction that is ready and does not issue: it waits no more, and keeps its place where rings serve in order (R103, R279, R281). -/
def Wait.passed (w : Wait) : Option Wait :=
  if w.kind = 0x05 ∨ w.kind = 0x06 then some { w with kind := w.kind + 0x80 }
  else if w.kind = 0x85 ∨ w.kind = 0x86 then some w else none

/-- A wait of the current sequencer has reached its limit: cause 0x20, its request for a permit withdrawn (R103, R352). -/
def State.timeOut (s : State) (kind : Nat) (id : Word) : State :=
  let asks := (s.quad (quadOf s.node)).asks.filter (fun p => kind == 0x08 && p.waits s.node s.me false)
  (s.notePermits asks .timeout).takeFault 0x20 (waitAddr kind id)

/-- The current instruction waits for a resource: its wait begins, goes on, or times out with cause 0x20. A wait that passes from one resource to another is one wait (DESIGN CHOICE, log 67). -/
def State.waitFor (s : State) (kind : Nat) (id : Word) : State :=
  let q := s.mySeq
  let c := s.myCore
  let fresh : Wait := { kind := kind, id := id, start := c.cycle, exp := (q.sysreg 0x006).toNat }
  match q.wait with
  | none => s.modMe (fun q => { q with wait := some fresh })
  | some w =>
    if !w.counts then s.modMe (fun q => { q with wait := some fresh })
    else if w.expired c.cycle then s.timeOut kind id
    else s.modMe (fun q => { q with wait := some { w with kind := kind, id := id } })

/-- A stall is no wait: one that was under way is over (R103); the mark of a stall on a drain stays. -/
def State.endWait (s : State) : State :=
  match s.mySeq.wait with
  | some w => if w.kind = stallKind then s else s.modMe (fun q => { q with wait := none })
  | none => s

/-- The current instruction stalls on a PHASE drain with n accesses, each counted once in PHSTALL (R233). -/
def State.stallDrain (s : State) (cnt : Nat) : State :=
  let counted := match s.mySeq.wait with | some w => w.kind == stallKind | none => false
  if counted then s
  else
    let s1 := s.modMyCore (fun c => c.setSys 0x340 (c.sysreg 0x340 + BitVec.ofNat 64 cnt))
    s1.modMe (fun q => { q with wait := some { kind := stallKind, id := 0, start := 0, exp := 64 } })

/-! ## The encoding checks (R49, Table 2.9) -/

/-- The opcode may issue on this sequencer of this node (R43). -/
def Runs.allows (r : Runs) (n : Nat) (q : SeqId) : Bool :=
  if isDcc n then r.dcc
  else
    match q with
    | .ld => r.ld
    | .cp => r.cp
    | .st => r.st
    | .ct => r.ct

/-- MFS, MTS, MFP or MTP (opcode and function). -/
def isSregOp (c : Code) : Bool := c == 0x0E1 || c == 0x0E2
def isRemoteOp (c : Code) : Bool := c == 0xC70 || c == 0xC71

/-- A register number that check 4 refuses (R86, R316, R324). -/
def sregIllegal (c : Code) (n : Nat) (priv : Bool) (num : Nat) : Bool :=
  if isSregOp c then
    if !priv && decide (0x280 ≤ num ∧ num ≤ 0x2FF) then false
    else (regInfo num).isNone || regRemoteOnly num || (!isDcc n && decide (0x400 ≤ num ∧ num ≤ 0x43F))
  else if isRemoteOp c then
    if !priv then false else (regInfo num).isNone || (!isDcc n && decide (0x400 ≤ num ∧ num ≤ 0x43F))
  else false

/-- A register number that check 5 refuses: privileged numbers, and MTS to a register all of whose fields are RO. -/
def sregPrivileged (c : Code) (priv : Bool) (num : Nat) : Bool :=
  isSregOp c &&
    ((!priv && decide (0x280 ≤ num ∧ num ≤ 0x2FF)) ||
      (c == 0x0E2 && (match regInfo num with | some r => regReadOnly r | none => false)))

/-- The part of check 4 that depends on where the instruction issues (R43, R46, R93, R224). -/
def illegalHere (c : Code) (f : Fields) (n : Nat) (q : SeqId) : Bool :=
  (if isDcc n then f.pop != 0 || f.push != 0 else f.pop.getLsbD (seqNum q) || f.push.getLsbD (seqNum q)) ||
    (c / 16 == 0x11 && f.x.getLsbD (seqNum q)) ||
    (c / 16 == 0x88 && !(f.x.getLsbD (16 + seqNum q)))

/-- The first encoding check that fails, from row 2 on: cause and UFADDR (Table 2.9). -/
def encodingFault (c : Code) (f : Fields) (n : Nat) (q : SeqId) (priv : Bool) : Option (Nat × Word) :=
  match opInfo c with
  | none => some (0x01, 0)
  | some i =>
    let num := f.x.toNat % 4096
    if !i.runs.allows n q then some (0x03, 0)
    else if illegalStatic c i f || illegalHere c f n q || sregIllegal c n priv num then some (0x01, 0)
    else if (i.priv && !priv) || sregPrivileged c priv num then some (0x04, 0)
    else
      match badOperand c i f with
      | some k => some (0x02, BitVec.ofNat 64 k)
      | none =>
        match oddIndex c i f with
        | some k => some (0x12, BitVec.ofNat 64 k)
        | none => none

/-! ## Latency mismatches (R99, R100) -/

/-- Cycles of hint distance that this instruction adds for every producer before it. -/
def Seq.hintStep (q : Seq) (f : Fields) : Nat := 1 + f.dly.toNat + (if q.jumped then 2 else 0)

/-- The producers with the distance that this instruction sees. -/
def Seq.seen (q : Seq) (f : Fields) : List Producer := q.hist.map (fun p => { p with dist := p.dist + q.hintStep f })

/-- A producer short of its distance. -/
def Producer.short (p : Producer) : Bool := decide (p.dist < min p.lat 16)

/-- PC of the earliest producer that is short for an atom's latest writer; the list is oldest first (R99, R100). -/
def shortFor (l : List Producer) (a : Atom) : Option Producer :=
  match l.reverse.find? (fun p => p.writes.any (fun r => resHas r a)) with
  | some p => if p.short then some p else none
  | none => none

/-- The earliest short producer of an instruction with these uses. -/
def mismatch (seen : List Producer) (uses : List Res) : Option Word :=
  if seen.any Producer.short then
    let hits := (uses.flatMap atomsOf).filterMap (shortFor seen)
    match seen.find? (fun p => hits.contains p) with
    | some p => some p.pc
    | none => none
  else none

/-! ## Retiring -/

/-- What an instruction has done when it issues, beside its tokens, its PC and its place in the schedule. -/
structure Done where
  /-- the state with the instruction's own effects -/
  st     : State
  /-- the target of a taken control transfer -/
  target : Option Word := none
  /-- results bound for the matrix file -/
  lands  : List Land := []
  /-- writes to memory, in order -/
  stores : List Store := []
  /-- tokens that TOKS places beside PUSH, one cycle after it has issued (R93) -/
  extra  : List (SeqId × Nat) := []
  /-- an engine places the pushes when the command completes -/
  engine : Bool := false
  /-- it retires as it issues, whatever the schedule keeps in flight (R124) -/
  atOnce : Bool := false
  /-- latency and written state where the operands decide them -/
  lat    : Option Nat := none
  wr     : Option (List Res) := none
  deriving DecidableEq, Repr

/-- How an instruction's execution goes. -/
inductive Eff where
  | done (d : Done)
  /-- a fault, with nothing done -/
  | trap (cause : Nat) (ufaddr : Word)
  /-- a fault whose UFADDR the spec leaves open: a free value (DESIGN CHOICE, log 48) -/
  | trapOpen (cause : Nat)
  /-- a wait under R103 -/
  | wait (kind : Nat) (id : Word)
  /-- the same, with a place taken in a line or a request made -/
  | waitWith (s : State) (kind : Nat) (id : Word)
  /-- a stall that is no wait; the state may note it -/
  | stall (s : State)
  /-- the instruction's effect is the whole next state -/
  | whole (s : State)
  deriving DecidableEq, Repr

/-- Writes that leave with a tag. -/
def tagStores (tag : Nat) (l : List Store) : List Store := l.map (fun st => { st with tag := tag })

/-- Stores of the current sequencer: performed after its older ones, or queued (R242). -/
def State.issueStores (s : State) (n : Nat) (q : SeqId) (hold : Bool) (tag : Nat) (l : List Store) : State :=
  if l.isEmpty then s
  else if hold then s.modSeq n q (fun v => { v with queue := v.queue ++ tagStores tag l })
  else (s.drainQueue n q).performAll l

/-- The effective ramp class (R16). -/
def State.effRc (s : State) (n : Nat) (rc : BitVec 3) : Nat :=
  max rc.toNat (((s.quad (quadOf n)).sysreg 0x300).toNat % 8)

/-- Adds steps to the RSTEP counter of a ramp class (R128). -/
def Core.addSteps (c : Core) (rc steps : Nat) : Core :=
  if steps = 0 then c else c.setSys (0x048 + rc) (c.sysreg (0x048 + rc) + BitVec.ofNat 64 steps)

/-- An instruction has issued at a cycle, and occupies CP for some cycles (R98, R126). -/
def Seq.issuedAt (q : Seq) (now : Word) (occ : Nat) : Seq := { q with last := some now, occ := occ, age := 0 }

/-- The sequencer after the instruction: PC moved, the wait over, the producers aged and the new one added (R76, R99). -/
def Seq.advance (q : Seq) (c : Code) (f : Fields) (d : Done) (old : Seq) : Seq :=
  let kept := (old.seen f).filter (fun p => decide (p.dist < 16))
  let add : List Producer :=
    match opInfo c with
    | none => []
    | some i =>
      let w := d.wr.getD (writesOf c i f old)
      let lat := (d.lat.getD (baseLatency c i f)) * stretch f.rc.toNat
      if w.isEmpty then [] else [{ pc := old.pc, lat := lat, dist := 0, writes := w }]
  { q with pc := d.target.getD (old.pc + instrLen f), wait := none, skipBp := false, xo := false,
           jumped := d.target.isSome, hist := kept ++ add }

/-- Matrix-file results of CP in flight, a restored entry until its landing cycle among them (R327). -/
def Core.flying (c : Core) : Nat :=
  (c.snap.map (fun fl => max 1 fl.lands.length) ++ c.seqs.cp.flights.map (fun fl => fl.lands.length)).foldl (· + ·) 0

/-- The RSTEP occupancy of an instruction of CP (R128). -/
def stepsOf (c : Code) (f : Fields) : Nat :=
  match opInfo c with
  | some i => if i.runs = .cpOnly then baseSteps c i f else 0
  | none => 0

/-- The stretch k of an instruction: that of its effective ramp class where it runs on CP alone; every other takes no ramp class (R16, R45, R80, R332). -/
def State.stretchOf (s : State) (i : OpInfo) (f : Fields) : Nat := if i.runs = .cpOnly then stretch (s.effRc s.node f.rc) else 1

/-- The cycles in which an instruction occupies its sequencer, stretched by its effective ramp class (R16, R126, R144). -/
def State.occupancy (s : State) (c : Code) (f : Fields) : Nat :=
  match opInfo c with
  | some i => baseOccupancy c i f ((s.mySeq.sysreg 0x060).toNat / 256 % 32 != 0) * s.stretchOf i f
  | none => 1

/-- Nominal latency of an instruction at its effective ramp class (R16). -/
def State.latency (s : State) (c : Code) (f : Fields) (d : Done) : Nat :=
  match opInfo c with
  | some i => d.lat.getD (baseLatency c i f) * s.stretchOf i f
  | none => 0

/-- What issues stays in flight: TOKS, and what else the schedule keeps there, with something of it to come (State.hold). The rows of one ADRN above 32 land at once (R327; DEDUCED, log 68). -/
def State.held (s : State) (f : Fields) (d : Done) : Bool :=
  !d.extra.isEmpty || (s.hold && !d.atOnce && !((pushList f.push).isEmpty && d.lands.isEmpty && d.stores.isEmpty) && decide (d.lands.length ≤ 32))

/-- The instruction would put a 33rd result in flight: it stalls (R327). -/
def State.crowded (s : State) (f : Fields) (d : Done) : Bool :=
  s.held f d && !d.lands.isEmpty && decide (32 < s.myCore.flying + d.lands.length)

/-- The instruction has issued: pops taken, PC moved, and its results, writes and pushes completed, kept in flight (State.held), or left to an engine. RSTEP counts it when it completes (R128, R329; DEDUCED, log 69). -/
def State.commit (s : State) (c : Code) (f : Fields) (d : Done) : State :=
  let n := s.node
  let me := s.me
  let old := s.mySeq
  let now := (s.core n).cycle
  let pushes := pushList f.push ++ d.extra
  let rc := s.effRc n f.rc
  let s1 := d.st.modSeq n me (fun q => (q.advance c f d old).issuedAt now (s.occupancy c f))
  if d.engine then s1.modCore n (fun k => ((k.popAll me f.pop).addSteps rc (stepsOf c f)).reserve me pushes)
  else if s.held f d then
    let tag := s.nextTag
    let fl : Flight :=
      { tag := tag, pc := old.pc, pushes := pushes, lands := d.lands, due := now + BitVec.ofNat 64 (if d.extra.isEmpty then s.latency c f d else 1), rc := rc,
        occ := stepsOf c f, timed := !d.extra.isEmpty }
    let s3 := s1.modCore n (fun k => (k.popAll me f.pop).reserve me pushes)
    let s4 := s3.modSeq n me (fun q => { q with flights := q.flights ++ [fl] })
    { (s4.issueStores n me true tag d.stores) with nextTag := tag + 1 }
  else
    let s2 := s1.modCore n (fun k => (k.popAll me f.pop).addSteps rc (stepsOf c f))
    let s3 := s2.issueStores n me false 0 d.stores
    s3.modCore n (fun k => ((d.lands.foldl Core.land k).reserve me pushes).place me pushes)

/-! ## Issue -/

/-- Every matrix-file result of CP that is in flight lands, in program order, restored ones first; the pushes stay to be placed. -/
def Core.settle (c : Core) : Core :=
  let q := c.seqs.cp
  let c1 := (c.snap ++ q.flights).foldl (fun c f => f.lands.foldl Core.land c) c
  { c1.setSeq .cp { q with flights := q.flights.map (fun f => { f with lands := [] }) } with
    snap := c.snap.map (fun f => { f with lands := [] }) }

/-- Results in flight that an instruction reads or writes land before it (R97). -/
def State.interlock (s : State) (uses : List Res) : State :=
  let c := s.myCore
  let meets := ((if s.me = .cp then c.snap else []) ++ (c.seqs.get s.me).flights).any (fun fl => fl.lands.any (fun l =>
    l.lanes.any (fun p => (laneCells l.field p.1).any (fun k => uses.any (fun r => resHas r (2000 + k))))))
  if meets then s.modMyCore Core.settle else s

/-- STRICT of the sequencer (R100). -/
def Seq.strict (q : Seq) : Bool := (q.sysreg 0x008).getLsbD 0

/-- LATMISS goes up by one (R100). -/
def Seq.countMiss (q : Seq) : Seq := q.setSys 0x009 (q.sysreg 0x009 + 1)

/-- What an instruction reads or writes, for R97 and R99. -/
def State.uses (s : State) (c : Code) (f : Fields) : List Res :=
  let own := match opInfo c with | some i => usesOf c i f s.mySeq | none => []
  own ++ nestUses c (Tab.get s.myCore.nestTab 0 0).toNat ++ gridUses c f (Tab.get s.myCore.grids (16 * (f.x.toNat % 8) + 2) 0).toNat s.mySeq.vlen
    ++ remoteUses s c f

/-- The producer short of its distance, if any (R99, R100). -/
def State.miss (s : State) (c : Code) (f : Fields) : Option Word := mismatch (s.mySeq.seen f) (s.uses c f)

/-- What an instruction does once its encoding and its tokens have passed, by its Eff. -/
def State.settleEff (s : State) (c : Code) (f : Fields) (e : Eff) : State :=
  match e with
  | .wait kind id => s.waitFor kind id
  | .waitWith t kind id => t.waitFor kind id
  | .stall t => t.endWait
  | .trapOpen cause => s.spend.takeFault cause (Config.freeWord s.fresh)
  | .trap cause ufaddr => s.takeFault cause ufaddr
  | .whole t => t
  | .done d => if s.crowded f d then s.endWait else s.commit c f d

/-- The execution ends in a fault, with nothing done (R66). -/
def Eff.traps (e : Eff) : Bool :=
  match e with
  | .trap _ _ => true
  | .trapOpen _ => true
  | _ => false

/-- The instruction is ready with this Eff: it neither waits nor stalls. -/
def State.goes (s : State) (f : Fields) (e : Eff) : Bool :=
  match e with
  | .wait _ _ => false
  | .waitWith _ _ _ => false
  | .stall _ => false
  | .done d => !s.crowded f d
  | _ => true

/-- The body of an instruction on the state as the instructions before it leave it (R97). -/
def State.runBody (s : State) (c : Code) (f : Fields) (body : State → Eff) : Eff := body (s.interlock (s.uses c f))

/-- The encoding checks and the tokens have passed. An instruction that becomes ready short of a producer's latency raises cause 0x05 under STRICT, before any effect; else LATMISS counts it, unless it faults, which leaves every state as it was (R66, R100, R407). -/
def State.execute (s : State) (c : Code) (f : Fields) (body : State → Eff) : State :=
  match s.miss c f with
  | none => s.settleEff c f (s.runBody c f body)
  | some pc =>
    if !s.goes f (s.runBody c f body) then s.settleEff c f (s.runBody c f body)
    else if s.mySeq.strict then s.takeFault 0x05 pc
    else
      let t := s.modMe Seq.countMiss
      if (t.runBody c f body).traps then s.settleEff c f (s.runBody c f body) else t.settleEff c f (t.runBody c f body)

/-- FIFOs still short for the pops, and for TOKW's own mask (R90, R93). -/
def Core.missingPops (k : Core) (me : SeqId) (c : Code) (f : Fields) : Nat :=
  k.shortPops me f.pop 1 ||| (if c = 0x110 then k.shortPops me (f.x.setWidth 4) (f.x.toNat / 16 % 16) else 0)

/-- The places that an instruction's pushes take: those of PUSH, and n for each FIFO of TOKS's mask (R90, R93). -/
def placesOf (c : Code) (f : Fields) : List (SeqId × Nat) :=
  if c = 0x111 then
    (allSeqs.map (fun q => (q, bitNat (f.push.getLsbD (seqNum q)) + (if f.x.getLsbD (seqNum q) then f.x.toNat / 16 % 16 else 0)))).filter
      (fun p => decide (0 < p.2))
  else pushList f.push

/-- Issue of a core instruction (R49, R90): the encoding checks, its tokens, then its execution. One that lacks both a token to pop and room to push waits for the token (DESIGN CHOICE, log 70). -/
def State.issue (s : State) (c : Code) (f : Fields) (body : State → Eff) : State :=
  match encodingFault c f s.node s.me (s.privileged s.node) with
  | some (cause, ufaddr) => s.takeFault cause ufaddr
  | none =>
    let pops := s.myCore.missingPops s.me c f
    let pushes := s.myCore.shortPushes s.me (placesOf c f)
    if pops ≠ 0 then s.waitFor 0x01 (BitVec.ofNat 64 pops)
    else if pushes ≠ 0 then s.waitFor 0x02 (BitVec.ofNat 64 pushes)
    else s.execute c f body

/-- The outcome of an instruction. -/
abbrev Out := Host.Outcome State Fault Refusal

/-- The outcome of a core instruction: always a next state. -/
def issued (c : Code) (f : Fields) (body : State → Eff) (s : State) : Out := .next (s.issue c f body)

/-- An effect that only changes the state. -/
def done (s : State) : Eff := .done { st := s }

/-- An effect that writes one scalar register of the current sequencer. -/
def putReg (s : State) (o : BitVec 12) (v : Word) : Eff := done (s.setReg (regNum o) v)

/-! ## Accesses of an instruction -/

/-- The copy unit's queue that a sequencer feeds: LD's or ST's (R229). -/
def Core.transfers (c : Core) (q : SeqId) : List Transfer :=
  match q with
  | .ld => c.ldq
  | .st => c.stq
  | _ => []

def Core.setTransfers (c : Core) (q : SeqId) (l : List Transfer) : Core :=
  match q with
  | .ld => { c with ldq := l }
  | .st => { c with stq := l }
  | _ => c

/-- Transfers that the current sequencer has issued are still under way: its later accesses stand behind them (R242). -/
def State.busy (s : State) : Bool := !(s.myCore.transfers s.me).isEmpty

/-- The state as the accesses of the current sequencer find its words: one that an older write of its own queue replaces whole holds a valid codeword by then (R240, R378). -/
def State.assured (s : State) : State :=
  let replaced (b : Nat) : Bool := s.mySeq.queue.any (fun st => st.size == 8 && st.addr == 8 * b)
  if s.mySeq.queue.isEmpty then s
  else { s with bad := s.bad.filter (fun b => !replaced b), weak := s.weak.filter (fun b => !replaced b) }

/-- Accesses of size bytes at these addresses: a stall on a PHASE drain (R233), the first fault (R216, R226), or what follows with every access allowed. The stall stands behind the check of alignment and before the others, whichever lane stalls and whichever would fault (DESIGN CHOICE, log 106). -/
def State.access (s : State) (want : Want) (size : Nat) (vas : List Word) (k : State → Eff) : Eff :=
  let n := s.node
  let stalls := if vas.all (fun va => va.toNat % size == 0) then s.drainStalls n vas else 0
  if s.busy then .stall s
  else if stalls ≠ 0 then .stall (s.stallDrain stalls)
  else
    match s.assured.lanesFault n want size vas with
    | some (cause, va) => .trap cause va
    | none => k ((if want.r then s.behind n s.me size vas else s).noteData n want.r size vas)

/-- Everything that the current sequencer issued before has retired (R82, R91). -/
def State.allRetired (s : State) : Bool :=
  let c := s.myCore
  let q := s.mySeq
  let engines : Bool :=
    match s.me with
    | .ld => c.ldq.isEmpty
    | .cp => c.reel.isNone && c.clst.isNone && c.snap.isEmpty
    | .st => c.stq.isEmpty
    | .ct => c.nest.isNone && (isDcc s.node || (match (s.bay (bayOf s.node)).drain with | some d => d.node != s.node | none => true))
  q.flights.isEmpty && q.queue.isEmpty && (isDcc s.node || engines)

end Sys2Proof.Machine
end

