-- ==== Sys2Proof/Machine/Flags.lean ====
section
/-! DEFINITION. Flags and the write forms: FPCTL, FPSTAT and the FP trap (R142 to R144), ATFLAGS (R289), and how a CP instruction writes the matrix file and is charged for it (R105 to R109). -/

namespace Sys2Proof.Machine

/-! ## FPCTL and FPSTAT -/

/-- FPCTL.RM and FTZ of the current sequencer. -/
def State.fpEnv (s : State) : FpEnv :=
  let v := (s.mySeq.sysreg 0x060).toNat
  ⟨v % 4, v / 4 % 2 == 1⟩

/-- FPCTL.TE. -/
def State.fpTraps (s : State) : Nat := (s.mySeq.sysreg 0x060).toNat / 256 % 32

/-- Flags with the lane that raises them. -/
abbrev FpEvent := Nat × Nat

/-- Every flag that the events raise. -/
def allFlags (l : List FpEvent) : Nat := l.foldl (fun a p => a ||| p.2) 0

/-- The lowest lane that raises one of the enabled flags (R144). -/
def trapLane (te : Nat) (l : List FpEvent) : Nat :=
  ((l.filter (fun p => p.2 &&& te != 0)).map (fun p => p.1)).foldl min 127

/-- Flags join FPSTAT (R143). -/
def State.addFlags (s : State) (fl : Nat) : State :=
  if fl = 0 then s else s.modMe (fun q => q.setSys 0x061 (q.sysreg 0x061 ||| BitVec.ofNat 64 fl))

/-- Raises cause 0x30 with nothing done where an enabled flag is raised (R144), or adds the flags and goes on. -/
def State.withFlags (s : State) (l : List FpEvent) (k : State → Eff) : Eff :=
  let fl := allFlags l
  let te := s.fpTraps
  if fl &&& te ≠ 0 then .trap 0x30 (BitVec.ofNat 64 (fl + 256 * trapLane te l))
  else k (s.addFlags fl)

/-- Flags of an atomic join ATFLAGS of a sequencer (R289). -/
def State.addAtFlags (s : State) (n : Nat) (q : SeqId) (fl : Nat) : State :=
  if fl = 0 then s else s.modSeq n q (fun v => v.setSys 0x200 (v.sysreg 0x200 ||| BitVec.ofNat 64 fl))

/-! ## Writing the matrix file (R105 to R109) -/

/-- The active lanes of the current sequencer. -/
def State.lanes (s : State) : List Nat := List.range s.mySeq.vlen

/-- Some source of these reads, in the same lane, a cell of lane i of d (R107). -/
def overlapsIn (d : BitVec 12) (srcs : List (BitVec 12)) (i : Nat) : Bool := srcs.any (fun o => laneMeets d o i)

/-- Bits charged for a write of these lanes: all old bits under overwrite, those of overlapping lanes under XOR. -/
def Core.writeCharge (c : Core) (e : Bool) (d : BitVec 12) (meets : Nat → Bool) (lanes : List Nat) : Nat :=
  lanes.foldl (fun b i => if e || meets i then b + c.laneBits d i else b) 0

/-- The write of w-bit results in the XOR or the overwrite form, with its charge (R105, R106, R107). -/
def State.writeLanes (s : State) (e : Bool) (d : BitVec 12) (w : Nat) (meets : Nat → Bool) (vals : List (Nat × Nat)) : Done :=
  { st := s.charge s.node (s.myCore.writeCharge e d meets (vals.map (fun p => p.1))),
    lands := [{ field := d, width := w, e := e, lanes := vals.map (fun p => (p.1, BitVec.ofNat 64 p.2)) }] }

/-- An in-place change of lanes: each lane's old and new value, without charge (R106). -/
def changeLanes (d : BitVec 12) (w : Nat) (vals : List (Nat × Nat × Nat)) : Land :=
  { field := d, width := w, e := false, lanes := vals.map (fun p => (p.1, BitVec.ofNat 64 (p.2.1 ^^^ p.2.2))) }

/-- A vector instruction: the lane result over the active lanes, written to D. -/
def vecResult (s : State) (f : Fields) (w : Nat) (srcs : List (BitVec 12)) (lane : Nat → Nat) : Eff :=
  .done (s.writeLanes f.e f.d w (overlapsIn f.d srcs) (s.lanes.map (fun i => (i, lane i))))

/-- A floating-point instruction: the lane result with its flags over the active lanes, written to D as w bits. -/
def fpResult (s : State) (f : Fields) (w : Nat) (srcs : List (BitVec 12)) (lane : Nat → FpOut) : Eff :=
  let outs := s.lanes.map (fun i => (i, lane i))
  s.withFlags (outs.map (fun p => (p.1, p.2.fl))) (fun t =>
    .done (t.writeLanes f.e f.d w (overlapsIn f.d srcs) (outs.map (fun p => (p.1, p.2.bits)))))

end Sys2Proof.Machine
end

