-- ==== Sys2Proof/Machine/SysWrite.lean ====
section
/-! DEFINITION. Writes of system registers: by MTS and MTP, and by the runtime's events (R86, R280, R281, R315, R316, R405). -/

namespace Sys2Proof.Machine

/-- A write of FQBASE or FQCFG: HEAD and TAIL to 0; that of FQBASE latches the writer's PTROOT, and its key (R315, R380). -/
def State.writeFqSetup (s : State) (writer stack num : Nat) (v : Word) : State :=
  let k := s.stack stack
  match regInfo num with
  | none => s
  | some r =>
    let k1 := ((k.setSys num (mergeWrite r (k.sysreg num) v)).setSys 0x2B2 0).setSys 0x2B3 0
    (s.setStack stack { k1 with
      fqRoot := if num = 0x2B0 then (s.core writer).sysreg 0x2A0 else k.fqRoot
      fqKey := if num = 0x2B0 then (s.core writer).ctxKey else k.fqKey }).flushStack stack

/-- A write of FQHEAD, taken modulo the ring's size; entries that waited for room are written (R315). -/
def State.writeFqHead (s : State) (stack : Nat) (v : Word) : State :=
  let k := s.stack stack
  (s.setStack stack (k.setSys 0x2B2 (BitVec.ofNat 64 (v.toNat % 4096 % k.fqSize)))).flushStack stack

/-- A ring after a write of RNGCFG: SLOT and COUNT as written, everything else reset (R280). -/
def Ring.configure (r : Ring) (v : Word) : Ring :=
  let w := match regInfo 0x203 with | some i => mergeWrite i 0 v | none => 0
  { Ring.reset with base := r.base, slot := w.toNat % 2 ^ 24, count := w.toNat / 2 ^ 32 }

/-- A buffer ring after a write of BUFCFG: SIZE and COUNT as written, HEAD and HELD 0 (R281). -/
def Buf.configure (b : Buf) (v : Word) : Buf :=
  let w := match regInfo 0x20A with | some i => mergeWrite i 0 v | none => 0
  { base := b.base, size := w.toNat % 2 ^ 24, count := w.toNat / 2 ^ 32, head := 0, held := 0 }

/-- The entry that RNGSEL, and the buffer ring that BUFSEL, selects. -/
def Seq.rngsel (q : Seq) : Nat := (q.sysreg 0x201).toNat
def Seq.bufsel (q : Seq) : Nat := (q.sysreg 0x208).toNat

/-- A write of a register held per bay (R280). -/
def State.writeBayReg (s : State) (n : Nat) (q : SeqId) (num : Nat) (v : Word) : State :=
  if isDcc n then s
  else
    let b := s.bay (bayOf n)
    let e := (s.seq n q).rngsel
    let r := b.ring e
    match num with
    | 0x202 => s.setBay (bayOf n) (b.setRing e { r with base := BitVec.ofNat 64 (v.toNat % 2 ^ 55) })
    | 0x203 => s.setBay (bayOf n) (b.setRing e (r.configure v))
    | _ => s

/-- A write of a register held per core or per context (R217, R281). -/
def Core.writeReg (c : Core) (q : SeqId) (num : Nat) (v : Word) : Core :=
  let e := (c.seqs.get q).bufsel
  match num with
  | 0x209 => c.setBuf e { c.buf e with base := v }
  | 0x20A => c.setBuf e ((c.buf e).configure v)
  | _ => c.putReg num v

/-- A write of a register held per sequencer. -/
def State.writeSeqReg (s : State) (n : Nat) (q : SeqId) (num : Nat) (r : RegInfo) (v : Word) : State :=
  s.modSeq n q (fun k => k.setSys num (mergeWrite r (s.readSeqReg n q num) v))

/-- A write of a register held per stack (R315). -/
def State.writeStackReg (s : State) (writer n num : Nat) (r : RegInfo) (v : Word) : State :=
  let stack := stackOf n
  let k := s.stack stack
  match num with
  | 0x2B0 => s.writeFqSetup writer stack num v
  | 0x2B1 => s.writeFqSetup writer stack num v
  | 0x2B2 => s.writeFqHead stack v
  | _ => s.setStack stack (k.setSys num (mergeWrite r (k.sysreg num) v))

/-- A write of a system register of node n and sequencer q by a context on node writer: writable fields taken, sticky bits cleared where 1, the rest unchanged; nothing for a register all of whose fields are RO (R86, R324). -/
def State.writeReg (s : State) (writer n : Nat) (q : SeqId) (num : Nat) (v : Word) : State :=
  match regInfo num with
  | none => s
  | some r =>
    if regReadOnly r then s
    else
      match r.home with
      | .seq => s.writeSeqReg n q num r v
      | .core => s.modCore n (fun c => c.writeReg q num v)
      | .bay => s.writeBayReg n q num v
      | .quad => s
      | .stack => s.writeStackReg writer n num r v
      | .pkg => s

/-- A context's placement holds all four cores of a node's bay (R233, R280). -/
def State.holdsBay (s : State) (n : Nat) : Bool :=
  !isDcc n && (List.range 4).all (fun i => (s.core n).placement.contains (4 * bayOf n + i))

/-- The registers whose write by MTS needs the whole bay (R280). -/
def needsBay (num : Nat) : Bool := num == 0x202 || num == 0x203

end Sys2Proof.Machine
end

