-- ==== Sys2Proof/Machine/Permit.lean ====
section
/-! DEFINITION. Pour permits (R351 to R353, R356): weights, requests in order, grants, leases and releases; and the copy freeze (R235), which every engine shares. -/

namespace Sys2Proof.Machine

/-- Weight of a nest or a reel at an effective ramp class (Table 17.1). -/
def classWeight (rc : Nat) : Nat :=
  match rc with
  | 0 => 16
  | 1 => 5
  | 2 => 3
  | 3 => 2
  | _ => 1

/-- A request fits the budget now (R351). -/
def Quad.fits (k : Quad) (weight : Nat) : Bool := decide (k.used + weight ≤ k.budget)

/-- End of a lease that begins now: PLEASE microseconds of the 1.0 GHz control clock; none for REELON and CLST (R353). -/
def State.leaseEnd (s : State) (n : Nat) (h : Holder) : Option Nat :=
  match h with
  | .reel => none
  | .collective => none
  | _ => some ((s.stack (stackOf n)).clock + 1000 * ((s.quad (quadOf n)).sysreg 0x307).toNat)

/-- A permit of an instruction of sequencer q of node n that it has not taken. -/
def Permit.mine (p : Permit) (n : Nat) (q : SeqId) : Bool := p.node == n && p.seq == q && p.waiting

/-- Removes the first element that satisfies a condition. -/
def dropFirst {α : Type} (test : α → Bool) (l : List α) : List α :=
  match l with
  | [] => []
  | x :: r => if test x then r else x :: dropFirst test r

/-- A permit is granted, beside the requests that stay. -/
def State.addGrant (s : State) (quad : Nat) (asks : List Permit) (p : Permit) : State :=
  let k := s.quad quad
  (s.setQuad quad { k with asks := asks, grants := k.grants ++ [p] }).notePermit p .grant

/-- A request comes before another of the same cycle: a lower core, or a lower sequencer number (R352). -/
def Permit.precedes (p g : Permit) : Bool := decide (p.node < g.node) || (p.node == g.node && decide (seqNum p.seq < seqNum g.seq))

/-- A request in its place among those of its cycle. -/
def placeAsk (p : Permit) (l : List Permit) : List Permit :=
  match l with
  | [] => [p]
  | g :: r => if p.precedes g then p :: g :: r else g :: placeAsk p r

/-- A request joins its quadrant's queue, behind those of earlier cycles (R352). -/
def State.addAsk (s : State) (quad : Nat) (p : Permit) : State :=
  let k := s.quad quad
  let old := k.asks.length - k.late
  (s.setQuad quad { k with asks := k.asks.take old ++ placeAsk p (k.asks.drop old), late := k.late + 1 }).notePermit p .request

/-- The permit that the current sequencer asks for, as it holds it from now on. -/
def State.permitNow (s : State) (h : Holder) (weight : Nat) : Permit :=
  { node := s.node, seq := s.me, holder := h, weight := weight, ends := s.leaseEnd s.node h, waiting := false, tag := s.nextTag }

/-- The current instruction asks for a permit, or waits for it (kind 0x08), or goes on with it taken (R352). -/
def State.withPermit (s : State) (h : Holder) (weight : Nat) (k : State → Eff) : Eff :=
  let n := s.node
  let q := s.me
  let qk := quadOf n
  let qd := s.quad qk
  let held := s.permitNow h weight
  let ask : Permit := { held with ends := none, waiting := true }
  let id : Word := BitVec.ofNat 64 (qk % 4)
  match qd.grants.find? (fun p => p.mine n q) with
  | some p =>
    k (s.setQuad qk { qd with grants := (dropFirst (fun g => g.mine n q) qd.grants) ++ [{ p with waiting := false, tag := s.nextTag }] })
  | none =>
    match qd.asks with
    | [] =>
      if qd.fits weight then k ((s.notePermit ask .request).addGrant qk [] held)
      else .waitWith (s.addAsk qk ask) 0x08 id
    | a :: rest =>
      if a.mine n q ∧ qd.fits a.weight then k (s.addGrant qk rest { held with weight := a.weight })
      else if qd.asks.any (fun p => p.mine n q) then .wait 0x08 id
      else .waitWith (s.addAsk qk ask) 0x08 id

/-- Releases the first permit that a test names. -/
def State.releaseFirst (s : State) (quad : Nat) (test : Permit → Bool) : State :=
  let qd := s.quad quad
  match qd.grants.find? test with
  | some p => (s.setQuad quad { qd with grants := dropFirst test qd.grants }).notePermit p .release
  | none => s

/-- Releases a permit that an operation holds. -/
def State.releasePermit (s : State) (n : Nat) (q : SeqId) (h : Holder) : State :=
  s.releaseFirst (quadOf n) (fun g => g.node == n && g.seq == q && g.holder == h && !g.waiting)

/-- Releases the permit of a transfer (R353). -/
def State.releaseTransfer (s : State) (n : Nat) (q : SeqId) (tag : Nat) : State :=
  s.releaseFirst (quadOf n) (fun g => g.node == n && g.seq == q && g.holder == .copy && !g.waiting && g.tag == tag)

/-- An engine's request, at the tail. -/
def State.askAgain (s : State) (n : Nat) (q : SeqId) (h : Holder) (weight tag : Nat) : State :=
  s.addAsk (quadOf n) { node := n, seq := q, holder := h, weight := weight, ends := none, waiting := false, tag := tag }

/-- Releases it and asks again at the tail (R353). -/
def State.reaskPermit (s : State) (n : Nat) (q : SeqId) (h : Holder) (weight : Nat) : State :=
  (s.releasePermit n q h).askAgain n q h weight 0

/-- The same for the permit of a transfer. -/
def State.reaskTransfer (s : State) (n : Nat) (q : SeqId) (tag : Nat) : State :=
  (s.releaseTransfer n q tag).askAgain n q .copy 2 tag

/-- Takes an engine's request back. -/
def State.withdrawAsk (s : State) (n : Nat) (q : SeqId) (h : Holder) : State :=
  s.setQuad (quadOf n) ((s.quad (quadOf n)).dropAsks (fun p => p.node == n && p.seq == q && p.holder == h && !p.waiting))

/-- PHOLD after a grant of an explicit permit (R356). -/
def Seq.setHold (q : Seq) (weight : Nat) : Seq := q.setSys 0x305 (BitVec.ofNat 64 (weight + 256))

/-- PHOLD after a release: nothing held, EXP as given or kept. -/
def Seq.clearHold (q : Seq) (expired : Bool) : Seq :=
  q.setSys 0x305 (if expired then 0x200 else q.sysreg 0x305 &&& 0x200)

/-- PHOLD.HELD. -/
def Seq.holdsPermit (q : Seq) : Bool := (q.sysreg 0x305).getLsbD 8

/-- Releases the explicit permit of a sequencer that halts, is killed, or says PREL (R356). -/
def State.dropExplicit (s : State) (n : Nat) (q : SeqId) : State :=
  if isDcc n || !(s.seq n q).holdsPermit then s
  else (s.releasePermit n q .explicit).modSeq n q (fun v => v.clearHold false)

/-! ## Open choices -/

/-- One of several, by a free value. -/
def State.pick (s : State) (l : List Nat) : Nat := l.getD ((Config.freeWord s.fresh).toNat % max l.length 1) 0

/-! ## Engines -/

/-- A loop nest or a reel holds the array (R186). -/
def Core.arrayHeld (c : Core) : Bool := c.nest.isSome || c.reel.isSome

/-- A pass occupies the array, which accepts no further one (R172, R185). A beat of a reel starts whatever is left of an earlier pass, since R200 lists all that it asks (DEDUCED, log 126). -/
def Core.arrayBusy (c : Core) : Bool :=
  match c.arrayAt with
  | some moment => !reached c.cycle moment
  | none => false

/-- A pass begins in this cycle, with an array occupancy of 4 cycles for E4M3 and 8 for INT8 at stretch k (R172, Table 8.5). -/
def Core.takeArray (c : Core) (elem k : Nat) : Core :=
  { c with arrayAt := some (c.cycle + BitVec.ofNat 64 ((if elem = 0 then 4 else 8) * k)) }

/-- The core freezes on a fault of a transfer or of a nest, and the stack's fault queue gets an entry (R235). -/
def State.freezeCore (s : State) (n : Nat) (q : SeqId) (fz : Freeze) (cause : Nat) (va pc : Word) (chunk : Nat) : State :=
  let c := s.core n
  let e : FqEntry :=
    { cause := cause, seq := seqNum q, freeze := true, straddle := false, nest := (s.seq n q).inh, ctx := c.ctxTag, core := n, ipc := pc,
      rpc := (s.seq n q).pc, info := va, chunk := chunk, cycle := c.cycle }
  ((s.noteBad n cause va).modCore n (fun c => { c with freeze := some fz })).postFault n e

/-- One access that an engine makes. -/
structure Acc where
  want : Want
  va   : Word
  size : Nat
  deriving DecidableEq, Repr

/-- How an engine's accesses fare. -/
inductive Judged where
  | stalls (count : Nat)
  | fault (cause : Nat) (va : Word)
  | allowed
  deriving DecidableEq, Repr

/-- Each access judged by itself, in order; a misaligned one stands before any stall on a drain (R216, R229, R233, R286), and such a stall before every other fault (DESIGN CHOICE, log 106). The order of the accesses of a chunk, its reads first, is the model's (DESIGN CHOICE, log 91). -/
def State.judge (s : State) (n : Nat) (l : List Acc) : Judged :=
  let stalls := if l.all (fun a => a.va.toNat % a.size == 0) then
      (l.filter (fun a => match s.xlate n a.va with | some x => s.drainHit (x.addr a.va) | none => false)).length
    else 0
  if stalls ≠ 0 then .stalls stalls
  else
    match (l.filterMap (fun a =>
        let f := s.accessFault n a.want a.va a.size
        f.map (fun x => (x.2, s.faultAddr n a.va f)))).head? with
    | some (cause, va) => .fault cause va
    | none => .allowed

/-- Accesses that atomics make, judged location by location: the checks of R216 up to a stage, then the places where they may execute, then the others; a translation that an uncorrectable table entry ends is a check before all places (R271, R286, R378). -/
def State.judgeAtoms (s : State) (n stage : Nat) (ok : Word → Bool) (l : List Acc) : Judged :=
  match s.judge n (l.map (fun a => { a with want := {} })) with
  | .stalls k => .stalls k
  | _ =>
    match (l.filterMap (fun a =>
        let f := s.accessFault n a.want a.va a.size
        let cause :=
          match f with
          | some (st, c) => if st ≤ stage ∨ st = 8 ∨ ok a.va ∨ (s.xlate n a.va).isNone then some c else some 0x11
          | none => if ok a.va then none else some 0x11
        cause.map (fun c => (c, if c = 0x18 then s.faultAddr n a.va f else a.va)))).head? with
    | some (cause, va) => .fault cause va
    | none => .allowed

/-- An instruction whose accesses, all of one size, have been judged: it stalls, faults, or goes on; before atomics the older writes of their path classes are performed (R242, R250), before reads those of the same bytes (R240). -/
def State.judged (s : State) (l : List Acc) (j : Judged) (k : State → Eff) : Eff :=
  let vas := l.map (fun a => a.va)
  let size := match l with | a :: _ => a.size | [] => 4
  if s.busy then .stall s
  else
    match j with
    | .stalls n => .stall (s.stallDrain n)
    | .fault cause va => .trap cause va
    | .allowed =>
      k ((if l.any (fun a => a.want.w) then s.behindWrites s.node s.me vas else s.behind s.node s.me size vas).noteData s.node true size vas)

/-- Adds to PHSTALL. -/
def Core.countStalls (c : Core) (k : Nat) : Core := c.setSys 0x340 (c.sysreg 0x340 + BitVec.ofNat 64 k)

/-- A write that an engine performs. -/
def State.engineWrite (s : State) (n : Nat) (va : Word) (size : Nat) (v : Word) : State := s.performAll (s.mkStore n va size v)

/-- Lanes of the matrix file written from outside CP: the owner is charged, and every cell is written at once, wholly after the results of CP in flight that meet it (R133). -/
def State.loadLanes (s : State) (n : Nat) (e : Bool) (o : BitVec 12) (w : Nat) (meets : Nat → Bool) (vals : List (Nat × Word)) : State :=
  let c := (s.core n).landMet (fun k => vals.any (fun p => (laneCells o p.1).contains k))
  let bits := c.writeCharge e o meets (vals.map (fun p => p.1))
  (s.setCore n (c.land { field := o, width := w, e := e, lanes := vals })).charge n bits

/-! ## Stream registers -/

/-- The sixteen words of stream register q. -/
def Core.stream (c : Core) (q : Nat) : List W32 := (List.range 16).map (fun j => Tab.get c.streams (16 * (q % 16) + j) 0)

def word (d : List W32) (k : Nat) : Nat := (d.getD k 0).toNat
def word64 (d : List W32) (k : Nat) : Word := BitVec.ofNat 64 (word d k + 2 ^ 32 * word d (k + 1))
/-- A two's complement word as a 64-bit step. -/
def wordStep (d : List W32) (k : Nat) : Word := (d.getD k 0).signExtend 64

/-- BASE, PITCH, FMT, SCALED (Table 10.4). -/
def streamBase (d : List W32) : Word := word64 d 0
def streamPitch (d : List W32) : Word := wordStep d 2
def streamFmt (d : List W32) : Nat := word d 3 % 16
def streamScaled (d : List W32) : Bool := word d 3 / 16 % 2 == 1

/-- The byte offset of the first offending word of a descriptor (R223, R259). -/
def streamFault (d : List W32) : Option Nat :=
  if word d 1 / 2 ^ 23 ≠ 0 then some 4
  else if word d 3 &&& 0xFFE0E0E0 ≠ 0 ∨ 14 ≤ streamFmt d ∨ (streamScaled d ∧ word d 4 % 4 ≠ 0) then some 12
  else if word d 5 / 2 ^ 23 ≠ 0 then some 20
  else
    match (List.range 8).find? (fun j => word d (8 + j) != 0) with
    | some j => some (32 + 4 * j)
    | none => none

/-- The index of the scale of an element (R191). -/
def scaleIndex (d : List W32) (row col : Nat) : Nat :=
  (row >>> (word d 3 / 256 % 32)) * word d 6 + col >>> (word d 3 / 65536 % 32)

/-- The address of a scale. -/
def scaleAddr (d : List W32) (index : Nat) : Word := word64 d 4 + BitVec.ofNat 64 (4 * index)

/-- UFADDR of a descriptor of stream q that fails its check (R223). -/
def streamAddr (q off : Nat) : Word := BitVec.ofNat 64 (0x1000 + 64 * (q % 16) + off)

end Sys2Proof.Machine
end

