-- ==== Sys2Proof/Machine/Board.lean ====
section
/-! DEFINITION. The scoreboard of a stack (R338, R342, R343): its entries, signals as the stream controller reads and updates them (R335), failing and ending, and the chunks of stream transfers (R341). -/

namespace Sys2Proof.Machine

/-! ## Entries -/

/-- The handle of an entry: sequence number, and logical stack at [49:48] (R338). -/
def Entry.handle (e : Entry) : Nat := e.num % 2 ^ 48 + 2 ^ 48 * e.lstk

/-- An 8-byte word of a descriptor, by byte offset. -/
def Entry.at (e : Entry) (off : Nat) : Word := word64 e.desc (off / 4)
/-- Bits [hi:lo] of an 8-byte word of a descriptor. -/
def Entry.bits (e : Entry) (off hi lo : Nat) : Nat := (e.at off).toNat / 2 ^ lo % 2 ^ (hi + 1 - lo)

/-- The word that holds BAR, LSTK and GROUP: 0x08 of a kernel descriptor, 0x10 of a stream descriptor (Tables 16.4, 16.5). -/
def Entry.bar (e : Entry) : Bool := if e.kernel then e.bits 0x08 26 26 == 1 else e.bits 0x10 41 41 == 1
def Entry.group (e : Entry) : Nat := if e.kernel then e.bits 0x08 63 52 else e.bits 0x10 63 52
def Entry.doneAt (e : Entry) : Word := if e.kernel then e.at 0x30 else e.at 0x18
/-- The wait signals a kernel names. -/
def Entry.waits (e : Entry) : List Word := if e.kernel then [e.at 0x18, e.at 0x20, e.at 0x28].filter (fun v => v != 0) else []

/-- An entry comes before another: the same logical stack, a lower number (R338). -/
def Entry.before (a b : Entry) : Bool := a.lstk == b.lstk && decide (a.num < b.num)

/-- An entry is promoted once 2^20 control-clock cycles have passed since it entered (R343). -/
def Entry.isPromoted (e : Entry) (clock : Nat) : Bool := e.promoted || decide (e.entered + 2 ^ 20 ≤ (clock : Int))

def Stack.entry (k : Stack) (h : Nat) : Option Entry := k.board.find? (fun e => e.handle == h)
def Stack.dropEntry (k : Stack) (h : Nat) : Stack := { k with board := k.board.filter (fun e => e.handle != h) }
def Stack.setEntry (k : Stack) (e : Entry) : Stack := { k with board := k.board.map (fun x => if x.handle = e.handle then e else x) }

/-- The physical stack of a logical stack of a package (R334). -/
def State.stackFor (s : State) (pkg lstk : Nat) : Nat := 4 * pkg + ((s.pkg pkg).sysreg 0x402).toNat / 4 ^ lstk % 4

/-! ## Accesses of the controller, under the issuing context's PTROOT -/

/-- The state as an entry's accesses see it: its die control core with the PTROOT of the issue. -/
def State.asIssuer (s : State) (e : Entry) : State := s.modCore e.node (fun c => c.setSys 0x2A0 e.root)

/-- The state after such accesses, with the die control core's own PTROOT. -/
def State.backFrom (s : State) (e : Entry) (old : State) : State :=
  let t := (old.core e.node).sys
  s.modCore e.node (fun c =>
    { c with sys := if Tab.has t 0x2A0 then Tab.put c.sys 0x2A0 ((old.core e.node).sysreg 0x2A0) else Tab.del c.sys 0x2A0 })

/-- A signal lies in a range that a PHASE drain moves: an access of the controller to it stalls until the drain ends (R233, R335). -/
def State.signalDrains (s : State) (e : Entry) (va : Word) : Bool := (s.asIssuer e).drainStalls e.node [va] != 0

/-- The update of the entry's completion signal stalls on a drain. -/
def State.doneDrains (s : State) (e : Entry) : Bool := e.doneAt != 0 && s.signalDrains e e.doneAt

/-- The value of a signal, where it can be read now. -/
def State.signal (s : State) (e : Entry) (va : Word) : Option Word :=
  let t := s.asIssuer e
  if s.signalDrains e va || (t.accessFault e.node Want.load va 8).isSome then none else some (BitVec.ofNat 64 (t.load e.node va 8))

/-- What reads of the controller leave beside their data: the symbols corrected, each counted in VLTCOR (R378). -/
def State.noteController (s : State) (e : Entry) (size : Nat) (vas : List Word) : State :=
  if s.weak.isEmpty then s else ((s.asIssuer e).wordsRead e.node size vas).foldl State.correct s

/-- The node in whose queue for ST a stack's controller keeps its posted writes: die control core 0, which has no ST of its own. -/
def ctrlNode (stack : Nat) : Nat := dccKey (stack / 4) (stack % 4) 0

/-- The controller's posted writes are performed: none of its reads passes one (R308). -/
def State.flushPosted (s : State) (stack : Nat) : State := s.drainQueue (ctrlNode stack) .st

/-- The physical address of the entry's completion signal is one of host memory, and what is sent stays in flight. -/
def State.posts (s : State) (e : Entry) : Bool :=
  s.hold && (match (s.asIssuer e).xlate e.node e.doneAt with | some x => decide (4 ≤ paSpace (x.addr e.doneAt) ∧ paSpace (x.addr e.doneAt) ≤ 7) | none => false)

/-- The controller writes an entry's completion signal: at once, or by a posted write to host memory (R335). -/
def State.putSignal (s : State) (stack : Nat) (e : Entry) (v : Word) : State :=
  let l := (s.asIssuer e).mkStore e.node e.doneAt 8 v
  if s.posts e then s.modSeq (ctrlNode stack) .st (fun q => { q with queue := q.queue ++ tagStores s.nextTag l })
  else ((s.asIssuer e).performAll l).backFrom e s

/-- Update by success: a positive signal goes down by one (R335). -/
def State.succeed (s : State) (stack : Nat) (e : Entry) : State :=
  if e.doneAt = 0 then s
  else
    match s.signal e e.doneAt with
    | none => s
    | some v =>
      let t := s.noteController e 8 [e.doneAt]
      if (0 : Int) < v.toInt then t.putSignal stack e (v - 1) else t

/-- Update by failure: −1 is written (R335). -/
def State.failSignal (s : State) (stack : Nat) (e : Entry) : State :=
  if e.doneAt = 0 ∨ (s.signal e e.doneAt).isNone then s else s.putSignal stack e 0xFFFFFFFFFFFFFFFF

/-- An entry whose completion signal has been updated leaves the scoreboard, once a posted write of it has been performed (R338). -/
def State.leaveBoard (s : State) (stack : Nat) (e : Entry) (old : State) : State :=
  if old.posts e then
    { s.setStack stack ((s.stack stack).setEntry { e with issued := true, sent := some old.nextTag }) with nextTag := s.nextTag + 1 }
  else s.setStack stack ((s.stack stack).dropEntry e.handle)

/-- The entry ends failed: DONE is −1, LFAIL counts it, it leaves the scoreboard (R347); not while the update of DONE stalls on a drain. -/
def State.failEntry (s : State) (stack : Nat) (e : Entry) : State :=
  if s.doneDrains e then s
  else
  let t := (s.failSignal stack e).leaveBoard stack e s
  t.setStack stack ((t.stack stack).setSys 0x403 ((t.stack stack).sysreg 0x403 + 1))

/-- The entry ends well: DONE is updated by success, it leaves the scoreboard (R346). -/
def State.endEntry (s : State) (stack : Nat) (e : Entry) : State := (s.succeed stack e).leaveBoard stack e s

/-- A fault of the controller goes to the stack's fault queue with its cause and address; what the spec does not state of the entry is free (R341, R345; DESIGN CHOICE, log 49). -/
def State.controllerFault (s : State) (stack : Nat) (e : Entry) (cause : Nat) (info : Word) : State :=
  let w (k : Nat) : Word := Config.freeWord (s.fresh + k)
  let q : FqEntry :=
    { cause := cause, seq := (w 0).toNat % 4, freeze := (w 0).getLsbD 2, straddle := (w 0).getLsbD 3, nest := (w 0).getLsbD 4,
      ctx := e.root.toNat % 65536, core := (w 1).toNat % 2 ^ 22, ipc := w 2, rpc := w 3, info := info, chunk := (w 4).toNat, cycle := w 5 }
  ({ s with fresh := s.fresh + 6 } : State).postFault (ctrlNode stack) q

/-! ## When an entry may issue (R342) -/

/-- Conditions 2 and 3: no unfinished earlier barrier, nothing earlier at all for a barrier, no earlier stream transfer of the group. -/
def Stack.clear (k : Stack) (e : Entry) : Bool :=
  let earlier := k.board.filter (fun x => x.before e && x.sent.isNone)
  !(earlier.any (fun x => x.bar)) && (!e.bar || earlier.isEmpty) &&
    !(e.group != 0 && earlier.any (fun x => !x.kernel && x.group == e.group))

/-- Condition 1: every wait signal is met; one that cannot be read is not (DEDUCED, log 50). -/
def State.waitsMet (s : State) (e : Entry) : Bool := e.waits.all (fun va => s.signal e va == some 0)

/-- A wait signal is failed. -/
def State.waitsFailed (s : State) (e : Entry) : Bool :=
  e.waits.any (fun va => match s.signal e va with | some v => decide (v.toInt < 0) | none => false)

/-! ## Stream transfers (R341) -/

/-- What a stream transfer copies. -/
def Entry.copyLen (e : Entry) : Nat := e.bits 0x10 39 0
def Entry.resident (e : Entry) : Bool := e.bits 0x10 40 40 == 1

/-- An issued transfer that still has chunks to run. -/
def Entry.streaming (e : Entry) : Bool :=
  !e.kernel && e.issued && e.sent.isNone && !e.resident && decide (e.chunk < if e.copyLen = 0 then 0 else ((e.at 0x08).toNat % 4096 + e.copyLen + 4095) / 4096)

end Sys2Proof.Machine
end

