-- ==== Sys2Proof/Machine/Fetch.lean ====
section
/-! DEFINITION. What a step does before an instruction issues: delivered cycles, fetching and its faults (R26, R50, R51, R69), what comes before the checks of Table 2.9 (R208, R320, R325), and placing an instruction for the host's question. -/

noncomputable section

namespace Sys2Proof.Machine

/-! ## Delivered cycles (R22) -/

/-- The core receives delivered cycles: its context is resident, and it is not frozen (R22). -/
def Core.counts (c : Core) : Bool := c.ctx.isSome && c.freeze.isNone

/-- A core receives cycles in the state: a fatal error of its package ends that (R22, R382). -/
def State.delivers (s : State) (n : Nat) : Bool := (s.core n).counts && (s.pkg (pkgOf n)).fatal.isNone

/-- Delivered to node n's clock domain is delivered to node k: a quadrant is one domain (R22), and so are the die control cores of a stack (DESIGN CHOICE, log 71). -/
def ticksWith (n k : Nat) : Bool := if isDcc n then isDcc k && stackOf k == stackOf n else !isDcc k && quadOf k == quadOf n

/-- One cycle is delivered to the domain of node n; in it every core may arbitrate again (R94). -/
def State.tick (s : State) (n : Nat) : State :=
  let t : State := { s with cores := s.cores.map (fun p =>
    if ticksWith n p.1 && p.2.counts && (s.pkg (pkgOf p.1)).fatal.isNone then (p.1, { p.2 with cycle := p.2.cycle + 1 }) else p) }
  if isDcc n then t.setStack (stackOf n) { t.stack (stackOf n) with turn := 0 }
  else t.setQuad (quadOf n) { t.quad (quadOf n) with late := 0, turn := 0 }

/-- The control clock of node n's stack goes on by ctrl cycles. -/
def State.tickControl (s : State) (n ctrl : Nat) : State :=
  if ctrl = 0 then s else s.setStack (stackOf n) { s.stack (stackOf n) with clock := (s.stack (stackOf n)).clock + ctrl }

/-! ## Fetching -/

/-- A PC below this fetches from the code store (R69). -/
def codeStoreSize : Nat := 0x20000

/-- The cause of a fetch that fails at this byte: 0x08, 0x09 or 0x0B (R28, Table 2.3). A byte of a page that maps an on-chip window, which the size rule or the placement of R216 refuses, has cause 0x09, judged byte by byte (DESIGN CHOICE, log 116). -/
def State.fetchFault (s : State) (n : Nat) (pc : Word) : Option Nat :=
  if pc.toNat < codeStoreSize then (if s.isBad (codeAddr n pc.toNat) 1 then some 0x0B else none)
  else
    match s.accessFault n { x := true } pc 1 with
    | none =>
      match s.xlate n pc with
      | some x => if s.isBad (x.addr pc) 1 then some 0x0B else none
      | none => some 0x08
    | some (st, _) => if st ≤ 2 then some 0x08 else if 7 ≤ st then some 0x0B else some 0x09

/-- The byte that a fetch reads. -/
def State.fetchByte (s : State) (n : Nat) (pc : Word) : Byte :=
  if pc.toNat < codeStoreSize then Memory.get s.mem (codeAddr n pc.toNat) else BitVec.ofNat 8 (s.load n pc 1)

/-- The first byte after the first that cannot be fetched, with its cause. -/
def State.fetchRest (s : State) (n : Nat) (pc : Word) (len : Nat) : Option (Word × Nat) :=
  ((List.range len).filterMap (fun i =>
    let a := pc + BitVec.ofNat 64 i
    match s.fetchFault n a with
    | some c => some (a, c)
    | none => none)).head?

/-- The address of the first byte of a page. -/
def pageOf (a : Word) : Word := a &&& 0xFFFFFFFFFFFF0000

/-- What an expanded word says: an instruction, an undefined opcode (R42), or a fault mark. -/
inductive Fetched where
  | word (i : Instr) (len : Nat)
  | undefinedOp (len : Nat)
  | marked (cause : Nat) (straddle : Bool) (addr : Word)
  deriving DecidableEq, Repr

/-- Fill reads the stream at an address, or marks it (R28, R50, R51). A later byte that fails in the first byte's own page, as only an uncorrectable error can, is marked like a failing first byte: STRADDLE clear, UFADDR PC; the code store, which no page maps, is cut at multiples of 64 KiB too (DESIGN CHOICE, log 72). -/
def State.fill (s : State) (n : Nat) (pc : Word) : Cached :=
  match s.fetchFault n pc with
  | some c => .marked c false pc
  | none =>
    match lengthOf (s.fetchByte n pc) with
    | none => .marked 0x0A false pc
    | some len =>
      match s.fetchRest n pc len with
      | some (a, c) => if pageOf a = pageOf pc then .marked c false pc else .marked c true (pageOf a)
      | none => .bytes ((List.range len).map (fun i => s.fetchByte n (pc + BitVec.ofNat 64 i)))

/-- The expansion of bytes at a PC (R27, R42, R51). -/
def expand (bs : List Byte) (pc : Word) : Fetched :=
  match decode bs with
  | .instr i l => .word i l
  | .undefinedOpcode l => .undefinedOp l
  | .undefinedPrefix => .marked 0x0A false pc
  | .truncated => .marked 0x0A false pc

/-- The bytes of XOINS0 and XOINS1, byte 0 first (Table 15.4). -/
def Seq.xoBytes (q : Seq) : List Byte :=
  beBytes 8 (q.sysreg 0x282).toNat ++ beBytes 4 (q.sysreg 0x283).toNat

/-- The collective at which CP has arrived, where it is the current sequencer (R303). -/
def State.arrived (s : State) : Option Arrival := if s.me = .cp then s.myCore.clst else none

/-- The CLST with which a member has arrived. -/
def Arrival.instr (a : Arrival) : Instr :=
  match a.fn with
  | 0 => .clstFadd a.fields
  | 1 => .clstFmax a.fields
  | 2 => .clstFmin a.fields
  | 3 => .clstIadd a.fields
  | _ => .clstImax a.fields

/-- The next instruction of the current sequencer comes from memory: it is neither a CLST that has arrived, nor XOINS, nor a word of the instruction cache (R28, R303, R316). -/
def State.fetchesMemory (s : State) : Bool := s.arrived.isNone && !s.mySeq.xo && !Tab.has s.myCore.icache s.mySeq.pc.toNat

/-- What holds the next instruction of the current sequencer: the CLST that has arrived, which goes through its stages as it was read, whatever PC names by now (R303); XOINS where it comes first; a word of the instruction cache; or what memory holds (R28, R316). -/
def State.nextCached (s : State) : Cached :=
  let q := s.mySeq
  let c := s.myCore
  match s.arrived with
  | some a => .bytes (encodeCore (0xB20 + min a.fn 4) a.fields)
  | none =>
  if q.xo then .bytes q.xoBytes
  else if Tab.has c.icache q.pc.toNat then Tab.get c.icache q.pc.toNat (.bytes []) else s.fill s.node q.pc

/-- The internal word of the next instruction of the current sequencer, where its opcode is assigned. -/
def State.nextWord (s : State) : Option (Code × Fields) :=
  match s.nextCached with
  | .marked _ _ _ => none
  | .bytes bs =>
    match bs with
    | [] => none
    | b :: _ => ((lengthOf b).bind (fun n => wordExact (bs.take n))).filter (fun p => (opInfo p.1).isSome)

/-- The next instruction of the current sequencer, expanded. -/
def State.fetched (s : State) : Fetched :=
  match s.nextCached with
  | .bytes bs => expand bs s.mySeq.pc
  | .marked cause straddle a => .marked cause straddle a

/-- The addresses through translation that a fetch at a PC reads; for an instruction whose length is not to be had, that of its first byte. -/
def State.fetchAddrs (s : State) (n : Nat) (pc : Word) : List Word :=
  let len := if (s.fetchFault n pc).isSome then 1 else (lengthOf (s.fetchByte n pc)).getD 1
  ((List.range len).map (fun i => pc + BitVec.ofNat 64 i)).filter (fun a => decide (codeStoreSize ≤ a.toNat))

/-- What a fetch from memory at a PC leaves beside the word: TLBMISS, and the symbols that it corrects in the tables and in what it reads (R221, R378). -/
def State.noteFetched (s : State) (n : Nat) (pc : Word) : State := s.noteAccess n true 1 (s.fetchAddrs n pc)

/-- The fetch at a PC meets the range of a PHASE drain, and stalls (R233). -/
def State.fetchDrained (s : State) (n : Nat) (pc : Word) : Bool := s.drainStalls n (s.fetchAddrs n pc) != 0

/-! ## Before an instruction -/

/-- The error log notes an uncorrectable word that a fetch met (Table 19.3). -/
def State.noteFetch (s : State) (cause : Nat) (a : Word) : State :=
  if cause = 0x0B then
    (if a.toNat < codeStoreSize then s.logError (codeAddr s.node a.toNat) .uncorrected else s.noteBad s.node 0x18 a)
  else s

/-- The grace of a pending notice is over, or a YIELD has retired in an earlier cycle: issue has stopped (R325). -/
def Core.graceOver (c : Core) : Bool :=
  match c.notice with
  | some k => reached c.cycle k.ends
  | none => false

/-- The current sequencer issues nothing: no context, halted or stopped, its HALT waiting to retire, its core frozen or pre-empted, an answer awaited, or its package not running (R82, R325, R375, R382). -/
def State.idle (s : State) : Bool :=
  let c := s.myCore
  let q := s.mySeq
  c.ctx.isNone || q.run != .running || q.halting.isSome || c.freeze.isSome || c.paused.isSome || c.graceOver || q.remote.isSome ||
    !(s.pkg (pkgOf s.node)).runs

/-- The number of the hardware breakpoint that matches, the lowest first (R320). -/
def State.breakpoint (s : State) : Option Nat :=
  let c := s.myCore
  let q := s.mySeq
  if q.skipBp || c.confidential then none
  else
    (List.range 8).find? (fun i =>
      let t := (c.sysreg (0x289 + 2 * i)).toNat
      let a := (c.sysreg (0x288 + 2 * i)).toNat
      t / 2 ^ 31 % 2 == 1 && t % 65536 == c.ctxTag && (t / 2 ^ 16).testBit (seqNum s.me) &&
        a / 2 % 2 ^ 54 == q.pc.toNat / 2 % 2 ^ 54)

/-- The breakpoint fault of breakpoint i (Table 15.1). -/
def State.takeBreakpoint (s : State) (i : Nat) : State :=
  s.takeFault 0x39 (0x8000000000000000 ||| BitVec.ofNat 64 i)

/-- A pre-emption notice is due at this boundary (R325). -/
def State.noticeDue (s : State) : Bool := s.mySeq.notice && s.mySeq.delegates 0x3F

/-- A member has arrived with a CLST that matches this one (R303). -/
def Arrival.matches (a b : Arrival) : Bool := a.entry == b.entry && a.k == b.k && a.set == b.set

/-- The arrivals of the members of a's set, if all have arrived with a matching CLST. -/
def State.arrivals (s : State) (a : Arrival) : Option (List (Nat × Arrival)) :=
  let l := a.set.filterMap (fun m =>
    match (s.core m).clst with
    | some b => if b.matches a then some (m, b) else none
    | none => none)
  if l.length = a.set.length then some l else none

/-- Every member of a core's collective has arrived. -/
def State.allArrived (s : State) (n : Nat) : Bool :=
  match (s.core n).clst with
  | some a => (s.arrivals a).isSome
  | none => false

/-- What is taken before the instruction at PC: a notice (R325), a reel's abort (R208), a hardware breakpoint (R320); nothing before a CLST whose members have all arrived, which ends with its result (R303, R305). -/
def State.before (s : State) : Option State :=
  if s.me = .cp ∧ s.allArrived s.node then none
  else if s.noticeDue then
    some ((s.modMe (fun q => { q with notice := false })).takeFault 0x3F (BitVec.ofNat 64 s.myCore.graceLeft))
  else
    match s.me, s.myCore.reelAbort with
    | .cp, some b => some ((s.modMyCore (fun c => { c with reelAbort := none })).takeFault 0x2A (BitVec.ofNat 64 b))
    | _, _ =>
      match s.breakpoint with
      | some i => some (s.takeBreakpoint i)
      | none => none

/-- DLY of the current sequencer's next instruction, 0 for a word that is none, and whether it is an SMARK. -/
def State.nextDly (s : State) : Nat := match s.nextWord with | some p => p.2.dly.toNat | none => 0
def State.nextIsMark (s : State) : Bool := match s.nextWord with | some p => p.1 / 16 == 0x88 | none => false

/-- The stall hint of the current sequencer's next instruction has elapsed, with the three cycles after a taken transfer and the occupancy of the instruction before (R80, R98, R126, R144, R170). -/
def State.hintElapsed (s : State) : Bool :=
  match s.mySeq.last with
  | none => true
  | some p =>
    reached s.myCore.cycle p && decide (max (max (1 + s.nextDly) (if s.mySeq.jumped then 3 else 0)) s.mySeq.occ ≤ (s.myCore.cycle - p).toNat)

/-- A marked word is reached (R28, R50): the fault names PC and the page that failed, and the word is refilled when PC comes back to it. What an instruction at PC had waited for is withdrawn (R279, R303, R352). -/
def State.takeMark (s : State) (cause : Nat) (straddle : Bool) (a : Word) : State :=
  (((s.withdraw s.node s.me).modMyCore (fun c => { c with icache := Tab.del c.icache s.mySeq.pc.toNat })).noteFetch cause a).faultAt s.node s.me cause a s.mySeq.pc straddle

/-! ## Placing an instruction -/

/-- Bytes written into the code store of a node. -/
def State.putCode (s : State) (n off : Nat) (bs : List Byte) : State :=
  { s with mem := (bs.zipIdx).foldl (fun m p => Memory.put m (codeAddr n (off + p.2)) p.1) s.mem }

/-- A context for a core that holds none: unprivileged, alone in its placement (DEDUCED, log 3). -/
def loneCtx (n : Nat) : Ctx :=
  { priv := isDcc n, placement := [n], lcore := 0, conf := false, key := 0, entry := none }

/-- The current sequencer of a core that holds a context, running at a PC in the code store where these bytes stand. -/
def State.placeWord (s : State) (bs : List Byte) : State :=
  let n := s.node
  let q := s.mySeq
  let pc : Word := if q.pc.toNat % 2 = 0 ∧ q.pc.toNat + 12 ≤ codeStoreSize then q.pc else 0
  let q1 := { q with pc := pc, run := .running, notice := false, remote := none, xo := false, skipBp := true, last := none, halting := none }
  let s1 := s.modCore n (fun c =>
    { (c.setSeq s.me q1) with ctx := some (c.ctx.getD (loneCtx n)), freeze := none, paused := none, notice := none, reelAbort := none, clst := if s.me = .cp then none else c.clst,
                              icache := Tab.del c.icache pc.toNat })
  { ((s1.putCode n pc.toNat bs).setPkg (pkgOf n) { (s1.pkg (pkgOf n)).setSys 0x2C0 0x3004 with fatal := none }) with
    turns := [],
    bad := s1.bad.filter (fun b => !(decide (codeAddr n pc.toNat < 8 * b + 8) && decide (8 * b < codeAddr n pc.toNat + 12))) }

end Sys2Proof.Machine

end
end

