-- ==== Sys2Proof/Machine/Control.lean ====
section
/-! DEFINITION. The control class (R68 to R93): arithmetic, branches, loops and calls, scalar loads and stores, system registers, tokens. -/

namespace Sys2Proof.Machine

/-! ## Operations -/

/-- s[D] := op(s[A], s[B]) (R72, R73). -/
def regReg (c : Code) (f : Fields) (op : Word → Word → Word) (s : State) : Out :=
  issued c f (fun s => putReg s f.d (op (s.sreg f.a) (s.sreg f.b))) s

/-- s[D] := op(s[A], X sign-extended) (R72). -/
def regImm (c : Code) (f : Fields) (op : Word → Word → Word) (s : State) : Out :=
  issued c f (fun s => putReg s f.d (op (s.sreg f.a) (immX f))) s

/-- s[D] := op(s[A]) (R74). -/
def regOne (c : Code) (f : Fields) (op : Word → Word) (s : State) : Out :=
  issued c f (fun s => putReg s f.d (op (s.sreg f.a))) s

/-- a + b, wrapping (Table 4.2). -/
def aluAdd (a b : Word) : Word := a + b
/-- a − b, wrapping (Table 4.2). -/
def aluSub (a b : Word) : Word := a - b
/-- a & b (Table 4.2). -/
def aluAnd (a b : Word) : Word := a &&& b
/-- a | b (Table 4.2). -/
def aluOr (a b : Word) : Word := a ||| b
/-- a ^ b (Table 4.2). -/
def aluXor (a b : Word) : Word := a ^^^ b
/-- a & ~b (Table 4.2). -/
def aluAndn (a b : Word) : Word := a &&& ~~~b
/-- a << b[5:0] (Table 4.2). -/
def aluShl (a b : Word) : Word := a <<< (b.toNat % 64)
/-- logical a >> b[5:0] (Table 4.2). -/
def aluShr (a b : Word) : Word := a >>> (b.toNat % 64)
/-- arithmetic a >> b[5:0] (Table 4.2). -/
def aluSar (a b : Word) : Word := a.sshiftRight (b.toNat % 64)
/-- a rotated left by b[5:0] (Table 4.2). -/
def aluRol (a b : Word) : Word := a.rotateLeft (b.toNat % 64)
/-- signed minimum (Table 4.2). -/
def aluMin (a b : Word) : Word := if a.slt b then a else b
/-- signed maximum (Table 4.2). -/
def aluMax (a b : Word) : Word := if a.slt b then b else a
/-- unsigned minimum (Table 4.2). -/
def aluMinn (a b : Word) : Word := if a.ult b then a else b
/-- unsigned maximum (Table 4.2). -/
def aluMaxn (a b : Word) : Word := if a.ult b then b else a
/-- 1 if a < b signed, else 0 (Table 4.2). -/
def aluSlt (a b : Word) : Word := if a.slt b then 1 else 0
/-- 1 if a < b unsigned, else 0 (Table 4.2). -/
def aluSltn (a b : Word) : Word := if a.ult b then 1 else 0

/-- Low 64 bits of a × b (Table 4.3). -/
def aluMul (a b : Word) : Word := a * b
/-- High 64 bits of the signed product (Table 4.3). -/
def aluMulh (a b : Word) : Word := BitVec.ofInt 64 (a.toInt * b.toInt / 2 ^ 64)
/-- High 64 bits of the unsigned product (Table 4.3). -/
def aluMulhn (a b : Word) : Word := BitVec.ofNat 64 (a.toNat * b.toNat / 2 ^ 64)
/-- Signed quotient, truncating; all ones for a divisor of 0 (R73). -/
def aluDiv (a b : Word) : Word := if b = 0 then 0xFFFFFFFFFFFFFFFF else BitVec.ofInt 64 (a.toInt.tdiv b.toInt)
/-- Unsigned quotient; all ones for a divisor of 0. -/
def aluDivn (a b : Word) : Word := if b = 0 then 0xFFFFFFFFFFFFFFFF else BitVec.ofNat 64 (a.toNat / b.toNat)
/-- Signed remainder with the sign of the dividend; a for a divisor of 0. -/
def aluRem (a b : Word) : Word := if b = 0 then a else BitVec.ofInt 64 (a.toInt.tmod b.toInt)
/-- Unsigned remainder; a for a divisor of 0. -/
def aluRemn (a b : Word) : Word := if b = 0 then a else BitVec.ofNat 64 (a.toNat % b.toNat)

/-- Length of a pattern of w bits: the bits up to the highest one. -/
def bitLen (w v : Nat) : Nat := ((List.range w).foldl (fun m i => if v.testBit i then i + 1 else m) 0)
/-- Leading zero bits of a w-bit pattern, w for 0 (R74). -/
def clzNat (w v : Nat) : Nat := w - bitLen w v
/-- Trailing zero bits of a w-bit pattern, w for 0 (R74). -/
def ctzNat (w v : Nat) : Nat := ((List.range w).find? (fun i => v.testBit i)).getD w
/-- A w-bit pattern with its bits reversed (R74). -/
def revNat (w v : Nat) : Nat := (List.range w).foldl (fun n i => n + bitNat (v.testBit i) * 2 ^ (w - 1 - i)) 0

def aluClz (a : Word) : Word := BitVec.ofNat 64 (clzNat 64 a.toNat)
def aluCtz (a : Word) : Word := BitVec.ofNat 64 (ctzNat 64 a.toNat)
def aluPopc (a : Word) : Word := BitVec.ofNat 64 (popNat a.toNat)
def aluBrev (a : Word) : Word := BitVec.ofNat 64 (revNat 64 a.toNat)

/-- A w-bit value as an i type sign-extends and an n type zero-extends it (Table 2.5). -/
def extend (q w v : Nat) : Word := BitVec.ofInt 64 (readInt q w v)

/-- The low bits of a, extended by Q (R74). -/
def aluExt (q : BitVec 3) (a : Word) : Word :=
  let w := intWidth q.toNat
  extend q.toNat w (a.toNat % 2 ^ w)

/-- The condition of Table 4.4. -/
def condEq (a b : Word) : Bool := a == b
def condNe (a b : Word) : Bool := a != b
def condLt (a b : Word) : Bool := a.slt b
def condGe (a b : Word) : Bool := !a.slt b
def condLtn (a b : Word) : Bool := a.ult b
def condGen (a b : Word) : Bool := !a.ult b
def condBset (a b : Word) : Bool := a.getLsbD (b.toNat % 64)
def condBclr (a b : Word) : Bool := !a.getLsbD (b.toNat % 64)

/-- A branch to PC + 2 × off if taken, else the next instruction (R76). -/
def branch (s : State) (taken : Bool) (off : Word) : Eff :=
  .done { st := s, target := if taken then some (s.target off) else none }

/-- BRC: s[D] against s[A] (R77). -/
def branchReg (c : Code) (f : Fields) (cond : Word → Word → Bool) (s : State) : Out :=
  issued c f (fun s => branch s (cond (s.sreg f.d) (s.sreg f.a)) (immX f)) s

/-- BRCI: s[D] against X[23:12], with the offset X[11:0] (R76, R77). -/
def branchImm (c : Code) (f : Fields) (cond : Word → Word → Bool) (s : State) : Out :=
  issued c f (fun s => branch s (cond (s.sreg f.d) ((f.x.extractLsb' 12 12).signExtend 64))
    ((f.x.extractLsb' 0 12).signExtend 64)) s

/-- A jump to a register's address, with s31 written for a call; bit 0 set raises the alignment fault (R26, R79). -/
def jumpTo (s : State) (va : Word) (link : Option Word) : Eff :=
  if va.getLsbD 0 then .trap 0x12 va
  else
    match link with
    | some r => .done { st := s.setReg 31 r, target := some va }
    | none => .done { st := s, target := some va }

/-- The return address (R76). -/
def State.returnAddr (s : State) (f : Fields) : Word := s.mySeq.pc + instrLen f

/-! ## Meanings -/

/-- NOP (R81). -/
def execNop (f : Fields) (s : State) : Out := issued 0x000 f (fun s => done s) s

/-- The sequencer halts: it stops fetching (R82) and gives its explicit permit back (R356). -/
def State.haltMe (s : State) : State := (s.dropExplicit s.node s.me).modMe (fun q => { q with run := .halted, halting := none })

/-- HALT: once everything before it has retired the sequencer halts; until then it has issued and waits, its tokens still to be moved (R82; DEDUCED, log 73). -/
def execHalt (f : Fields) (s : State) : Out :=
  issued 0x001 f (fun s =>
    if s.allRetired then done s.haltMe
    else .whole (s.modMe (fun q => { q.issuedAt s.myCore.cycle 1 with wait := none, halting := some f }))) s

/-- WAITC: waits until CYCLE is at least s[A] + X (R83). -/
def execWaitc (f : Fields) (s : State) : Out :=
  issued 0x002 f (fun s =>
    if s.myCore.cycle.ult (s.baseOff f) then .wait 0x03 (s.baseOff f) else done s) s

/-- BR (R76). -/
def execBr (f : Fields) (s : State) : Out := issued 0x010 f (fun s => branch s true (immX f)) s

/-- BRC.EQ (R77). -/
def execBrcEq (f : Fields) (s : State) : Out := branchReg 0x020 f condEq s
/-- BRC.NE (R77). -/
def execBrcNe (f : Fields) (s : State) : Out := branchReg 0x021 f condNe s
/-- BRC.LT (R77). -/
def execBrcLt (f : Fields) (s : State) : Out := branchReg 0x022 f condLt s
/-- BRC.GE (R77). -/
def execBrcGe (f : Fields) (s : State) : Out := branchReg 0x023 f condGe s
/-- BRC.LTN (R77). -/
def execBrcLtn (f : Fields) (s : State) : Out := branchReg 0x024 f condLtn s
/-- BRC.GEN (R77). -/
def execBrcGen (f : Fields) (s : State) : Out := branchReg 0x025 f condGen s
/-- BRC.BSET (R77). -/
def execBrcBset (f : Fields) (s : State) : Out := branchReg 0x026 f condBset s
/-- BRC.BCLR (R77). -/
def execBrcBclr (f : Fields) (s : State) : Out := branchReg 0x027 f condBclr s
/-- BRCI.EQ (R77). -/
def execBrciEq (f : Fields) (s : State) : Out := branchImm 0x030 f condEq s
/-- BRCI.NE (R77). -/
def execBrciNe (f : Fields) (s : State) : Out := branchImm 0x031 f condNe s
/-- BRCI.LT (R77). -/
def execBrciLt (f : Fields) (s : State) : Out := branchImm 0x032 f condLt s
/-- BRCI.GE (R77). -/
def execBrciGe (f : Fields) (s : State) : Out := branchImm 0x033 f condGe s
/-- BRCI.LTN (R77). -/
def execBrciLtn (f : Fields) (s : State) : Out := branchImm 0x034 f condLtn s
/-- BRCI.GEN (R77). -/
def execBrciGen (f : Fields) (s : State) : Out := branchImm 0x035 f condGen s
/-- BRCI.BSET (R77). -/
def execBrciBset (f : Fields) (s : State) : Out := branchImm 0x036 f condBset s
/-- BRCI.BCLR (R77). -/
def execBrciBclr (f : Fields) (s : State) : Out := branchImm 0x037 f condBclr s

/-- LOOP: s[D] − 1, taken while not zero (R78). -/
def execLoop (f : Fields) (s : State) : Out :=
  issued 0x040 f (fun s => branch (s.setReg (regNum f.d) (s.sreg f.d - 1)) (s.sreg f.d - 1 != 0) (immX f)) s

/-- CALL: s31 := return address, PC-relative jump (R79). -/
def execCall (f : Fields) (s : State) : Out :=
  issued 0x050 f (fun s => .done { st := s.setReg 31 (s.returnAddr f), target := some (s.target (immX f)) }) s

/-- JMPR (R79). -/
def execJmpr (f : Fields) (s : State) : Out := issued 0x060 f (fun s => jumpTo s (s.sreg f.a) none) s
/-- CALLR (R79). -/
def execCallr (f : Fields) (s : State) : Out :=
  issued 0x061 f (fun s => jumpTo s (s.sreg f.a) (some (s.returnAddr f))) s
/-- RET (R79). -/
def execRet (f : Fields) (s : State) : Out := issued 0x062 f (fun s => jumpTo s (s.mySeq.reg 31) none) s

/-- ADD (Table 4.2). -/
def execAdd (f : Fields) (s : State) : Out := regReg 0x080 f aluAdd s
/-- SUB (Table 4.2). -/
def execSub (f : Fields) (s : State) : Out := regReg 0x081 f aluSub s
/-- AND (Table 4.2). -/
def execAnd (f : Fields) (s : State) : Out := regReg 0x082 f aluAnd s
/-- OR (Table 4.2). -/
def execOr (f : Fields) (s : State) : Out := regReg 0x083 f aluOr s
/-- XOR (Table 4.2). -/
def execXor (f : Fields) (s : State) : Out := regReg 0x084 f aluXor s
/-- ANDN (Table 4.2). -/
def execAndn (f : Fields) (s : State) : Out := regReg 0x085 f aluAndn s
/-- SHL (Table 4.2). -/
def execShl (f : Fields) (s : State) : Out := regReg 0x086 f aluShl s
/-- SHR (Table 4.2). -/
def execShr (f : Fields) (s : State) : Out := regReg 0x087 f aluShr s
/-- SAR (Table 4.2). -/
def execSar (f : Fields) (s : State) : Out := regReg 0x088 f aluSar s
/-- ROL (Table 4.2). -/
def execRol (f : Fields) (s : State) : Out := regReg 0x089 f aluRol s
/-- MIN (Table 4.2). -/
def execMin (f : Fields) (s : State) : Out := regReg 0x08A f aluMin s
/-- MAX (Table 4.2). -/
def execMax (f : Fields) (s : State) : Out := regReg 0x08B f aluMax s
/-- MINN (Table 4.2). -/
def execMinn (f : Fields) (s : State) : Out := regReg 0x08C f aluMinn s
/-- MAXN (Table 4.2). -/
def execMaxn (f : Fields) (s : State) : Out := regReg 0x08D f aluMaxn s
/-- SLT (Table 4.2). -/
def execSlt (f : Fields) (s : State) : Out := regReg 0x08E f aluSlt s
/-- SLTN (Table 4.2). -/
def execSltn (f : Fields) (s : State) : Out := regReg 0x08F f aluSltn s
/-- ADDI (Table 4.2). -/
def execAddi (f : Fields) (s : State) : Out := regImm 0x090 f aluAdd s
/-- SUBI (Table 4.2). -/
def execSubi (f : Fields) (s : State) : Out := regImm 0x091 f aluSub s
/-- ANDI (Table 4.2). -/
def execAndi (f : Fields) (s : State) : Out := regImm 0x092 f aluAnd s
/-- ORI (Table 4.2). -/
def execOri (f : Fields) (s : State) : Out := regImm 0x093 f aluOr s
/-- XORI (Table 4.2). -/
def execXori (f : Fields) (s : State) : Out := regImm 0x094 f aluXor s
/-- ANDNI (Table 4.2). -/
def execAndni (f : Fields) (s : State) : Out := regImm 0x095 f aluAndn s
/-- SHLI (Table 4.2). -/
def execShli (f : Fields) (s : State) : Out := regImm 0x096 f aluShl s
/-- SHRI (Table 4.2). -/
def execShri (f : Fields) (s : State) : Out := regImm 0x097 f aluShr s
/-- SARI (Table 4.2). -/
def execSari (f : Fields) (s : State) : Out := regImm 0x098 f aluSar s
/-- ROLI (Table 4.2). -/
def execRoli (f : Fields) (s : State) : Out := regImm 0x099 f aluRol s
/-- MINI (Table 4.2). -/
def execMini (f : Fields) (s : State) : Out := regImm 0x09A f aluMin s
/-- MAXI (Table 4.2). -/
def execMaxi (f : Fields) (s : State) : Out := regImm 0x09B f aluMax s
/-- MINNI (Table 4.2). -/
def execMinni (f : Fields) (s : State) : Out := regImm 0x09C f aluMinn s
/-- MAXNI (Table 4.2). -/
def execMaxni (f : Fields) (s : State) : Out := regImm 0x09D f aluMaxn s
/-- SLTI (Table 4.2). -/
def execSlti (f : Fields) (s : State) : Out := regImm 0x09E f aluSlt s
/-- SLTNI (Table 4.2). -/
def execSltni (f : Fields) (s : State) : Out := regImm 0x09F f aluSltn s
/-- MUL (Table 4.3). -/
def execMul (f : Fields) (s : State) : Out := regReg 0x0A0 f aluMul s
/-- MULH (Table 4.3). -/
def execMulh (f : Fields) (s : State) : Out := regReg 0x0A1 f aluMulh s
/-- MULHN (Table 4.3). -/
def execMulhn (f : Fields) (s : State) : Out := regReg 0x0A2 f aluMulhn s
/-- DIV (Table 4.3). -/
def execDiv (f : Fields) (s : State) : Out := regReg 0x0A3 f aluDiv s
/-- DIVN (Table 4.3). -/
def execDivn (f : Fields) (s : State) : Out := regReg 0x0A4 f aluDivn s
/-- REM (Table 4.3). -/
def execRem (f : Fields) (s : State) : Out := regReg 0x0A5 f aluRem s
/-- REMN (Table 4.3). -/
def execRemn (f : Fields) (s : State) : Out := regReg 0x0A6 f aluRemn s
/-- CLZ (R74). -/
def execClz (f : Fields) (s : State) : Out := regOne 0x0B0 f aluClz s
/-- CTZ (R74). -/
def execCtz (f : Fields) (s : State) : Out := regOne 0x0B1 f aluCtz s
/-- POPC (R74). -/
def execPopc (f : Fields) (s : State) : Out := regOne 0x0B2 f aluPopc s
/-- BREV (R74). -/
def execBrev (f : Fields) (s : State) : Out := regOne 0x0B3 f aluBrev s
/-- SEXT (R74). -/
def execSext (f : Fields) (s : State) : Out := regOne 0x0B4 f (aluExt f.q) s
/-- ZEXT (R74). -/
def execZext (f : Fields) (s : State) : Out := regOne 0x0B5 f (aluExt f.q) s

/-- SEL: s[A] if s[X[4:0]] is not zero, else s[B] (R75). -/
def execSel (f : Fields) (s : State) : Out :=
  issued 0x0C0 f (fun s => putReg s f.d (if s.mySeq.reg (f.x.setWidth 5) != 0 then s.sreg f.a else s.sreg f.b)) s
/-- LI (R75). -/
def execLi (f : Fields) (s : State) : Out := issued 0x0D0 f (fun s => putReg s f.d (immX f)) s
/-- LUI: (s[D] << 24) | X (R75). -/
def execLui (f : Fields) (s : State) : Out :=
  issued 0x0D1 f (fun s => putReg s f.d ((s.sreg f.d <<< 24) ||| f.x.setWidth 64)) s
/-- MOV (R75). -/
def execMov (f : Fields) (s : State) : Out := issued 0x0E0 f (fun s => putReg s f.d (s.sreg f.a)) s

/-- MFS: s[D] := system register X[11:0] (R86). -/
def execMfs (f : Fields) (s : State) : Out :=
  issued 0x0E1 f (fun s =>
    let num := f.x.toNat % 4096
    putReg (s.useFree (regIsFree s.node num)) f.d (s.readReg s.node s.me num)) s

/-- MTS: system register X[11:0] := s[A]; RNGBASE and RNGCFG need the whole bay (R86, R280). -/
def execMts (f : Fields) (s : State) : Out :=
  issued 0x0E2 f (fun s =>
    let num := f.x.toNat % 4096
    if needsBay num && !s.holdsBay s.node then .trap 0x04 0
    else done (s.writeReg s.node s.node s.me num (s.sreg f.a))) s

/-- LDS: s[D] := the w bytes at s[A] + X, extended by Q (R84, R85). -/
def execLds (f : Fields) (s : State) : Out :=
  issued 0x0F0 f (fun s =>
    let w := intWidth f.q.toNat
    let va := s.baseOff f
    s.access Want.load (w / 8) [va] (fun t => putReg t f.d (extend f.q.toNat w (t.load t.node va (w / 8))))) s

/-- STS: the low w bytes of s[D] to s[A] + X (R84, R85). -/
def execSts (f : Fields) (s : State) : Out :=
  issued 0x100 f (fun s =>
    let w := intWidth f.q.toNat / 8
    let va := s.baseOff f
    s.access Want.store w [va] (fun t => .done { st := t, stores := t.mkStore t.node va w (s.sreg f.d) })) s

/-- TOKW: issues once its FIFOs hold n tokens, and removes none (R93). -/
def execTokw (f : Fields) (s : State) : Out := issued 0x110 f (fun s => done s) s

/-- TOKS: n tokens into each FIFO of its mask (R93). -/
def execToks (f : Fields) (s : State) : Out :=
  issued 0x111 f (fun s =>
    .done { st := s, extra := (maskSeqs (f.x.setWidth 4)).map (fun q => (q, f.x.toNat / 16 % 16)) }) s

end Sys2Proof.Machine
end

