-- ==== Sys2Proof/Machine/Vector.lean ====
section
/-! DEFINITION. The reversible vector class, opcodes 0x20 to 0x2A (R105 to R118). -/

namespace Sys2Proof.Machine

/-! ## Lane results -/

/-- All w bits one. -/
def onesW (w : Nat) : Nat := 2 ^ w - 1

/-- The type of an integer instruction: Q and its width. -/
def qOf (f : Fields) : Nat := f.q.toNat
def wOf (f : Fields) : Nat := intWidth f.q.toNat

/-- a & b (Table 5.2). -/
def laneAnd (_q _w a b : Nat) : Nat := a &&& b
/-- a | b (Table 5.2). -/
def laneOr (_q _w a b : Nat) : Nat := a ||| b
/-- a ^ b (Table 5.2). -/
def laneXor (_q _w a b : Nat) : Nat := a ^^^ b
/-- a & ~b (Table 5.2). -/
def laneAndn (_q w a b : Nat) : Nat := a &&& (onesW w ^^^ b)
/-- a + b (Table 5.2). -/
def laneAdd (_q w a b : Nat) : Nat := (a + b) % 2 ^ w
/-- a − b (Table 5.2). -/
def laneSub (_q w a b : Nat) : Nat := (a + 2 ^ w - b) % 2 ^ w
/-- signed minimum (Table 5.2). -/
def laneMin (_q w a b : Nat) : Nat := if toInt w a ≤ toInt w b then a else b
/-- signed maximum (Table 5.2). -/
def laneMax (_q w a b : Nat) : Nat := if toInt w a ≤ toInt w b then b else a
/-- unsigned minimum (Table 5.2). -/
def laneMinn (_q _w a b : Nat) : Nat := min a b
/-- unsigned maximum (Table 5.2). -/
def laneMaxn (_q _w a b : Nat) : Nat := max a b
/-- low w bits of a × b (Table 5.2). -/
def laneMul (_q w a b : Nat) : Nat := (a * b) % 2 ^ w
/-- high w bits of the product, signed or unsigned by Q (Table 5.2). -/
def laneMulh (q w a b : Nat) : Nat := wrap w (readInt q w a * readInt q w b / (2 ^ w : Int))
/-- a << n, n the low log2(w) bits of b (Table 5.2). -/
def laneShl (_q w a b : Nat) : Nat := (a <<< (b % w)) % 2 ^ w
/-- logical a >> n (Table 5.2). -/
def laneShr (_q w a b : Nat) : Nat := a >>> (b % w)
/-- arithmetic a >> n (Table 5.2). -/
def laneSar (_q w a b : Nat) : Nat := wrap w (toInt w a / (2 ^ (b % w) : Nat))
/-- floor((a + b + 1) / 2), exact, signed or unsigned by Q (Table 5.2). -/
def laneAvg (q w a b : Nat) : Nat := wrap w ((readInt q w a + readInt q w b + 1) / 2)

/-- The conditions of VCMP (R113). -/
def laneCmp (cond : Bool) (w : Nat) : Nat := if cond then onesW w else 0

/-- D := op(A, B) lane by lane (R112). -/
def vec2 (c : Code) (f : Fields) (op : Nat → Nat → Nat → Nat → Nat) (s : State) : Out :=
  issued c f (fun s => vecResult s f (wOf f) [f.a, f.b] (fun i =>
    op (qOf f) (wOf f) (s.srcLane f.a (wOf f) i) (s.srcLane f.b (wOf f) i))) s

/-- D := op(A) lane by lane (R112, R114). -/
def vec1 (c : Code) (f : Fields) (op : Nat → Nat → Nat) (s : State) : Out :=
  issued c f (fun s => vecResult s f (wOf f) [f.a] (fun i => op (wOf f) (s.srcLane f.a (wOf f) i))) s

/-- VCMP (R113). -/
def vecCmp (c : Code) (f : Fields) (cond : Nat → Nat → Nat → Bool) (s : State) : Out :=
  vec2 c f (fun _ w a b => laneCmp (cond w a b) w) s

/-- Lane j of D names a cell that one of the first n lanes of A reads (R115, R147). -/
def reduceMeets (d a : BitVec 12) (n j : Nat) : Bool :=
  (laneCells d j).any (fun k =>
    match operandLane a k with
    | some i => decide (i < n)
    | none => false)

/-- VRED: the active lanes combined into lane 0 of D (R115). -/
def vecRed (c : Code) (f : Fields) (op : Nat → Nat → Nat → Nat → Nat) (s : State) : Out :=
  issued c f (fun s =>
    let w := wOf f
    let v := (s.lanes.drop 1).foldl (fun v i => op (qOf f) w v (s.srcLane f.a w i)) (s.srcLane f.a w 0)
    .done (s.writeLanes f.e f.d w (reduceMeets f.d f.a s.mySeq.vlen) [(0, v)])) s

/-- An in-place operation on D alone or on D and A (R116). -/
def vecIn (c : Code) (f : Fields) (op : Nat → Nat → Nat → Nat → Nat) (s : State) : Out :=
  issued c f (fun s =>
    let w := wOf f
    .done { st := s, lands := [changeLanes f.d w (s.lanes.map (fun i =>
      (i, s.srcLane f.d w i, op (qOf f) w (s.srcLane f.d w i) (s.srcLane f.a w i))))] }) s

/-- A lane permutation: D[i] := old D[from i], unchanged where there is none (R118). -/
def vecPerm (c : Code) (f : Fields) (from_ : State → Nat → Option Nat) (s : State) : Out :=
  issued c f (fun s =>
    let w := wOf f
    .done { st := s, lands := [changeLanes f.d w (s.lanes.map (fun i =>
      (i, s.srcLane f.d w i, s.srcLane f.d w ((from_ s i).getD i))))] }) s

/-- An exchange of D and A on the lanes that take part (R117). -/
def exchange (s : State) (f : Fields) (takes : Nat → Bool) : List Land :=
  let w := wOf f
  let l := (s.lanes.filter takes).map (fun i => (i, s.srcLane f.d w i, s.srcLane f.a w i))
  [changeLanes f.d w l] ++ [changeLanes f.a w ((l.filter (fun p => !laneMeets f.d f.a p.1)).map (fun p => (p.1, p.2.2, p.2.1)))]

/-! ## Meanings -/

/-- VMOV (R112). -/
def execVmov (f : Fields) (s : State) : Out := vec1 0x200 f (fun _ a => a) s

/-- VAND (Table 5.2). -/
def execVand (f : Fields) (s : State) : Out := vec2 0x210 f laneAnd s
/-- VOR (Table 5.2). -/
def execVor (f : Fields) (s : State) : Out := vec2 0x211 f laneOr s
/-- VXOR (Table 5.2). -/
def execVxor (f : Fields) (s : State) : Out := vec2 0x212 f laneXor s
/-- VANDN (Table 5.2). -/
def execVandn (f : Fields) (s : State) : Out := vec2 0x213 f laneAndn s
/-- VADD (Table 5.2). -/
def execVadd (f : Fields) (s : State) : Out := vec2 0x214 f laneAdd s
/-- VSUB (Table 5.2). -/
def execVsub (f : Fields) (s : State) : Out := vec2 0x215 f laneSub s
/-- VMIN (Table 5.2). -/
def execVmin (f : Fields) (s : State) : Out := vec2 0x216 f laneMin s
/-- VMAX (Table 5.2). -/
def execVmax (f : Fields) (s : State) : Out := vec2 0x217 f laneMax s
/-- VMINN (Table 5.2). -/
def execVminn (f : Fields) (s : State) : Out := vec2 0x218 f laneMinn s
/-- VMAXN (Table 5.2). -/
def execVmaxn (f : Fields) (s : State) : Out := vec2 0x219 f laneMaxn s
/-- VMUL (Table 5.2). -/
def execVmul (f : Fields) (s : State) : Out := vec2 0x21A f laneMul s
/-- VMULH (Table 5.2). -/
def execVmulh (f : Fields) (s : State) : Out := vec2 0x21B f laneMulh s
/-- VSHL (Table 5.2). -/
def execVshl (f : Fields) (s : State) : Out := vec2 0x21C f laneShl s
/-- VSHR (Table 5.2). -/
def execVshr (f : Fields) (s : State) : Out := vec2 0x21D f laneShr s
/-- VSAR (Table 5.2). -/
def execVsar (f : Fields) (s : State) : Out := vec2 0x21E f laneSar s
/-- VAVG (Table 5.2). -/
def execVavg (f : Fields) (s : State) : Out := vec2 0x21F f laneAvg s
/-- VCMP.EQ (R113). -/
def execVcmpEq (f : Fields) (s : State) : Out := vecCmp 0x220 f (fun _ a b => a == b) s
/-- VCMP.NE (R113). -/
def execVcmpNe (f : Fields) (s : State) : Out := vecCmp 0x221 f (fun _ a b => a != b) s
/-- VCMP.LT (R113). -/
def execVcmpLt (f : Fields) (s : State) : Out := vecCmp 0x222 f (fun w a b => decide (toInt w a < toInt w b)) s
/-- VCMP.GE (R113). -/
def execVcmpGe (f : Fields) (s : State) : Out := vecCmp 0x223 f (fun w a b => decide (toInt w b ≤ toInt w a)) s
/-- VCMP.LTN (R113). -/
def execVcmpLtn (f : Fields) (s : State) : Out := vecCmp 0x224 f (fun _ a b => decide (a < b)) s
/-- VCMP.GEN (R113). -/
def execVcmpGen (f : Fields) (s : State) : Out := vecCmp 0x225 f (fun _ a b => decide (b ≤ a)) s

/-- VSEL: A where the mask lane is not zero, else B (R113). -/
def execVsel (f : Fields) (s : State) : Out :=
  issued 0x230 f (fun s =>
    let m : BitVec 12 := f.x.setWidth 12
    vecResult s f (wOf f) [f.a, f.b, m] (fun i =>
      if s.srcLane m (wOf f) i != 0 then s.srcLane f.a (wOf f) i else s.srcLane f.b (wOf f) i)) s

/-- VABS (R114). -/
def execVabs (f : Fields) (s : State) : Out := vec1 0x240 f (fun w a => if toInt w a < 0 then (2 ^ w - a) % 2 ^ w else a) s
/-- VCLZ (R114). -/
def execVclz (f : Fields) (s : State) : Out := vec1 0x241 f clzNat s
/-- VPOPC (R114). -/
def execVpopc (f : Fields) (s : State) : Out := vec1 0x242 f (fun _ a => popNat a) s

/-- VRED.ADD (R115). -/
def execVredAdd (f : Fields) (s : State) : Out := vecRed 0x250 f laneAdd s
/-- VRED.MIN (R115). -/
def execVredMin (f : Fields) (s : State) : Out := vecRed 0x251 f laneMin s
/-- VRED.MAX (R115). -/
def execVredMax (f : Fields) (s : State) : Out := vecRed 0x252 f laneMax s
/-- VRED.MINN (R115). -/
def execVredMinn (f : Fields) (s : State) : Out := vecRed 0x253 f laneMinn s
/-- VRED.MAXN (R115). -/
def execVredMaxn (f : Fields) (s : State) : Out := vecRed 0x254 f laneMaxn s
/-- VRED.AND (R115). -/
def execVredAnd (f : Fields) (s : State) : Out := vecRed 0x255 f laneAnd s
/-- VRED.OR (R115). -/
def execVredOr (f : Fields) (s : State) : Out := vecRed 0x256 f laneOr s
/-- VRED.XOR (R115). -/
def execVredXor (f : Fields) (s : State) : Out := vecRed 0x257 f laneXor s

/-- VADDIN (Table 5.3). -/
def execVaddin (f : Fields) (s : State) : Out := vecIn 0x280 f laneAdd s
/-- VSUBIN (Table 5.3). -/
def execVsubin (f : Fields) (s : State) : Out := vecIn 0x281 f laneSub s
/-- VNEGIN (Table 5.3). -/
def execVnegin (f : Fields) (s : State) : Out := vecIn 0x282 f (fun _ w d _ => (2 ^ w - d) % 2 ^ w) s
/-- VNOTIN (Table 5.3). -/
def execVnotin (f : Fields) (s : State) : Out := vecIn 0x283 f (fun _ w d _ => onesW w ^^^ d) s
/-- VROTIN: d rotated left by a mod w (Table 5.3). -/
def execVrotin (f : Fields) (s : State) : Out :=
  vecIn 0x284 f (fun _ w d a => (d <<< (a % w)) % 2 ^ w ||| d >>> (w - a % w)) s
/-- VMULIN: d × m for an odd m, the low w bits of s[A]; an even m is an illegal operand (R116). -/
def execVmulin (f : Fields) (s : State) : Out :=
  issued 0x285 f (fun s =>
    let w := wOf f
    let m := (s.sreg f.a).toNat % 2 ^ w
    if m % 2 = 0 then .trap 0x02 1
    else .done { st := s, lands := [changeLanes f.d w (s.lanes.map (fun i =>
      (i, s.srcLane f.d w i, s.srcLane f.d w i * m % 2 ^ w)))] }) s
/-- VBREVIN (Table 5.3). -/
def execVbrevin (f : Fields) (s : State) : Out := vecIn 0x286 f (fun _ w d _ => revNat w d) s

/-- VSWAP (R117). -/
def execVswap (f : Fields) (s : State) : Out :=
  issued 0x290 f (fun s => .done { st := s, lands := exchange s f (fun _ => true) }) s
/-- VCSWAP: the lanes whose control B is not zero (R117). -/
def execVcswap (f : Fields) (s : State) : Out :=
  issued 0x291 f (fun s => .done { st := s, lands := exchange s f (fun i => s.srcLane f.b (wOf f) i != 0) }) s

/-- VREVL (R118). -/
def execVrevl (f : Fields) (s : State) : Out := vecPerm 0x2A0 f (fun s i => some (s.mySeq.vlen - 1 - i)) s
/-- VROTL: by s[A] mod VLEN (R118). -/
def execVrotl (f : Fields) (s : State) : Out :=
  vecPerm 0x2A1 f (fun s i => some ((i + (s.sreg f.a).toNat % s.mySeq.vlen) % s.mySeq.vlen)) s
/-- VBFLY: lane i XOR s[A][6:0], where active (R118). -/
def execVbfly (f : Fields) (s : State) : Out :=
  vecPerm 0x2A2 f (fun s i =>
    let j := i ^^^ ((s.sreg f.a).toNat % 128)
    if j < s.mySeq.vlen then some j else none) s

end Sys2Proof.Machine
end

