-- ==== Sys2Proof/Machine/VFloat.lean ====
section
/-! DEFINITION. The vector floating-point class, opcodes 0x40 to 0x45 (R156 to R170). -/

namespace Sys2Proof.Machine

/-! ## Lane operations on patterns -/

/-- The format that Q names. -/
def fmtIn (f : Fields) : Fmt := fmtOf f.q.toNat

/-- A result that combines operands: rounded once, a signalling operand adding NV (R158). -/
def fpRounded (t : Fmt) (env : FpEnv) (r : Ex × Nat) (ops : List Fp) : FpOut :=
  (t.round env r.1).plus (ops.foldl (fun fl x => fl ||| x.sigFlag) r.2)

/-- A value delivered as it is, exactly. -/
def Fmt.asIs (t : Fmt) (x : Fp) : Nat := (t.round FpEnv.rne x.exact).bits

/-- VFADD (Table 7.2). -/
def fpAdd (t : Fmt) (env : FpEnv) (a b : Nat) : FpOut :=
  let x := t.operand env.ftz a
  let y := t.operand env.ftz b
  fpRounded t env (exAdd env.rm x y) [x, y]
/-- VFSUB (Table 7.2). -/
def fpSub (t : Fmt) (env : FpEnv) (a b : Nat) : FpOut :=
  let x := t.operand env.ftz a
  let y := t.operand env.ftz b
  fpRounded t env (exAdd env.rm x y.negate) [x, y]
/-- VFMUL (Table 7.2). -/
def fpMul (t : Fmt) (env : FpEnv) (a b : Nat) : FpOut :=
  let x := t.operand env.ftz a
  let y := t.operand env.ftz b
  let p := exMul x y
  fpRounded t env (p.1.exact, p.2) [x, y]
/-- VFDIV (Table 7.2). -/
def fpDiv (t : Fmt) (env : FpEnv) (a b : Nat) : FpOut :=
  let x := t.operand env.ftz a
  let y := t.operand env.ftz b
  fpRounded t env (exDiv x y) [x, y]

/-- The one of two values that a choice takes; a lone NaN gives way to the other (R160). -/
def fpPick (t : Fmt) (env : FpEnv) (first : Fp → Fp → Bool) (a b : Nat) : FpOut :=
  let x := t.operand env.ftz a
  let y := t.operand env.ftz b
  let v :=
    if x.isNan then (if y.isNan then t.nan else t.asIs y)
    else if y.isNan then t.asIs x
    else if first x y then t.asIs x else t.asIs y
  ⟨v, x.sigFlag ||| y.sigFlag⟩
/-- VFMIN (R160). -/
def fpMin (t : Fmt) (env : FpEnv) (a b : Nat) : FpOut := fpPick t env Fp.le a b
/-- VFMAX (R160). -/
def fpMax (t : Fmt) (env : FpEnv) (a b : Nat) : FpOut := fpPick t env (fun x y => y.le x) a b

/-- VFSCALE: a × 2^n, rounded once (R161). -/
def fpScale (t : Fmt) (env : FpEnv) (a b : Nat) : FpOut :=
  match t.operand env.ftz a with
  | .nan s => ⟨t.nan, (Fp.nan s).sigFlag⟩
  | .inf s => ⟨t.infinity s, 0⟩
  | .fin s m e => t.round env (if m = 0 then .zero s else .num s m (e + toInt t.width b) false)

/-- The sign bit set on a magnitude; a NaN becomes canonical (R162). -/
def fpSetSign (t : Fmt) (env : FpEnv) (a : Nat) (neg : Bool) : FpOut :=
  let x := t.operand env.ftz a
  if x.isNan then ⟨t.nan, x.sigFlag⟩ else ⟨t.asIs (x.withSign neg), 0⟩
/-- VFCOPYSIGN (R162). -/
def fpCopysign (t : Fmt) (env : FpEnv) (a b : Nat) : FpOut :=
  (fpSetSign t env a (b / t.signBit % 2 == 1)).plus (t.value b).sigFlag
/-- VFABS (R162). -/
def fpAbs (t : Fmt) (env : FpEnv) (a : Nat) : FpOut := fpSetSign t env a false

/-- a × b + c with the signs of Table 7.3, in format t, rounded once to format wide (R163, R164). -/
def fpFma (t wide : Fmt) (env : FpEnv) (negP negC : Bool) (a b c : Nat) : FpOut :=
  let x := t.operand env.ftz a
  let y := t.operand env.ftz b
  let z := wide.operand env.ftz c
  let p := exMul x y
  let r := exAdd env.rm (if negP then p.1.negate else p.1) (if negC then z.negate else z)
  fpRounded wide env (r.1, r.2 ||| p.2) [x, y, z]

/-- VFSQRT (Table 7.4). -/
def fpSqrt (t : Fmt) (env : FpEnv) (a : Nat) : FpOut :=
  match t.operand env.ftz a with
  | .nan s => ⟨t.nan, (Fp.nan s).sigFlag⟩
  | .inf s => if s then ⟨t.nan, flNV⟩ else ⟨t.infinity false, 0⟩
  | .fin s m e => if m = 0 then ⟨t.sgn s, 0⟩ else if s then ⟨t.nan, flNV⟩ else t.round env (exRoot m e)
/-- VFRCP (Table 7.4). -/
def fpRcp (t : Fmt) (env : FpEnv) (a : Nat) : FpOut :=
  let x := t.operand env.ftz a
  fpRounded t env (exDiv (.fin false 1 0) x) [x]
/-- VFRSQ (Table 7.4). -/
def fpRsq (t : Fmt) (env : FpEnv) (a : Nat) : FpOut :=
  match t.operand env.ftz a with
  | .nan s => ⟨t.nan, (Fp.nan s).sigFlag⟩
  | .inf s => if s then ⟨t.nan, flNV⟩ else ⟨t.sgn false, 0⟩
  | .fin s m e => if m = 0 then ⟨t.infinity s, flDZ⟩ else if s then ⟨t.nan, flNV⟩ else t.round env (exRecipRoot m e)
/-- VFEXP2 (Table 7.4). -/
def fpExp2 (t : Fmt) (env : FpEnv) (a : Nat) : FpOut :=
  match t.operand env.ftz a with
  | .nan s => ⟨t.nan, (Fp.nan s).sigFlag⟩
  | .inf s => if s then ⟨t.sgn false, 0⟩ else ⟨t.infinity false, 0⟩
  | .fin s m e => t.round env (if m = 0 then .num false 1 0 false else exExp2 s m e)
/-- VFLOG2 (Table 7.4). -/
def fpLog2 (t : Fmt) (env : FpEnv) (a : Nat) : FpOut :=
  match t.operand env.ftz a with
  | .nan s => ⟨t.nan, (Fp.nan s).sigFlag⟩
  | .inf s => if s then ⟨t.nan, flNV⟩ else ⟨t.infinity false, 0⟩
  | .fin s m e => if m = 0 then ⟨t.infinity true, flDZ⟩ else if s then ⟨t.nan, flNV⟩ else t.round env (exLog2 m e)

/-- An integral value in a mode; exact says that NX is raised where it differs (Table 7.4). -/
def fpIntegral (t : Fmt) (env : FpEnv) (rm : Nat) (exact : Bool) (a : Nat) : FpOut :=
  match t.operand env.ftz a with
  | .nan s => ⟨t.nan, (Fp.nan s).sigFlag⟩
  | .inf s => ⟨t.infinity s, 0⟩
  | .fin s m e =>
    let r := roundAt rm s m e false 0
    let x : Fp := if 0 ≤ e then .fin s m e else .fin s r.1 0
    ⟨t.asIs x, if exact && decide (e < 0) && r.2 then flNX else 0⟩

/-- VFCLASS (Table 7.5). -/
def fpClass (t : Fmt) (env : FpEnv) (a : Nat) : FpOut :=
  let bit :=
    match t.operand env.ftz a with
    | .nan s => if s then 8 else 9
    | .inf s => if s then 0 else 7
    | .fin s m _ =>
      if m = 0 then (if s then 3 else 4)
      else if t.subnormal a then (if s then 2 else 5) else (if s then 1 else 6)
  ⟨2 ^ bit, 0⟩

/-- VFCMP: all ones where the condition holds; quiet says that only a signalling NaN raises NV (Table 7.6). -/
def fpCmp (t : Fmt) (env : FpEnv) (quiet onNan : Bool) (cond : Fp → Fp → Bool) (a b : Nat) : FpOut :=
  let x := t.operand env.ftz a
  let y := t.operand env.ftz b
  let unordered := x.isNan || y.isNan
  ⟨laneCmp (if unordered then onNan else cond x y) t.width,
    if quiet then x.sigFlag ||| y.sigFlag else if unordered then flNV else 0⟩

/-! ## Reduction (R168) -/

/-- A lane read as an operand: canonical NaN, zero for a flushed subnormal, the absolute value for AMAX. -/
def fpRead (t : Fmt) (env : FpEnv) (abs : Bool) (a : Nat) : FpOut :=
  let x := t.operand env.ftz a
  if x.isNan then ⟨t.nan, x.sigFlag⟩ else ⟨t.asIs (if abs then x.withSign false else x), 0⟩

/-- One level of the tree: positions in pairs, an odd last one carried; events carry the lowest lane of each step. -/
def fpLevel (op : Nat → Nat → FpOut) (l : List (Nat × Nat)) : List (Nat × Nat) × List FpEvent :=
  match l with
  | [] => ([], [])
  | [x] => ([x], [])
  | x :: y :: rest =>
    let o := op x.2 y.2
    let r := fpLevel op rest
    ((x.1, o.bits) :: r.1, (x.1, o.fl) :: r.2)

/-- The levels of the tree, seven from 128 lanes. -/
def fpTree (op : Nat → Nat → FpOut) (levels : Nat) (l : List (Nat × Nat)) : List (Nat × Nat) × List FpEvent :=
  match levels with
  | 0 => (l, [])
  | n + 1 =>
    let r := fpLevel op l
    let r2 := fpTree op n r.1
    (r2.1, r.2 ++ r2.2)

/-- VFRED: the tree over the active lanes, into lane 0 of D. -/
def vfRed (c : Code) (f : Fields) (abs : Bool) (op : Fmt → FpEnv → Nat → Nat → FpOut) (s : State) : Out :=
  issued c f (fun s =>
    let t := fmtIn f
    let env := s.fpEnv
    let reads := s.lanes.map (fun i => (i, fpRead t env abs (s.srcLane f.a t.width i)))
    let r := fpTree (op t env) 7 (reads.map (fun p => (p.1, p.2.bits)))
    s.withFlags (reads.map (fun p => (p.1, p.2.fl)) ++ r.2) (fun u =>
      .done (u.writeLanes f.e f.d t.width (reduceMeets f.d f.a u.mySeq.vlen)
        [(0, match r.1 with | p :: _ => p.2 | [] => 0)]))) s

/-! ## Forms -/

/-- Opcodes 0x40 and 0x43. -/
def vf2 (c : Code) (f : Fields) (op : Fmt → FpEnv → Nat → Nat → FpOut) (s : State) : Out :=
  issued c f (fun s =>
    let t := fmtIn f
    fpResult s f t.width [f.a, f.b] (fun i => op t s.fpEnv (s.srcLane f.a t.width i) (s.srcLane f.b t.width i))) s

/-- Opcode 0x42. -/
def vf1 (c : Code) (f : Fields) (op : Fmt → FpEnv → Nat → FpOut) (s : State) : Out :=
  issued c f (fun s =>
    let t := fmtIn f
    fpResult s f t.width [f.a] (fun i => op t s.fpEnv (s.srcLane f.a t.width i))) s

/-- Opcode 0x41, the fourth operand and the result in format wide. -/
def vf3 (c : Code) (f : Fields) (wide : Fmt) (negP negC : Bool) (s : State) : Out :=
  issued c f (fun s =>
    let t := fmtIn f
    let o : BitVec 12 := f.x.setWidth 12
    fpResult s f wide.width [f.a, f.b, o] (fun i =>
      fpFma t wide s.fpEnv negP negC (s.srcLane f.a t.width i) (s.srcLane f.b t.width i) (s.srcLane o wide.width i))) s

/-- The wide type of VFMAC (R164). -/
def wideOf (f : Fields) : Fmt := if f.q = 1 ∨ f.q = 2 then .f32 else fmtIn f

/-! ## Meanings -/

/-- VFADD (Table 7.2). -/
def execVfadd (f : Fields) (s : State) : Out := vf2 0x400 f fpAdd s
/-- VFSUB (Table 7.2). -/
def execVfsub (f : Fields) (s : State) : Out := vf2 0x401 f fpSub s
/-- VFMUL (Table 7.2). -/
def execVfmul (f : Fields) (s : State) : Out := vf2 0x402 f fpMul s
/-- VFMIN (R160). -/
def execVfmin (f : Fields) (s : State) : Out := vf2 0x403 f fpMin s
/-- VFMAX (R160). -/
def execVfmax (f : Fields) (s : State) : Out := vf2 0x404 f fpMax s
/-- VFDIV (Table 7.2). -/
def execVfdiv (f : Fields) (s : State) : Out := vf2 0x405 f fpDiv s
/-- VFSCALE (R161). -/
def execVfscale (f : Fields) (s : State) : Out := vf2 0x406 f fpScale s
/-- VFCOPYSIGN (R162). -/
def execVfcopysign (f : Fields) (s : State) : Out := vf2 0x407 f fpCopysign s
/-- VFMA: a × b + c (Table 7.3). -/
def execVfma (f : Fields) (s : State) : Out := vf3 0x410 f (fmtIn f) false false s
/-- VFMS: a × b − c (Table 7.3). -/
def execVfms (f : Fields) (s : State) : Out := vf3 0x411 f (fmtIn f) false true s
/-- VFNMA: c − a × b (Table 7.3). -/
def execVfnma (f : Fields) (s : State) : Out := vf3 0x412 f (fmtIn f) true false s
/-- VFMAC: a × b + c in the wide type (R164). -/
def execVfmac (f : Fields) (s : State) : Out := vf3 0x413 f (wideOf f) false false s
/-- VFABS (R162). -/
def execVfabs (f : Fields) (s : State) : Out := vf1 0x420 f fpAbs s
/-- VFSQRT (Table 7.4). -/
def execVfsqrt (f : Fields) (s : State) : Out := vf1 0x421 f fpSqrt s
/-- VFRCP (Table 7.4). -/
def execVfrcp (f : Fields) (s : State) : Out := vf1 0x422 f fpRcp s
/-- VFRSQ (Table 7.4). -/
def execVfrsq (f : Fields) (s : State) : Out := vf1 0x423 f fpRsq s
/-- VFEXP2 (Table 7.4). -/
def execVfexp2 (f : Fields) (s : State) : Out := vf1 0x424 f fpExp2 s
/-- VFLOG2 (Table 7.4). -/
def execVflog2 (f : Fields) (s : State) : Out := vf1 0x425 f fpLog2 s
/-- VFFLOOR (Table 7.4). -/
def execVffloor (f : Fields) (s : State) : Out := vf1 0x426 f (fun t env a => fpIntegral t env 2 false a) s
/-- VFCEIL (Table 7.4). -/
def execVfceil (f : Fields) (s : State) : Out := vf1 0x427 f (fun t env a => fpIntegral t env 3 false a) s
/-- VFTRUNC (Table 7.4). -/
def execVftrunc (f : Fields) (s : State) : Out := vf1 0x428 f (fun t env a => fpIntegral t env 1 false a) s
/-- VFRINT (Table 7.4). -/
def execVfrint (f : Fields) (s : State) : Out := vf1 0x429 f (fun t env a => fpIntegral t env env.rm true a) s
/-- VFCLASS (R166). -/
def execVfclass (f : Fields) (s : State) : Out := vf1 0x42A f fpClass s
/-- VFCMP.EQ (Table 7.6). -/
def execVfcmpEq (f : Fields) (s : State) : Out := vf2 0x430 f (fun t env a b => fpCmp t env true false Fp.eq a b) s
/-- VFCMP.NE (Table 7.6). -/
def execVfcmpNe (f : Fields) (s : State) : Out := vf2 0x431 f (fun t env a b => fpCmp t env true true (fun x y => !x.eq y) a b) s
/-- VFCMP.LT (Table 7.6). -/
def execVfcmpLt (f : Fields) (s : State) : Out := vf2 0x432 f (fun t env a b => fpCmp t env false false Fp.lt a b) s
/-- VFCMP.LE (Table 7.6). -/
def execVfcmpLe (f : Fields) (s : State) : Out := vf2 0x433 f (fun t env a b => fpCmp t env false false (fun x y => !y.lt x) a b) s
/-- VFCMP.GT (Table 7.6). -/
def execVfcmpGt (f : Fields) (s : State) : Out := vf2 0x434 f (fun t env a b => fpCmp t env false false (fun x y => y.lt x) a b) s
/-- VFCMP.GE (Table 7.6). -/
def execVfcmpGe (f : Fields) (s : State) : Out := vf2 0x435 f (fun t env a b => fpCmp t env false false (fun x y => !x.lt y) a b) s
/-- VFCMP.UNORD (Table 7.6). -/
def execVfcmpUnord (f : Fields) (s : State) : Out := vf2 0x436 f (fun t env a b => fpCmp t env true true (fun _ _ => false) a b) s
/-- VFCMP.ORD (Table 7.6). -/
def execVfcmpOrd (f : Fields) (s : State) : Out := vf2 0x437 f (fun t env a b => fpCmp t env true false (fun _ _ => true) a b) s
/-- VFRED.ADD (R168). -/
def execVfredAdd (f : Fields) (s : State) : Out := vfRed 0x440 f false fpAdd s
/-- VFRED.MAX (R168). -/
def execVfredMax (f : Fields) (s : State) : Out := vfRed 0x441 f false fpMax s
/-- VFRED.MIN (R168). -/
def execVfredMin (f : Fields) (s : State) : Out := vfRed 0x442 f false fpMin s
/-- VFRED.AMAX (R168). -/
def execVfredAmax (f : Fields) (s : State) : Out := vfRed 0x443 f true fpMax s
/-- VFNEGIN: the sign bit of each active lane inverted in place (R169). -/
def execVfnegin (f : Fields) (s : State) : Out :=
  issued 0x450 f (fun s =>
    let w := (fmtIn f).width
    .done { st := s, lands := [changeLanes f.d w (s.lanes.map (fun i => (i, 0, 2 ^ (w - 1))))] }) s

end Sys2Proof.Machine
end

