-- ==== Sys2Proof/Machine/Convert.lean ====
section
/-! DEFINITION. The conversion class, opcodes 0x50 to 0x55 (R145 to R155). -/

namespace Sys2Proof.Machine

/-! ## Types and modes (R145) -/

/-- The destination's type code: the pair (DCLS, Q). -/
def dstCode (f : Fields) : Nat := if f.x.getLsbD 4 then f.q.toNat else 8 + f.q.toNat

/-- RMO, or FPCTL.RM where RMO is 0. -/
def State.convEnv (s : State) (f : Fields) : FpEnv :=
  let r := f.x.toNat / 32 % 8
  { s.fpEnv with rm := if r = 0 then s.fpEnv.rm else r % 4 }

/-- Overflow saturates: OVF = 0, on the 8-bit formats only. -/
def saturates (dst : Nat) (ovf : Bool) : Bool := !ovf && (dst == 12 || dst == 13)

/-- A source of a type as a value; an integer is exact. -/
def sourceOf (ty : Nat) (ftz : Bool) (v : Nat) : Fp :=
  if ty < 8 then
    let z := readInt ty (intWidth ty) v
    .fin (decide (z < 0)) z.natAbs 0
  else (fmtOf (ty - 8)).operand ftz v

/-- A value delivered in a type (Table 6.6, R149, R150). -/
def deliverType (dst : Nat) (env : FpEnv) (ovf : Bool) (x : Ex) : FpOut :=
  if dst < 8 then toIntType dst (intWidth dst) env.rm x
  else (fmtOf (dst - 8)).deliver env (saturates dst ovf) x

/-- VCVT of one lane (Table 6.6). -/
def convLane (src dst : Nat) (env : FpEnv) (ovf : Bool) (v : Nat) : FpOut :=
  let x := sourceOf src env.ftz v
  let o := (deliverType dst env ovf x.exact).plus x.sigFlag
  if src < 8 ∧ dst < 8 then { o with fl := 0 } else o

/-- The lane of an invalid scale, or of a NaN: canonical NaN, or 0 for an integer type. -/
def nanOfType (dst : Nat) : Nat := if dst < 8 then 0 else (fmtOf (dst - 8)).nan

/-- VQNT of one lane: a / s rounded once, the scale judged first (R149). -/
def quantLane (dst : Nat) (env : FpEnv) (ovf : Bool) (a sc : Nat) : FpOut :=
  let y := Fmt.f32.operand env.ftz sc
  let x := Fmt.f32.operand env.ftz a
  if y.isNan || y.isInf || y.isZero || sc / 2 ^ 31 % 2 == 1 then ⟨nanOfType dst, flNV⟩
  else if x.isNan then ⟨nanOfType dst, x.sigFlag⟩
  else deliverType dst env ovf (exDiv x y).1

/-- VDQNT of one lane: a × s rounded once (R150). -/
def dequantLane (src dst : Nat) (env : FpEnv) (a sc : Nat) : FpOut :=
  let x := sourceOf src env.ftz a
  let y := Fmt.f32.operand env.ftz sc
  let p := exMul x y
  ((fmtOf (dst - 8)).round env p.1.exact).plus (p.2 ||| x.sigFlag ||| y.sigFlag)

/-- The largest finite value of a destination of VSCL (R151). -/
def scaleTop (dst : Nat) : Nat :=
  match dst with
  | 12 => 448
  | 13 => 57344
  | 10 => 65504
  | 0 => 127
  | 4 => 255
  | 1 => 32767
  | _ => 65535

/-- A power of two as FP32 bits, from 2^−149 up. -/
def pow2Bits (k : Int) : Nat := if k < -126 then 2 ^ (k + 149).toNat else (k + 127).toNat * 2 ^ 23

/-- The block scale of a largest magnitude m over f, rounded up (R151). -/
def scaleUp (pow2 : Bool) (m f : Nat) (e : Int) : FpOut :=
  match exQuot false m e f 0 with
  | .num _ q g sticky =>
    if pow2 then
      let k := g + (numBits q : Int) - 1
      let exact := q == 2 ^ (numBits q - 1) && !sticky
      let k1 := if exact then k else k + 1
      ⟨pow2Bits (max k1 (-149)), if exact && decide (-149 ≤ k) then 0 else flNX⟩
    else
      let o := Fmt.f32.round ⟨3, false⟩ (.num false q g sticky)
      ⟨o.bits, o.fl &&& flNX⟩
  | _ => ⟨0, 0⟩

/-- The larger magnitude of two finite values. -/
def largerMag (x y : Fp) : Fp := if (x.withSign false).lt (y.withSign false) then y else x

/-- The scale of the values of the active lanes (R151). -/
def blockScale (dst : Nat) (pow2 ftz : Bool) (l : List Fp) : FpOut :=
  if l.any Fp.isNan then ⟨0x7FC00000, 0⟩
  else if l.any Fp.isInf then ⟨0x7F800000, 0⟩
  else
    match l.foldl largerMag (.fin false 0 0) with
    | .fin _ m e =>
      if m = 0 then ⟨0x3F800000, 0⟩
      else
        let o := scaleUp pow2 m (scaleTop dst) e
        if ftz && decide (o.bits < 0x00800000) then { o with bits := 0x00800000 } else o
    | _ => ⟨0x3F800000, 0⟩

/-- VSPLIT of one lane: head in the low bits, FP32 tail above (R153). -/
def splitLane (dst : Nat) (env : FpEnv) (a : Nat) : FpOut :=
  let x := Fmt.f32.operand env.ftz a
  let t := fmtOf (dst - 8)
  if x.isNan then ⟨0x7FC00000 * 2 ^ 32 + t.nan, x.sigFlag⟩
  else
    let h := (t.deliver env (saturates dst false) x.exact).bits
    let hv := t.value h
    if x.isInf && hv.isInf then ⟨h, 0⟩
    else
      let l := Fmt.f32.round env (exAdd env.rm x hv.negate).1
      ⟨l.bits * 2 ^ 32 + h, l.fl⟩

/-! ## Meanings -/

/-- VCVT (R148). -/
def execVcvt (f : Fields) (s : State) : Out :=
  issued 0x500 f (fun s =>
    let src := f.x.toNat % 16
    fpResult s f (codeWidth (dstCode f)) [f.a] (fun i =>
      convLane src (dstCode f) (s.convEnv f) (f.x.getLsbD 8) (s.srcLane f.a (codeWidth src) i))) s

/-- VQNT (R149). -/
def execVqnt (f : Fields) (s : State) : Out :=
  issued 0x510 f (fun s =>
    fpResult s f (codeWidth (dstCode f)) [f.a, f.b] (fun i =>
      quantLane (dstCode f) (s.convEnv f) (f.x.getLsbD 8) (s.srcLane f.a 32 i) (s.srcLane f.b 32 i))) s

/-- VDQNT (R150). -/
def execVdqnt (f : Fields) (s : State) : Out :=
  issued 0x520 f (fun s =>
    let src := f.x.toNat % 16
    fpResult s f (codeWidth (dstCode f)) [f.a, f.b] (fun i =>
      dequantLane src (dstCode f) (s.convEnv f) (s.srcLane f.a (codeWidth src) i) (s.srcLane f.b 32 i))) s

/-- VSCL: one block scale into every active lane of D (R147, R151). -/
def execVscl (f : Fields) (s : State) : Out :=
  issued 0x530 f (fun s =>
    let vals := s.lanes.map (fun i => (i, Fmt.f32.operand s.fpEnv.ftz (s.srcLane f.a 32 i)))
    let o := blockScale (dstCode f) (f.x.getLsbD 9) s.fpEnv.ftz (vals.map (fun p => p.2))
    s.withFlags ((0, o.fl) :: vals.map (fun p => (p.1, p.2.sigFlag))) (fun t =>
      .done (t.writeLanes f.e f.d 32 (reduceMeets f.d f.a t.mySeq.vlen) (t.lanes.map (fun i => (i, o.bits)))))) s

/-- The lanes that packed elements fill: ceil(VLEN / per). -/
def packedLanes (n per : Nat) : List Nat := List.range ((n + per - 1) / per)

/-- VPACK (R154). -/
def execVpack (f : Fields) (s : State) : Out :=
  issued 0x540 f (fun s =>
    let w := codeWidth (dstCode f)
    let per := 32 / w
    let n := s.mySeq.vlen
    let pack (j : Nat) : Nat := (List.range per).foldl (fun v k =>
      if per * j + k < n then v + s.srcLane f.a w (per * j + k) * 2 ^ (w * k) else v) 0
    .done (s.writeLanes f.e f.d 32 (fun _ => false) ((packedLanes n per).map (fun j => (j, pack j))))) s

/-- VUNPK (R154). -/
def execVunpk (f : Fields) (s : State) : Out :=
  issued 0x541 f (fun s =>
    let w := codeWidth (dstCode f)
    let per := 32 / w
    .done (s.writeLanes f.e f.d w (fun _ => false) (s.lanes.map (fun i =>
      (i, s.srcLane f.a 32 (i / per) / 2 ^ (w * (i % per)) % 2 ^ w))))) s

/-- VSPLIT (R153). -/
def execVsplit (f : Fields) (s : State) : Out :=
  issued 0x550 f (fun s =>
    fpResult s f 64 [f.a] (fun i => splitLane (dstCode f) (s.convEnv f) (s.srcLane f.a 32 i))) s

end Sys2Proof.Machine
end

