-- ==== Sys2Proof/Machine/Matrix.lean ====
section
/-! DEFINITION. The matrix array driven by instructions (R171 to R186): passes and promotion, MMA, MLDA, WSWAP, ADRN, ACLR, and MTT. -/

namespace Sys2Proof.Machine

/-! ## A pass -/

/-- ELEM of MMA and of a nest: E4M3, INT8 scaled, INT8 exact. -/
inductive ElemMode where
  | e4m3 | int8 | int8x
  deriving DecidableEq, Repr

def elemMode (n : Nat) : ElemMode :=
  match n with
  | 0 => .e4m3
  | 1 => .int8
  | _ => .int8x

/-- Element k of row-buffer slot s, element (k, n) and sparse index of weight bank bk (Table 8.1). -/
def Core.slotElem (c : Core) (s k : Nat) : Nat := (Tab.get c.mx.elems (128 * s + k) 0).toNat
def Core.bankElem (c : Core) (bk k n : Nat) : Nat := (Tab.get c.mx.bank (16384 * bk + 128 * k + n) 0).toNat
def Core.bankIndex (c : Core) (bk k n : Nat) : Nat :=
  (Tab.get c.mx.index (4096 * bk + 32 * k + n / 4) 0).toNat / 4 ^ (n % 4) % 4

/-- A product as an integer count of 2^−18 for E4M3, of 1 for INT8; a NaN contributes nothing (R173). -/
def product (m : ElemMode) (a b : Nat) : Int :=
  match m with
  | .e4m3 =>
    match Fmt.e4m3.value a, Fmt.e4m3.value b with
    | .fin s m e, .fin t n g =>
      let v : Int := ((m * n) <<< (e + g + 18).toNat : Nat)
      if s != t then -v else v
    | _, _ => 0
  | _ => toInt 8 a * toInt 8 b

/-- The active element pairs of one column of a partial, as patterns of A and B. -/
abbrev Pairs := List (Nat × Nat)

/-- The pairs of a dense pass: K indices below KLEN and 128 (R178). -/
def Core.densePairs (c : Core) (bk slot klen n : Nat) : Pairs :=
  (List.range (min klen 128)).map (fun k => (c.slotElem slot k, c.bankElem bk k n))

/-- The pairs of one half of a sparse pass: kept elements whose position lies below KLEN (R176). -/
def Core.sparsePairs (c : Core) (bk slot half klen n : Nat) : Pairs :=
  ((List.range 64).map (fun j => 64 * half + j)).filterMap (fun r =>
    let p := 4 * (r / 2) + c.bankIndex bk r n
    if p < klen then some (c.slotElem slot (p - 128 * half), c.bankElem bk r n) else none)

/-- P[n] (R173). -/
def partialSum (m : ElemMode) (l : Pairs) : Int := l.foldl (fun z p => z + product m p.1 p.2) 0

/-- MSTAT bits. -/
def mstNan : Nat := 1
def mstOf : Nat := 2
def mstSat : Nat := 4

/-- The scaled promotion of one column (R174, R175): the new accumulator bits and the MSTAT bits it sets. -/
def promoteScaled (m : ElemMode) (l : Pairs) (sa sb acc : Nat) : Nat × Nat :=
  let nanElem := decide (m = .e4m3) && l.any (fun p => (Fmt.e4m3.value p.1).isNan || (Fmt.e4m3.value p.2).isNan)
  let a := Fmt.f32.value sa
  let b := Fmt.f32.value sb
  let old := Fmt.f32.value acc
  if nanElem || a.isNan || b.isNan || old.isNan then (Fmt.f32.nan, mstNan)
  else
    let p := partialSum m l
    let term := (exMul (exMul (.fin (decide (p < 0)) p.natAbs (if m = .e4m3 then -18 else 0)) a).1 b).1
    if term.isNan then (Fmt.f32.nan, mstNan)
    else
      match exAdd 0 old term with
      | (.nan, _) => (Fmt.f32.nan, mstNan)
      | (x, _) =>
        let o := Fmt.f32.round FpEnv.rne x
        (o.bits, if o.fl &&& flOF ≠ 0 then mstOf else 0)

/-- The exact promotion of one column (R174). -/
def promoteExact (l : Pairs) (acc : Nat) : Nat × Nat :=
  let z := toInt 32 acc + partialSum .int8x l
  if z < intMin 2 32 then (wrap 32 (intMin 2 32), mstSat)
  else if intMax 2 32 < z then (wrap 32 (intMax 2 32), mstSat)
  else (wrap 32 z, 0)

/-- One column's partial promoted into a value of its accumulator. -/
def promote (m : ElemMode) (l : Pairs) (sa sb acc : Nat) : Nat × Nat :=
  match m with
  | .int8x => promoteExact l acc
  | _ => promoteScaled m l sa sb acc

/-- Sets MSTAT bits. -/
def Core.addMstat (c : Core) (bits : Nat) : Core :=
  if bits = 0 then c else c.setSys 0x080 (c.sysreg 0x080 ||| BitVec.ofNat 64 bits)

/-- The parts of a pass, in the order of their promotion: a slot, and the half of a sparse pass. -/
def passParts (sparse : Bool) (slot : Nat) : List (Nat × Nat) :=
  if sparse then [(slot, 0), ((slot + 1) % 64, 1)] else [(slot, 0)]

/-- A pass from a slot against the active bank, promoted into row of accumulator acc; clears the row's value first where clr (R174 to R178). -/
def Core.pass (c : Core) (m : ElemMode) (sparse clr : Bool) (slot acc row klen cols : Nat) : Core :=
  let bk := bitNat c.mx.active
  let sb := (Tab.get c.mx.tile bk 0).toNat
  let column (n : Nat) : Nat × Nat :=
    (passParts sparse slot).foldl (fun r p =>
      let pairs := if sparse then c.sparsePairs bk p.1 p.2 klen n else c.densePairs bk p.1 klen n
      let o := promote m pairs (Tab.get c.mx.scales p.1 0).toNat sb r.1
      (o.1, r.2 ||| o.2)) (if clr then 0 else (c.accCell acc row n).toNat, 0)
  (List.range cols).foldl (fun k n =>
    let o := column n
    (k.setAcc acc row n (BitVec.ofNat 32 o.1)).addMstat o.2) c

/-! ## Instructions -/

/-- MMA: one pass (R180); it stalls while a nest or a reel holds the array (R186), and while an earlier pass occupies it (R172, R185). -/
def execMma (f : Fields) (s : State) : Out :=
  issued 0x630 f (fun s =>
    let x := f.x.toNat
    if s.myCore.arrayHeld || s.myCore.arrayBusy then .stall s
    else done (s.modMyCore (fun c => (c.pass (elemMode (x / 16384 % 4)) (f.x.getLsbD 16) false (x % 64) (x / 8192 % 2) (x / 64 % 128)
      s.mySeq.klen s.mySeq.cols).takeArray (x / 16384 % 4) (stretch (s.effRc s.node f.rc))))) s

/-- Writes a slot: its elements, its scale, FILL (R181). -/
def Core.loadSlot (c : Core) (slot : Nat) (elem : Nat → Nat) (scale : W32) : Core :=
  let elems := (List.range 128).foldl (fun t k => Tab.put0 0 t (128 * slot + k) (BitVec.ofNat 8 (elem k))) c.mx.elems
  ({ c with mx := { c.mx with elems := elems, scales := Tab.put0 0 c.mx.scales slot scale } }).setFill slot true

/-- MLDA (R181). -/
def execMlda (f : Fields) (s : State) : Out :=
  issued 0x640 f (fun s =>
    let elem (k : Nat) : Nat :=
      if s.mySeq.klen ≤ k then 0
      else if f.x.getLsbD 6 then s.srcLane f.a 32 (k / 4) / 256 ^ (k % 4) % 256
      else s.srcLane f.a 8 k
    if s.myCore.arrayHeld then .stall s
    else done (s.modMyCore (fun c => c.loadSlot (f.x.toNat % 64) elem (BitVec.ofNat 32 (s.srcLane f.b 32 0))))) s

/-- A copy into the weight bank has begun: its CPYW has issued, which is when its bank is fixed (R231; DEDUCED, log 85). -/
def Core.fillsBank (c : Core) : Bool :=
  c.ldq.any (fun t => match t.copy with | .weights _ _ _ _ _ _ _ => true | _ => false)

/-- WSWAP: the active and the shadow bank exchange roles; it waits for copies into the shadow bank that have begun (R182). -/
def execWswap (f : Fields) (s : State) : Out :=
  issued 0x650 f (fun s =>
    if s.myCore.arrayHeld || s.myCore.fillsBank then .stall s
    else done (s.modMyCore (fun c => { c with mx := { c.mx with active := !c.mx.active } }))) s

/-- ACLR or ADRN names a reserved row (R186). -/
def Core.rowReserved (c : Core) (acc row : Nat) : Bool := decide (row < c.accFree acc)

/-- An operand field advanced by j rows or columns. -/
def advanceField (o : BitVec 12) (j : Nat) : BitVec 12 := o + BitVec.ofNat 12 j

/-- One value of ADRN: x × B rounded to Q (R184). -/
def drainValue (isInt : Bool) (t : Fmt) (env : FpEnv) (sat : Bool) (x sc : Nat) : FpOut :=
  let a := if isInt then sourceOf 2 env.ftz x else Fmt.f32.operand env.ftz x
  let b := Fmt.f32.operand env.ftz sc
  let p := exMul a b
  (t.deliver env sat p.1.exact).plus (p.2 ||| a.sigFlag ||| b.sigFlag)

/-- The rows that ADRN drains: counts j with AROW + j below ROWS. -/
def drainRows (s : State) (f : Fields) : List Nat :=
  (List.range (f.x.toNat / 256 % 128 + 1)).filter (fun j => decide (f.x.toNat % 128 + j < s.mySeq.rows))

/-- ADRN: accumulator rows into the matrix file (R184). -/
def execAdrn (f : Fields) (s : State) : Out :=
  issued 0x660 f (fun s =>
    let x := f.x.toNat
    let acc := x / 128 % 2
    let from_ := x / 32768 % 4
    let t := fmtIn f
    let w := if from_ = 2 then 32 else t.width
    let value (j i : Nat) : FpOut :=
      let v := (s.myCore.accCell acc (x % 128 + j) i).toNat
      if from_ = 2 then ⟨v, 0⟩ else drainValue (from_ == 1) t s.fpEnv (f.q == 4 && !f.x.getLsbD 17) v (s.srcLane f.b 32 i)
    if s.myCore.rowReserved acc (x % 128) then .stall s
    else
      let rows := (drainRows s f).map (fun j => (advanceField f.d j, s.lanes.map (fun i => (i, value j i))))
      s.withFlags (rows.flatMap (fun r => r.2.map (fun p => (p.1, p.2.fl)))) (fun t =>
        .done (rows.foldl (fun (d : Done) r =>
          let e := d.st.writeLanes f.e r.1 w (overlapsIn r.1 (if from_ = 2 then [] else [f.b])) (r.2.map (fun p => (p.1, p.2.bits)))
          { e with lands := d.lands ++ e.lands }) { st := t }))) s

/-- ACLR: accumulator rows below ROWS to +0 (R183). -/
def execAclr (f : Fields) (s : State) : Out :=
  issued 0x670 f (fun s =>
    let x := f.x.toNat
    let acc := x / 128 % 2
    if s.myCore.rowReserved acc (x % 128) then .stall s
    else done (s.modMyCore (fun c => (drainRows s f).foldl (fun c j =>
      (List.range 128).foldl (fun c n => c.setAcc acc (x % 128 + j) n 0) c) c))) s

/-- MTT: a word of the loop-nest shadow table, after CT's older accesses (R192). -/
def execMtt (f : Fields) (s : State) : Out :=
  issued 0x600 f (fun s =>
    let t := s.drainQueue s.node s.me
    done (t.modMyCore (fun c => { c with nestTab := Tab.put0 0 c.nestTab (f.x.toNat % 32) ((s.sreg f.a).setWidth 32) }))) s

end Sys2Proof.Machine
end

