-- ==== Sys2Proof/Machine/Copy.lean ====
section
/-! DEFINITION. The copy unit (R228 to R232, R235, R297): TLD, TST, CPY, CPYW, XPUT and XGET as they issue, and the chunks in which they run. -/

namespace Sys2Proof.Machine

/-! ## Chunks (R229) -/

/-- How a chunk fares: done, stalled on a drain, or a fault that freezes the core. -/
inductive Chunk where
  | done (s : State)
  | stalls (count : Nat)
  | fault (cause : Nat) (va : Word)
  deriving DecidableEq, Repr

/-- What an engine's allowed accesses leave beside their data: TLBMISS, and the symbols that its reads correct (R221, R378). -/
def State.noteAccs (s : State) (n : Nat) (l : List Acc) : State :=
  let t := s.countMisses n (l.map (fun a => a.va))
  if t.weak.isEmpty then t
  else ((l.flatMap (fun a => if a.want.r then t.wordsRead n a.size [a.va] else t.tablesRead n [a.va])).eraseDups).foldl State.correct t

/-- A chunk with these accesses, whose effect follows when all are allowed. -/
def State.chunk (s : State) (n : Nat) (l : List Acc) (k : State → State) : Chunk :=
  match s.judge n l with
  | .stalls c => .stalls c
  | .fault cause va => .fault cause va
  | .allowed => .done (k (s.noteAccs n l))

/-- Accesses of one kind. -/
def accs (want : Want) (size : Nat) (vas : List Word) : List Acc := vas.map (fun va => { want := want, va := va, size := size })

/-- The writes of a chunk that fills len bytes from an address, in units of size bytes: each says whether the chunk covers the 8-byte word that it lies in (R378). -/
def chunkWrites (want : Want) (size : Nat) (start : Word) (len : Nat) : List Acc :=
  (units start size (len / size)).map (fun va =>
    let off := (va - start).toNat
    let before := va.toNat % 8
    { want := { want with cover := decide (before ≤ off) && decide (off + 8 - before ≤ len) }, va := va, size := size })

/-- The words that such a chunk covers hold valid codewords, whatever they held (R378). -/
def State.healChunk (s : State) (n : Nat) (start : Word) (len : Nat) : State :=
  if s.bad.isEmpty && s.weak.isEmpty then s
  else
    let skip := (8 - start.toNat % 8) % 8
    (units (start + BitVec.ofNat 64 skip) 8 ((len - skip) / 8)).foldl (fun t va =>
      match t.xlate n va with
      | some x => t.heal (x.addr va) 8
      | none => t) s

/-- The bytes of a CPY up to a 4 KiB boundary of its destination: offsets where its pieces begin. -/
def pieceStart (dst : Word) (j : Nat) : Nat :=
  if j = 0 then 0 else 4096 * j - dst.toNat % 4096

/-- The chunks of a transfer. -/
def Copy.chunks (c : Copy) : Nat :=
  match c with
  | .tile _ _ _ _ rows _ _ _ => rows
  | .bytes dst _ len _ _ _ => if len = 0 then 0 else (dst.toNat % 4096 + len + 4095) / 4096
  | .weights _ _ _ _ _ sparse _ => if sparse then 130 else 129

/-- Row j of a TLD or TST: cells of the line INDEX + j against va + j × PITCH. -/
def State.tileChunk (s : State) (n : Nat) (load e : Bool) (field : BitVec 12) (width cols : Nat) (va pitch : Word) (j : Nat) : Chunk :=
  let o := advanceField field j
  let row := va + BitVec.ofNat 64 (pitch.toNat * j)
  let vas := units row (width / 8) cols
  if load then
    s.chunk n (accs Want.load (width / 8) vas) (fun t =>
      t.loadLanes n e o width (fun _ => false) ((vas.zipIdx).map (fun p => (p.2, BitVec.ofNat 64 (t.load n p.1 (width / 8))))))
  else
    let len := cols * (width / 8)
    s.chunk n (chunkWrites Want.store (width / 8) row len) (fun t =>
      (vas.zipIdx).foldl (fun u p => u.engineWrite n p.1 (width / 8) ((t.core n).laneWord o p.2)) (t.healChunk n row len))

/-- Piece j of a CPY, XPUT or XGET, in aligned words; of several that fault, a word of the source is named before one of the destination (DESIGN CHOICE, log 91). -/
def State.bytesChunk (s : State) (n : Nat) (dst src : Word) (len : Nat) (farSrc farDst grid : Bool) (j : Nat) : Chunk :=
  let a := pieceStart dst j
  let b := min len (pieceStart dst (j + 1))
  let from_ := units (src + BitVec.ofNat 64 a) 4 ((b - a) / 4)
  let to_ := units (dst + BitVec.ofNat 64 a) 4 ((b - a) / 4)
  s.chunk n (accs { r := true, far := farSrc } 4 from_ ++ chunkWrites { w := true, grid := grid, far := farDst } 4 (dst + BitVec.ofNat 64 a) (b - a))
    (fun t => (to_.zip (from_.map (fun va => BitVec.ofNat 64 (t.load n va 4)))).foldl (fun u p => u.engineWrite n p.1 4 p.2)
      (t.healChunk n (dst + BitVec.ofNat 64 a) (b - a)))

/-- Sets a byte of a weight bank. -/
def MatrixStores.setBank (m : MatrixStores) (bk k n : Nat) (v : Byte) : MatrixStores :=
  { m with bank := Tab.put0 0 m.bank (16384 * bk + 128 * k + n) v }

/-- A row of a weight bank from memory, zero beyond the clips (R231). -/
def State.fillBankRow (s : State) (n bk k : Nat) (row : Word) (live : Nat) : State :=
  s.modCore n (fun c => { c with mx := (List.range 128).foldl (fun m j =>
    m.setBank bk k j (if j < live then BitVec.ofNat 8 (s.load n (row + BitVec.ofNat 64 j) 1) else 0)) c.mx })

/-- The sparse index bytes of a bank. -/
def State.fillBankIndex (s : State) (n bk : Nat) (va : Word) : State :=
  s.modCore n (fun c => { c with mx := (List.range 4096).foldl (fun m j =>
    { m with index := Tab.put0 0 m.index (4096 * bk + j) (BitVec.ofNat 8 (s.load n (va + BitVec.ofNat 64 j) 1)) }) c.mx })

/-- The tile scale of a bank. -/
def Core.setTile (c : Core) (bk : Nat) (v : W32) : Core := { c with mx := { c.mx with tile := Tab.put0 0 c.mx.tile bk v } }

/-- The tile scale of a bank: 1.0, or the word at an address. -/
def State.fillBankScale (s : State) (n bk : Nat) (scale : Option Word) : State :=
  s.modCore n (fun c => c.setTile bk (match scale with | some va => BitVec.ofNat 32 (s.load n va 4) | none => 0x3F800000))

/-- Chunk j of a CPYW: a bank row, then the scale, then the index bytes (R229, R231). -/
def State.weightsChunk (s : State) (n : Nat) (d : List W32) (va : Word) (klen cols : Nat) (scale : Option Word) (bank : Bool) (j : Nat) : Chunk :=
  let bk := bitNat bank
  if j < 128 then
    let row := va + BitVec.ofNat 64 ((streamPitch d).toNat * j)
    let live := if j < min klen 128 then cols else 0
    s.chunk n (accs Want.load 1 (units row 1 live)) (fun t => t.fillBankRow n bk j row live)
  else if j = 128 then
    s.chunk n (match scale with | some a => accs Want.load 4 [a] | none => []) (fun t => t.fillBankScale n bk scale)
  else
    let a := va + BitVec.ofNat 64 ((streamPitch d).toNat * 128)
    s.chunk n (accs Want.load 1 (units a 1 4096)) (fun t => t.fillBankIndex n bk a)

/-- Chunk j of a transfer. -/
def State.copyChunk (s : State) (n : Nat) (c : Copy) (j : Nat) : Chunk :=
  match c with
  | .tile load e field width _ cols va pitch => s.tileChunk n load e field width cols va pitch j
  | .bytes dst src len fs fd grid => s.bytesChunk n dst src len fs fd grid j
  | .weights d va klen cols scale _ bank => s.weightsChunk n d va klen cols scale bank j

/-! ## Running -/

/-- A transfer's bytes where XCNT and XBYTES count it (R310). -/
def Copy.fabricBytes (c : Copy) : Option Nat :=
  match c with
  | .bytes _ _ len fs fd _ => if fs || fd then some len else none
  | _ => none

/-- A transfer retires: its pushes are placed, its permit released, the fabric counters moved (R91, R310). -/
def State.retireCopy (s : State) (n : Nat) (q : SeqId) (t : Transfer) : State :=
  let s1 := if t.permit then s.releaseTransfer n q t.tag else s
  s1.modCore n (fun c =>
    let c1 := (c.setTransfers q ((c.transfers q).drop 1)).place q t.pushes
    match t.copy.fabricBytes with
    | some b => (c1.setSys 0x240 (c1.sysreg 0x240 + 1)).setSys 0x241 (c1.sysreg 0x241 + BitVec.ofNat 64 b)
    | none => c1)

/-- Replaces the transfer at the head of a queue. -/
def State.setTransfer (s : State) (n : Nat) (q : SeqId) (t : Transfer) : State :=
  s.modCore n (fun c => c.setTransfers q (t :: (c.transfers q).drop 1))

/-- The next chunk of the transfer at the head of a queue; at a boundary a transfer whose lease has ended gives its permit back and asks again, before the core and those after it arbitrate in a cycle (R352, R353). Its writes are performed together, which is one of the orders R229 leaves open (DESIGN CHOICE, log 91). -/
def State.runChunk (s : State) (n : Nat) (q : SeqId) (t : Transfer) : State :=
  if t.paused then s
  else if t.pausing then
    (if n < (s.quad (quadOf n)).turn then s else (s.reaskTransfer n q t.tag).setTransfer n q { t with pausing := false, paused := true })
  else
    match s.copyChunk n t.copy t.chunk with
    | .stalls k => if t.stalled then s else (s.modCore n (fun c => c.countStalls k)).setTransfer n q { t with stalled := true }
    | .fault cause va => s.freezeCore n q (.transfer q t.chunk) cause va t.pc t.chunk
    | .done u =>
      if t.chunk + 1 < t.copy.chunks then u.setTransfer n q { t with chunk := t.chunk + 1, stalled := false }
      else u.retireCopy n q t

/-- Engines of the core move: its context is resident, and it is neither frozen nor pre-empted. -/
def Core.live (c : Core) : Bool := c.ctx.isSome && c.freeze.isNone && c.paused.isNone

/-- The next chunk of a stream transfer; a fault ends it failed, with an entry in the stack's fault queue (R341). -/
def State.streamChunk (s : State) (stack : Nat) (e : Entry) : State :=
  match (s.asIssuer e).bytesChunk e.node (e.at 0x08) (e.at 0x00) e.copyLen false false true e.chunk with
  | .stalls _ => s
  | .fault cause va => if s.doneDrains e then s else (s.controllerFault stack e cause va).failEntry stack e
  | .done u =>
    let t := u.backFrom e s
    t.setStack stack ((t.stack stack).setEntry { e with chunk := e.chunk + 1 })

/-- A chunk of one of the stack's running stream transfers; which one is open. -/
def State.streamTurn (s : State) (stack : Nat) : State :=
  let l := ((s.stack stack).board.filter Entry.streaming).map Entry.handle
  match (s.stack stack).entry (s.pick l) with
  | some e => if l.isEmpty then s else s.spend.streamChunk stack e
  | none => s

/-- COPY_CHUNK: a chunk of the transfer at the head of LD's or ST's queue (R229), or, on a die control core, of a stream transfer of its stack (R341). -/
def execCopyChunk (node : Nat) (seq : SeqId) (s : State) : Out :=
  .next (if isDcc node then (if (s.pkg (pkgOf node)).runs then s.streamTurn (stackOf node) else s)
  else if (s.core node).live then
    match (s.core node).transfers seq with
    | t :: _ => s.runChunk node seq t
    | [] => s
  else s)

/-! ## Issue -/

/-- Stream register q as a command finds it: the issuing sequencer's older writes, which its push releases to the engine, are in it (R249). -/
def State.released (s : State) (q : Nat) : List W32 := (s.drainQueue s.node s.me).myCore.stream q

/-- An own transfer still under way writes into a window of the current core: its next chunks hold bytes of that window (R242). -/
def State.copiesInto (s : State) (w : Nat) : Bool :=
  (s.myCore.transfers s.me).any (fun t =>
    match t.copy with
    | .bytes dst _ len _ _ _ =>
      ((List.range t.copy.chunks).drop t.chunk).any (fun j =>
        decide (pieceStart dst j < len) &&
          match s.xlate s.node (dst + BitVec.ofNat 64 (pieceStart dst j)) with
          | some x => (match s.place (x.addr (dst + BitVec.ofNat 64 (pieceStart dst j))) with
            | .window owner k _ => owner == s.node && k == w
            | _ => false)
          | none => false)
    | _ => false)

/-- A transfer joins its sequencer's queue, after the older writes of that sequencer have been performed (R249). -/
def issueCopy (s : State) (f : Fields) (c : Copy) (permit : Bool) : Eff :=
  let t := s.drainQueue s.node s.me
  let x : Transfer :=
    { tag := s.nextTag, copy := c, chunk := 0, pc := s.mySeq.pc, pushes := pushList f.push, paused := false, pausing := false,
      permit := permit, stalled := false }
  .done { st := { (t.modMyCore (fun k => k.setTransfers s.me (k.transfers s.me ++ [x]))) with nextTag := t.nextTag + 1 }, engine := true }

/-- TLD and TST at issue (R228); an own copy that writes stream registers is done before, as in program order (R97). -/
def tileIssue (s : State) (f : Fields) (load : Bool) : Eff :=
  let d := s.released (f.x.toNat % 16)
  let n := intWidth f.q.toNat / 8
  let va := streamBase d + s.sreg f.a
  let q := s.mySeq
  if s.copiesInto 6 then .stall s
  else if 128 < opIndex f.d + q.rows then .trap 0x02 0
  else
    match streamFault d with
    | some off => .trap 0x29 (streamAddr (f.x.toNat % 16) off)
    | none =>
      if va.toNat % n ≠ 0 then .trap 0x12 va
      else if (streamPitch d).toNat % n ≠ 0 then .trap 0x12 (va + streamPitch d)
      else issueCopy s f (.tile load f.e f.d (8 * n) q.rows q.cols va (streamPitch d)) false

/-- Two virtual ranges of len bytes overlap (R230). -/
def rangesMeet (a b : Word) (len : Nat) : Bool := decide ((a - b).toNat < len) || decide ((b - a).toNat < len)

/-- CPY, XPUT and XGET at issue: checks, then a permit above 1 MiB; of length 0 they retire at once (R230, R297). -/
def bytesIssue (s : State) (f : Fields) (farSrc farDst grid : Bool) : Eff :=
  let dst := s.sreg f.d
  let src := s.sreg f.a
  let len := (s.sreg f.b).toNat
  if dst.toNat % 4 ≠ 0 then .trap 0x12 dst
  else if src.toNat % 4 ≠ 0 then .trap 0x12 src
  else if len % 4 ≠ 0 ∨ 2 ^ 40 < len then .trap 0x02 2
  else if rangesMeet dst src len then .trap 0x02 2
  else if len = 0 then
    .done { st := if farSrc || farDst then s.modMyCore (fun c => c.setSys 0x240 (c.sysreg 0x240 + 1)) else s, atOnce := true }
  else if len ≤ 2 ^ 20 then issueCopy s f (.bytes dst src len farSrc farDst grid) false
  else s.withPermit .copy 2 (fun t => issueCopy t f (.bytes dst src len farSrc farDst grid) true)

/-- TLD: memory into a tile of the matrix file (R228). -/
def execTld (f : Fields) (s : State) : Out := issued 0x820 f (fun s => tileIssue s f true) s
/-- TST: a tile of the matrix file into memory (R228). -/
def execTst (f : Fields) (s : State) : Out := issued 0x830 f (fun s => tileIssue s f false) s
/-- CPY (R230). -/
def execCpy (f : Fields) (s : State) : Out := issued 0x850 f (fun s => bytesIssue s f false false true) s
/-- XPUT: the destination may lie in any package of the domain (R297). -/
def execXput (f : Fields) (s : State) : Out := issued 0xB00 f (fun s => bytesIssue s f false true false) s
/-- XGET: the source may lie in any package of the domain (R297). -/
def execXget (f : Fields) (s : State) : Out := issued 0xB10 f (fun s => bytesIssue s f true false false) s

/-- CPYW: fills the weight bank that is shadow now (R231), once an own copy that writes stream registers is done, which its push releases (R242, R249). A word that R223 refuses is named before FMT (DESIGN CHOICE, log 91). -/
def execCpyw (f : Fields) (s : State) : Out :=
  issued 0x860 f (fun s =>
    let q := f.x.toNat % 16
    let d := s.released q
    let at_ := (s.sreg f.b).toNat
    let index := scaleIndex d (at_ % 2 ^ 32) (at_ / 2 ^ 32)
    if s.copiesInto 6 then .stall s
    else
    match streamFault d with
    | some off => .trap 0x29 (streamAddr q off)
    | none =>
      if !(streamFmt d == 12 || streamFmt d == 0) then .trap 0x29 (streamAddr q 12)
      else if streamScaled d && decide (word d 7 ≤ index) then .trap 0x28 (BitVec.ofNat 64 q)
      else
        issueCopy s f (.weights d (streamBase d + s.sreg f.a) s.mySeq.klen s.mySeq.cols
          (if streamScaled d then some (scaleAddr d index) else none) (f.x.getLsbD 4) (!s.myCore.mx.active)) false) s

/-- PREF: no architectural effect; it retires at issue (R232). -/
def execPref (f : Fields) (s : State) : Out := issued 0x870 f (fun s => .done { st := s, atOnce := true }) s

end Sys2Proof.Machine
end

