-- ==== Sys2Proof/Machine/Transfer.lean ====
section
/-! DEFINITION. Vector loads and stores, SDEF, SMARK, PHASE and VAULTF (R225 to R227, R233, R234, R244, R408). -/

namespace Sys2Proof.Machine

/-! ## Vector loads and stores -/

/-- va[i] of VLD and VST: UNIT, STRD and GATH or SCAT (R225). -/
def unitVa (s : State) (f : Fields) (n i : Nat) : Word := s.baseOff f + BitVec.ofNat 64 (i * n)
def strideVa (s : State) (f : Fields) (_n i : Nat) : Word := s.baseOff f + BitVec.ofNat 64 (i * (s.sreg f.b).toNat)
def gatherVa (s : State) (f : Fields) (_n i : Nat) : Word :=
  s.baseOff f + (BitVec.ofNat 32 (s.srcLane f.b 32 i)).signExtend 64

/-- VLD: the elements of the active lanes, written together under E (R225, R226). -/
def vectorLoad (c : Code) (f : Fields) (meets : Nat → Bool) (va : State → Fields → Nat → Nat → Word) (s : State) : Out :=
  issued c f (fun s =>
    let w := intWidth f.q.toNat
    let vas := s.lanes.map (va s f (w / 8))
    s.access Want.load (w / 8) vas (fun t =>
      done (t.loadLanes t.node f.e f.d w meets ((vas.zipIdx).map (fun p => (p.2, BitVec.ofNat 64 (t.load t.node p.1 (w / 8)))))))) s

/-- VST: the low bytes of the active lanes of D (R226, R227). -/
def vectorStore (c : Code) (f : Fields) (va : State → Fields → Nat → Nat → Word) (s : State) : Out :=
  issued c f (fun s =>
    let w := intWidth f.q.toNat
    let vas := s.lanes.map (va s f (w / 8))
    s.access Want.store (w / 8) vas (fun t =>
      .done { st := t, stores := (vas.zipIdx).flatMap (fun p => t.mkStore t.node p.1 (w / 8) (s.myCore.laneWord f.d p.2)) })) s

/-- VLD.UNIT (R225). -/
def execVldUnit (f : Fields) (s : State) : Out := vectorLoad 0x800 f (fun _ => false) unitVa s
/-- VLD.STRD (R225). -/
def execVldStrd (f : Fields) (s : State) : Out := vectorLoad 0x801 f (fun _ => false) strideVa s
/-- VLD.GATH: a lane whose D cells are its index cells overlaps itself (R225). -/
def execVldGath (f : Fields) (s : State) : Out := vectorLoad 0x802 f (fun i => laneMeets f.d f.b i) gatherVa s
/-- VST.UNIT (R227). -/
def execVstUnit (f : Fields) (s : State) : Out := vectorStore 0x810 f unitVa s
/-- VST.STRD (R227). -/
def execVstStrd (f : Fields) (s : State) : Out := vectorStore 0x811 f strideVa s
/-- VST.SCAT (R227). -/
def execVstScat (f : Fields) (s : State) : Out := vectorStore 0x812 f gatherVa s

/-! ## Descriptors -/

/-- A 64-byte descriptor read as sixteen words; va a multiple of 64 (R257, R408; DEDUCED, log 22). -/
def readDescriptor (s : State) (va : Word) (k : State → List W32 → Eff) : Eff :=
  if va.toNat % 64 ≠ 0 then .trap 0x12 va
  else s.access Want.load 4 (units va 4 16) (fun t => k t ((units va 4 16).map (fun a => BitVec.ofNat 32 (t.load t.node a 4))))

/-- Writes words into a table from key k on. -/
def putWords (t : Tab W32) (k : Nat) (l : List W32) : Tab W32 :=
  (l.zipIdx).foldl (fun t p => Tab.put0 0 t (k + p.2) p.1) t

/-- SDEF: stream register D[3:0] from memory (R408). -/
def execSdef (f : Fields) (s : State) : Out :=
  issued 0x840 f (fun s =>
    readDescriptor s (s.baseOff f) (fun t l =>
      done (t.modMyCore (fun c => { c with streams := putWords c.streams (16 * (f.d.toNat % 16)) l })))) s

/-! ## SMARK (R244, R245) -/

/-- The sequencers that an SMARK names. -/
def markSeqs (f : Fields) : List SeqId := maskSeqs (f.x.extractLsb' 16 4)

/-- An SMARK stands at this sequencer, arrived, with the same tag and mask. -/
def Seq.marked (q : Seq) (x : BitVec 24) : Bool :=
  match q.mark with
  | some g => g.x == x
  | none => false

/-- The markers of a matched set issue together: each pops, pushes and moves its PC. -/
def State.issueMarks (s : State) (fs : List (SeqId × Fields)) : State :=
  let cur := s.cur
  let t := fs.foldl (fun t p =>
    let u : State := { t with cur := (cur.1, p.1) }
    u.commit 0x880 p.2 { st := u.modMe (fun q => { q with mark := none }) }) s
  { t with cur := cur }

/-- SMARK: it has arrived once every earlier access is performed; the set issues when all have arrived, else it waits (kind 0x0B). -/
def execSmark (f : Fields) (s : State) : Out :=
  issued 0x880 f (fun s =>
    let t := s.drainQueue s.node s.me
    let here := !s.busy
    let others := (markSeqs f).filter (fun q => q != s.me)
    let late := others.filter (fun q => !(t.seq t.node q).marked f.x)
    if here && late.isEmpty then
      .whole (t.issueMarks ((s.me, f) :: others.map (fun q => (q, (t.seq t.node q).mark.getD f))))
    else
      let away := (if here then [] else [s.me]) ++ late
      let bits := away.foldl (fun n q => n + 2 ^ seqNum q) 0
      .waitWith (t.modMe (fun q => { q with mark := if here then some f else none })) 0x0B
        (BitVec.ofNat 64 (f.x.toNat % 65536 + 65536 * bits))) s

/-! ## PHASE and VAULTF -/

/-- Takes the bytes from lo up to hi out of memory, so that they read as zero. -/
def State.zeroRange (s : State) (lo hi : Nat) : State :=
  { s with mem := s.mem.filter (fun p => !(decide (lo ≤ p.1) && decide (p.1 < hi))),
           keyed := s.keyed.filter (fun p => !(decide (lo ≤ 16 * p.1) && decide (16 * p.1 < hi))) }

/-- PHASE: starts the drain that gives the bay's scratchpad its new size (R233). -/
def execPhase (f : Fields) (s : State) : Out :=
  issued 0x890 f (fun s =>
    let size := f.x.toNat % 16
    let bay := s.bay (bayOf s.node)
    if !s.holdsBay s.node then .trap 0x04 0
    else if bay.drain.isSome then .stall s
    else if size = bay.mib then done s
    else
      let cycles := 4096 + 1024 * (max size bay.mib - min size bay.mib)
      let d : Drain := { size := size, node := s.node, ends := s.myCore.cycle + BitVec.ofNat 64 cycles, pushes := pushList f.push }
      .done { st := s.setBay (bayOf s.node) { bay with drain := some d }, engine := true }) s

/-- A scratchpad gets its new size: what is given up is lost, what is gained reads as zero (R18, R233). -/
def State.resizeBay (s : State) (bay size : Nat) : State :=
  let b := s.bay bay
  (s.zeroRange (spadAddr bay (min b.mib size * 2 ^ 20)) (spadAddr bay (max b.mib size * 2 ^ 20))).setBay bay
    { b with mib := size, drain := none }

/-- PHASE_DRAIN_END: the new size takes effect; what was given up is lost, what is gained reads as zero; PHASE retires, and the fault-queue entries that waited for the drain are written (R233). -/
def execPhaseDrainEnd (bay : Nat) (s : State) : Out :=
  .next (let b := s.bay bay
    match b.drain with
    | none => s
    | some d =>
      if reached (s.core d.node).cycle d.ends then
        ((s.resizeBay bay d.size).modCore d.node (fun c => c.place .ct d.pushes)).flushFaults (bay / 256)
      else s)

/-- VAULTF: vault rows out of use, or back in use and zeroed (R234). -/
def execVaultf (f : Fields) (s : State) : Out :=
  issued 0x8A0 f (fun s =>
    let off := (s.sreg f.a).toNat
    let len := (s.sreg f.b).toNat
    let lo := vaultAddr s.node off
    let rows := (List.range (len / 65536)).map (fun i => lo / 65536 + i)
    let t := s.drainQueue s.node s.me
    if off % 65536 ≠ 0 then .trap 0x02 1
    else if len % 65536 ≠ 0 then .trap 0x02 2
    else if 2 ^ 27 < off + len then .trap 0x02 2
    else if f.x.getLsbD 0 then
      let back := rows.filter (fun r => t.freed.contains r)
      let u := back.foldl (fun t r => t.zeroRange (65536 * r) (65536 * (r + 1))) t
      done { u with freed := u.freed.filter (fun r => !back.contains r),
                    bad := u.bad.filter (fun w => !back.contains (w / 8192)), weak := u.weak.filter (fun w => !back.contains (w / 8192)) }
    else
      let u := t.zeroRange lo (lo + len)
      done { u with freed := u.freed ++ rows.filter (fun r => !u.freed.contains r) }) s

end Sys2Proof.Machine
end

