-- ==== Sys2Proof/Machine/Image.lean ====
section
/-! DEFINITION. Code objects (R364 to R367): reading the container and an image under the issuing context, its load records and relocations, and applying a record to a core. -/

namespace Sys2Proof.Machine

/-! ## Reading -/

/-- What a read of the controller gives: bytes; a stall on a PHASE drain; a fault; or a code object or map that is invalid. -/
inductive Got (α : Type) where
  | ok (a : α)
  | stalls
  | fault (cause : Nat) (va : Word)
  | invalid
  deriving DecidableEq, Repr

/-- What follows a successful read. -/
def Got.next {α β : Type} (g : Got α) (k : α → Got β) : Got β :=
  match g with
  | .ok a => k a
  | .stalls => .stalls
  | .fault c va => .fault c va
  | .invalid => .invalid

/-- len bytes at a virtual address, read by the controller for an entry, in units of size bytes. -/
def State.controllerRead (s : State) (e : Entry) (va : Word) (len size : Nat) : Got (List Nat) :=
  let t := s.asIssuer e
  let vas := units va size len
  match t.judge e.node (vas.map (fun a => { want := Want.load, va := a, size := size })) with
  | .stalls _ => .stalls
  | .fault c a => .fault c a
  | .allowed => .ok (vas.map (fun a => t.load e.node a size))

/-- Bytes at an offset of the code object. -/
def State.objectBytes (s : State) (e : Entry) (off len : Nat) : Got (List Nat) :=
  s.controllerRead e (e.at 0x00 + BitVec.ofNat 64 off) len 1

/-- n bytes of a list from an offset, as a little-endian number. -/
def leAt (l : List Nat) (off n : Nat) : Nat := (((l.drop off).take n).zipIdx).foldl (fun v p => v + p.1 % 256 * 256 ^ p.2) 0

/-! ## The container (R364) -/

/-- The header is as Table 18.1 has it. -/
def headerGood (h : List Nat) : Bool :=
  leAt h 0 4 == 0x314F4344 && leAt h 4 2 == 1 && leAt h 6 1 != 0 && leAt h 7 1 == 0 && leAt h 8 8 % 8 == 0 &&
    (List.range 40).all (fun i => leAt h (24 + i) 1 == 0)

/-- A directory entry: no reserved bit, offset a multiple of 8, within the object (Table 18.2; DEDUCED, log 51). -/
def dirGood (len : Nat) (d : List Nat) : Bool :=
  leAt d 3 5 == 0 && leAt d 0 1 ≤ 1 && leAt d 0x10 8 % 8 == 0 && decide (leAt d 0x10 8 + leAt d 0x18 8 ≤ len)

/-- Offset and length of the image an entry names, with every check of R364. -/
def State.findImage (s : State) (e : Entry) : Got (Nat × Nat) :=
  (s.objectBytes e 0 64).next (fun h =>
    if !headerGood h then .invalid
    else
      let nimg := leAt h 6 1
      let img := e.bits 0x08 39 32
      (s.objectBytes e (leAt h 8 8) (32 * nimg)).next (fun dir =>
        let entries := (List.range nimg).map (fun i => (dir.drop (32 * i)).take 32)
        let mine := entries.getD img []
        if nimg ≤ img ∨ !(entries.all (dirGood (leAt h 0x10 8))) ∨ leAt mine 0 1 ≠ 0 then .invalid
        else .ok (leAt mine 0x10 8, leAt mine 0x18 8)))

/-! ## Load records (R365) -/

/-- A load record with its payload. -/
structure Record where
  type   : Nat
  sub    : Nat
  first  : Nat
  last   : Nat
  target : Nat
  bytes  : List Nat
  deriving DecidableEq, Repr

/-- A relocation entry is well formed for a payload of size bytes (R367). -/
def relocGood (payload r : List Nat) : Bool :=
  let w := leAt r 0 8
  let site := w % 2 ^ 32
  w / 2 ^ 46 == 0 && decide (w / 2 ^ 32 % 16 ≤ 4) &&
    match w / 2 ^ 36 % 16 with
    | 0 => decide (site + 8 ≤ payload.length)
    | 1 => decide (site + 12 ≤ payload.length) && payload.getD site 0 / 8 == 30
    | _ => false

/-- The entries of a RELOC payload. -/
def relocEntries (r : Record) : List (List Nat) := (List.range (r.bytes.length / 16)).map (fun i => (r.bytes.drop (16 * i)).take 16)

/-- A record is as Table 18.3 has it, given the one before it; one that is not makes the image invalid (DEDUCED, log 51). -/
def Record.good (r : Record) (prev : Option Record) : Bool :=
  match r.type with
  | 1 => prev.isNone && r.sub == 0 && r.target == 0 && r.bytes.length == 8
  | 2 => prev.isSome && decide (r.sub ≤ 3) && r.target % 2 == 0 && decide (r.target + r.bytes.length ≤ 0x20000)
  | 3 => prev.isSome && decide (r.sub ≤ 4)
  | 4 => prev.isSome && decide (r.sub ≤ 15) && r.target == 0 && r.bytes.length == 64
  | 5 => prev.isSome && (decide (r.sub ≤ 7) || decide (128 ≤ r.sub ∧ r.sub ≤ 159)) && r.target == 0 && r.bytes.length == 24
  | 6 =>
    r.sub == 0 && r.target == 0 && r.bytes.length % 16 == 0 &&
      (match prev with
       | some p => (relocEntries r).all (relocGood p.bytes)
       | none => false)
  | _ => false

/-- The records of an image, from a byte offset on; none where one runs past the end or has a head byte that should be zero. -/
def parseRecords (image : List Nat) (fuel pos : Nat) : Option (List Record) :=
  if pos = image.length then some []
  else
    match fuel with
    | 0 => none
    | fuel + 1 =>
      let h := image.drop pos
      let size := leAt h 0x18 8
      let padded := (size + 7) / 8 * 8
      if image.length < pos + 32 + padded ∨ leAt h 2 2 ≠ 0 ∨ leAt h 12 4 ≠ 0 then none
      else
        match parseRecords image fuel (pos + 32 + padded) with
        | none => none
        | some l =>
          some ({ type := leAt h 0 1, sub := leAt h 1 1, first := leAt h 4 4, last := leAt h 8 4, target := leAt h 0x10 8,
                  bytes := (h.drop 32).take size } :: l)

/-- Bytes laid over a list from an offset. -/
def patch (l : List Nat) (off : Nat) (bs : List Nat) : List Nat := l.take off ++ bs ++ l.drop (off + bs.length)

/-- One relocation applied to a payload, with the base of each tier's segment (R367). -/
def relocate (base : Nat → Word) (l r : List Nat) : List Nat :=
  let w := leAt r 0 8
  let v := (base (w / 2 ^ 32 % 16) + BitVec.ofNat 64 (leAt r 8 8)).toNat
  let site := w % 2 ^ 32
  if w / 2 ^ 36 % 16 = 0 then patch l site ((List.range 8).map (fun i => v / 256 ^ i % 256))
  else
    let x := v / 2 ^ (w / 2 ^ 40 % 64) % 2 ^ 24
    patch l (site + 9) [x / 65536, x / 256 % 256, x % 256]

/-- Every record is good after the one before it. -/
def recordsGood (prev : Option Record) (l : List Record) : Bool :=
  match l with
  | [] => true
  | r :: rest => r.good prev && recordsGood (some r) rest

def Record.serves (r : Record) (lcore : Nat) : Bool := decide (r.first ≤ lcore ∧ lcore ≤ r.last)

/-- The records as they are applied to a core of this LCORE, with each RELOC that serves it applied to the payload of the record before it (R365). -/
def linkRecords (base : Nat → Word) (lcore : Nat) (l : List Record) : List Record :=
  match l with
  | [] => []
  | r :: rest =>
    match rest.head? with
    | some x => (if x.type = 6 ∧ x.serves lcore = true then { r with bytes := (relocEntries x).foldl (relocate base) r.bytes } else r) :: linkRecords base lcore rest
    | none => [r]

/-- The records of the image that an entry names, as they stand in it. -/
def State.readImage (s : State) (e : Entry) : Got (List Record) :=
  (s.findImage e).next (fun p =>
    (s.objectBytes e p.1 p.2).next (fun image =>
      match parseRecords image (image.length / 32) 0 with
      | none => .invalid
      | some l => if l.isEmpty || !recordsGood none l then .invalid else .ok l))

/-- The addresses of the code object that the controller reads for an entry, as far as its reads go: the header, the directory, the image. -/
def State.objectReads (s : State) (e : Entry) : List Word :=
  let at_ (off len : Nat) : List Word := units (e.at 0x00 + BitVec.ofNat 64 off) 1 len
  match s.objectBytes e 0 64 with
  | .ok h =>
    let dir := (leAt h 8 8, 32 * leAt h 6 1)
    let more :=
      if !headerGood h then []
      else
        match s.objectBytes e dir.1 dir.2, s.findImage e with
        | .ok _, .ok p =>
          at_ dir.1 dir.2 ++ (match s.objectBytes e p.1 p.2 with | .ok _ => at_ p.1 p.2 | _ => [])
        | .ok _, _ => at_ dir.1 dir.2
        | _, _ => []
    at_ 0 64 ++ more
  | _ => []

/-- The symbols that reading a code object corrects (R378). -/
def State.noteObject (s : State) (e : Entry) : State := s.noteController e 1 (s.objectReads e)

/-- What an image says, as numbers: by it the starts of a kernel in several packages are known for one launch (R401). -/
def imageNums (rs : List Record) : List Nat := rs.flatMap (fun r => [r.type, r.sub, r.first, r.last, r.target, r.bytes.length] ++ r.bytes)

/-! ## Applying records (R365, R366) -/

/-- Where a sequencer of an LCORE starts: the first CODE record that names it; none starts halted (R366). -/
def startOf (rs : List Record) (q : SeqId) (lcore : Nat) : Option Word :=
  (rs.find? (fun r => r.type == 2 && r.sub == seqNum q && r.serves lcore)).map (fun r => BitVec.ofNat 64 r.target)

/-- The effect of a record on one core, with the base of each tier's segment (Table 18.3). -/
def State.applyRecord (s : State) (base : Nat → Word) (n : Nat) (r : Record) : State :=
  let bs : List Byte := r.bytes.map (BitVec.ofNat 8)
  match r.type with
  | 2 => s.putCode n r.target bs
  | 3 =>
    (bs.zipIdx).foldl (fun t p =>
      t.engineWrite n (base r.sub + BitVec.ofNat 64 (r.target + p.2)) 1 (p.1.setWidth 64)) s
  | 4 => s.modCore n (fun c => { c with streams := putWords c.streams (16 * r.sub) ((List.range 16).map (fun j => BitVec.ofNat 32 (leAt r.bytes (4 * j) 4))) })
  | 5 =>
    let ring : Word := BitVec.ofNat 64 (leAt r.bytes 0 8)
    let cfg : Word := BitVec.ofNat 64 (leAt r.bytes 8 8 % 2 ^ 32 + 2 ^ 32 * leAt r.bytes 16 8)
    if r.sub < 128 then s.modCore n (fun c => c.setBuf r.sub (({ Buf.reset with base := ring } : Buf).configure cfg))
    else
      let b := s.bay (bayOf n)
      s.setBay (bayOf n) (b.setRing (r.sub % 32) (({ Ring.reset with base := BitVec.ofNat 64 (ring.toNat % 2 ^ 55) } : Ring).configure cfg))
  | _ => s

end Sys2Proof.Machine
end

