-- ==== Sys2Proof/Machine/Loader.lean ====
section
/-! DEFINITION. The loader (R365, R396, R401, Table 3.3): where the data of a kernel stands, and the entries of the translation tables that map it. -/

noncomputable section

namespace Sys2Proof.Machine

/-! ## Pages and their owners -/

/-- Pages of a tier's segment: up to the end of the farthest record (DESIGN CHOICE, log 63). -/
def segPages (rs : List Record) (tier : Nat) : Nat :=
  (((rs.filter (fun r => r.type == 3 && r.sub == tier)).map (fun r => (r.target + r.bytes.length + 65535) / 65536))).foldl max 0

/-- The LCORE that owns a page of a tier, by the first record that meets the page: of vault and spad the first that the record serves, 0 by default; of the other tiers the one of a record that serves that LCORE alone, and none where the page is replicated (Table 3.3, R401). -/
def pageOwner (rs : List Record) (tier i : Nat) : Option Nat :=
  let one := tier == 1 || tier == 2
  match rs.find? (fun r => r.type == 3 && r.sub == tier && decide (r.target < 65536 * (i + 1)) && decide (65536 * i < r.target + r.bytes.length)) with
  | some r => if one || r.first == r.last then some r.first else none
  | none => if one then some 0 else none

/-! ## Frames -/

/-- The frames in which a tier's page can stand: the owner's vault, its bay below SPAD MiB, or GDDR-7 or host memory of a package; args stand in GDDR-7 (Table 18.3, R401; DESIGN CHOICE, log 63). -/
def State.tierFrames (s : State) (spad tier pkg core : Nat) : List Nat :=
  match tier with
  | 1 => (List.range 2048).map (fun i => vaultAddr core 0 / 65536 + i)
  | 2 => (List.range (16 * min spad (s.bay (bayOf core)).mib)).map (fun i => spadAddr (bayOf core) 0 / 65536 + i)
  | 3 => (List.range (2 ^ 30)).map (fun i => (pkg * 2 ^ 48 + 4 * 2 ^ 44) / 65536 + i)
  | _ => (List.range (2 ^ 21)).map (fun i => pkg * 2 ^ 48 / 65536 + i)

/-- The frame lies in the region that its package reserves for the dump, over which no page is mapped (R382). -/
def State.frameReserved (s : State) (f : Nat) : Bool :=
  paSpace (65536 * f) == 0 &&
    match (s.pkg (paPkg (65536 * f))).reserved with
    | some r => decide (r ≤ 65536 * f % 2 ^ 44)
    | none => false

/-- Some word of memory reads as a valid entry that names the frame: it is a table, or a page that a table maps. -/
def State.frameNamed (s : State) (f : Nat) : Bool :=
  ((s.mem.map (fun p => p.1 / 8)).eraseDups).any (fun w =>
    let e := s.physRead none (8 * w) 8
    e % 2 == 1 && e / 65536 % 2 ^ 44 == f)

/-- The frame is the root of the tables of a context or of an entry. -/
def State.frameRoot (s : State) (f : Nat) : Bool :=
  s.cores.any (fun p => p.2.root == 65536 * f) || s.dies.any (fun k => k.2.board.any (fun e => e.root.toNat / 65536 % 2 ^ 44 == f))

/-- A frame that exists, that VAULTF has not freed, that is not reserved, and in which no kernel's data and no table stands. -/
def State.frameFree (s : State) (f : Nat) : Bool :=
  decide (s.place (65536 * f) = .bytes) && !s.isFreed (65536 * f) && !s.frameReserved f && !s.frameRoot f && !s.frameNamed f &&
    !s.placed.any (fun p => p.pages.any (fun d => d.frame == f))

/-- No byte of the frame is other than zero. -/
def State.frameBlank (s : State) (f : Nat) : Bool := !s.mem.any (fun p => p.1 / 65536 == f)

/-- A frame for a page: the loader's choice among the free ones that are blank, or among the free ones where none is (DESIGN CHOICE, log 63). -/
def State.chooseFrame (s : State) (page : Nat) (l : List Nat) : Option Nat :=
  let free := l.filter s.frameFree
  let blank := free.filter s.frameBlank
  let from_ := if blank.isEmpty then free else blank
  from_[Config.segmentFrame s.fresh page % max from_.length 1]?

/-! ## Bases -/

/-- A base of pages pages is free: above the code store's addresses and below 2^48, where no page is mapped under the root, and clear of the runs of pages already taken (DESIGN CHOICE, log 47). -/
def State.baseFree (s : State) (root : Nat) (taken : List (Nat × Nat)) (pages b : Nat) : Bool :=
  decide (2 ≤ b) && decide (b + pages ≤ 2 ^ 32) &&
    (List.range pages).all (fun i => (s.walk [42, 29, 16] root (65536 * (b + i))).isNone) &&
    taken.all (fun t => decide (b + pages ≤ t.1) || decide (t.1 + t.2 ≤ b))

/-- The page numbers of the bases of tiers, one after the other: the runtime's choices among those free (R365). -/
def State.chooseBases (s : State) (root : Nat) (rs : List Record) (taken : List (Nat × Nat)) (tiers : List Nat) : List Nat :=
  match tiers with
  | [] => []
  | t :: rest =>
    let free := (List.range (2 ^ 32)).filter (s.baseFree root taken (segPages rs t))
    let b := free.getD (Config.segment s.fresh t % max free.length 1) 2
    b :: State.chooseBases s root rs ((b, segPages rs t) :: taken) rest

/-- The base address of a tier's segment. -/
def Placed.base (p : Placed) (tier : Nat) : Word := BitVec.ofNat 64 (65536 * p.bases.getD tier 0)

/-! ## The tables -/

/-- The attributes of a data segment's pages: R and W, C but for host, and in a confidential context PRIV for gddr and host (R396). -/
def tierPerm (tier : Nat) (conf : Bool) : BitVec 6 :=
  BitVec.ofNat 6 (3 + (if tier = 3 then 0 else 8) + (if conf && (tier == 0 || tier == 3) then 32 else 0))

/-- A level-2 entry: V, the attributes and the frame (Table 10.3). -/
def pageEntry (frame : Nat) (perm : BitVec 6) : Nat := 1 + 4 * perm.toNat + 65536 * frame

/-- A block's entry becomes a table of the entries that map the same addresses one level down, each 2^sh bytes long. -/
def State.splitBlock (s : State) (table sh old : Nat) : State :=
  (List.range 8192).foldl (fun t i => t.physWrite none (table + 8 * i) 8 (BitVec.ofNat 64 (old + i * 2 ^ sh))) s

/-- Writes the level-2 entry of an address, level by level by the shifts of the indexes; a table that is missing is made in blank GDDR-7 of the package, and one that replaces a valid block maps the rest of it as before. An entry that answers an uncorrectable error stays, and the page unmapped (R378). -/
def State.mapPage (s : State) (pkg : Nat) (shifts : List Nat) (table va entry : Nat) : State :=
  match shifts with
  | [] => s
  | sh :: rest =>
    let place := table + 8 * (va / 2 ^ sh % 8192)
    let old := s.physRead none place 8
    let s := (s.symbolsIn place 8).foldl State.correct s
    if s.isBad place 8 then s
    else
    let valid := entryValid old && (old / 2 % 2 == 1 || old / 65536 % 2 ^ 44 * 65536 % 2 ^ sh == 0)
    match rest.head? with
    | none => s.physWrite none place 8 (BitVec.ofNat 64 entry)
    | some low =>
      if valid && old / 2 % 2 == 1 then State.mapPage s pkg rest (old / 65536 % 2 ^ 44 * 65536) va entry
      else
        match s.chooseFrame (va / 2 ^ sh) ((s.tierFrames 0 0 pkg 0).filter s.frameBlank) with
        | none => s
        | some f =>
          let t := if valid then s.splitBlock (65536 * f) low old else s
          State.mapPage (t.physWrite none place 8 (BitVec.ofNat 64 (65536 * f + 3))).spend pkg rest (65536 * f) va entry

/-- The TLBs of a package drop what they hold of a page. -/
def State.dropPage (s : State) (pkg page : Nat) : State :=
  let keep (l : List TlbEntry) : List TlbEntry := l.filter (fun e => 65536 * page / 2 ^ e.level != e.vpage)
  { s with
    cores := s.cores.map (fun p => if pkgOf p.1 = pkg then (p.1, { p.2 with tlb := keep p.2.tlb }) else p)
    bays := s.bays.map (fun p => if p.1 / 256 = pkg then (p.1, { p.2 with tlb := keep p.2.tlb }) else p) }

/-! ## Placing the data of a kernel -/

/-- The placed data that stands first, the one of the kernel that is starting. -/
def State.placing (s : State) : Placed :=
  s.placed.headD { born := 0, launch := 0, image := [], cores := [], bases := [], pages := [], users := [], due := [] }

/-- Placed data is still in use: a package of the placement has not started, or an entry that did stands in its scoreboard. -/
def State.placedLive (s : State) (p : Placed) : Bool := !p.due.isEmpty || p.users.any (fun u => ((s.stack u.1).entry u.2).isSome)

/-- Of placed data, the one that was placed first. -/
def eldest (l : List Placed) : Option Placed :=
  match l with
  | [] => none
  | p :: rest => some (rest.foldl (fun a b => if b.born < a.born then b else a) p)

/-! ## Launches over several packages (R339, R401) -/

/-- The packages of a placement. -/
def pkgsOf (cores : List Nat) : List Nat := (cores.map pkgOf).eraseDups

/-- A package's entries of an image on a placement that have started or failed; one launch has an entry in every package of the placement, the k-th of each package in launch k (DESIGN CHOICE, log 63). -/
def State.launchCount (s : State) (pkg : Nat) (image cores : List Nat) : Nat :=
  match s.launches.find? (fun l => l.pkg == pkg && l.image == image && l.cores == cores) with
  | some l => l.count
  | none => 0

/-- One more entry of a package counts; a placement in one package has nothing to count. -/
def State.countLaunch (s : State) (pkg : Nat) (image cores : List Nat) : State :=
  if (pkgsOf cores).length ≤ 1 then s
  else
    { s with launches := { pkg := pkg, image := image, cores := cores, count := s.launchCount pkg image cores + 1 } ::
        s.launches.filter (fun l => !(l.pkg == pkg && l.image == image && l.cores == cores)) }

/-- The placed data of launch k of an image on a placement no longer waits for a package. -/
def State.leavePlaced (s : State) (pkg k : Nat) (image cores : List Nat) : State :=
  { s with placed := s.placed.map (fun p =>
      if p.launch = k ∧ p.image = image ∧ p.cores = cores then { p with due := p.due.filter (fun q => q != pkg) } else p) }

/-- A miss may be of a launch on these cores. -/
def Miss.fits (m : Miss) (cores : List Nat) : Bool := m.size == cores.length && (match m.cores with | some l => l == cores | none => true)

/-- An entry that a package missed before its launch was known is of this launch: it counts, and is waited for no more (DESIGN CHOICE, log 63). -/
def State.takeMiss (s : State) (pkg : Nat) (image cores : List Nat) : State :=
  match s.missed.find? (fun m => m.pkg == pkg && m.fits cores) with
  | some m => { s with missed := s.missed.erase m }.countLaunch pkg image cores
  | none => s

/-- Every entry that a package has missed on these cores was of this image, now that a later one of it starts (DESIGN CHOICE, log 63). -/
def State.takeMisses (s : State) (pkg : Nat) (image cores : List Nat) : State := s.missed.foldl (fun t _ => t.takeMiss pkg image cores) s

/-- The packages whose entry of launch k has neither started nor failed. -/
def State.awaited (s : State) (k : Nat) (image cores : List Nat) : List Nat := (pkgsOf cores).filter (fun q => decide (s.launchCount q image cores ≤ k))

/-- The start of an entry joins the data that another package of its placement has placed for the same launch, or chooses bases anew, for the packages whose entry of this launch has neither started nor failed; the data stands first then, and the entry counts. Data no longer in use is forgotten. -/
def State.openPlaced (s : State) (stack : Nat) (e : Entry) (rs : List Record) (all : List Nat) : State :=
  let pkg := stack / 4
  let image := imageNums rs
  let s := s.takeMisses pkg image all
  let k := s.launchCount pkg image all
  let l := s.placed.filter s.placedLive
  let join (p : Placed) : Placed := { p with users := p.users ++ [(stack, e.handle)], due := p.due.filter (fun q => q != pkg) }
  (match eldest (l.filter (fun p => p.image == image && p.cores == all && p.launch == k && p.due.contains pkg)) with
  | some p => { s with placed := join p :: l.erase p }
  | none =>
    let t : State := ((s.awaited k image all).filter (fun q => q != pkg)).foldl (fun t q => State.takeMiss t q image all) s
    let p : Placed :=
      { born := s.fresh, launch := k, image := image, cores := all, bases := s.chooseBases (e.root.toNat / 65536 % 2 ^ 44 * 65536) rs [] (List.range 5),
        pages := [], users := [], due := t.awaited k image all }
    ({ t with placed := join p :: l } : State).spend).countLaunch pkg image all

/-- One page of a tier gets its frame, where it has none yet, and its entry in the tables of the package (R396, R401). -/
def State.loadPage (s : State) (pkg root spad : Nat) (conf : Bool) (rs : List Record) (tier i : Nat) : State :=
  let p := s.placing
  let page := p.bases.getD tier 0 + i
  let owner := pageOwner rs tier i
  let core := p.cores.getD (owner.getD 0) (p.cores.headD 0)
  let copy := match owner with | some _ => none | none => some pkg
  let home := match owner with | some _ => pkgOf core | none => pkg
  let t : State := match p.pages.find? (fun d => d.page == page && d.pkg == copy) with
    | some _ => s
    | none =>
      match s.chooseFrame page (s.tierFrames spad tier home core) with
      | none => s
      | some f => ({ s with placed := { p with pages := p.pages ++ [{ pkg := copy, page := page, frame := f }] } :: s.placed.drop 1 } : State).spend
  match t.placing.pages.find? (fun d => d.page == page && d.pkg == copy) with
  | none => t
  | some d => (t.mapPage pkg [42, 29, 16] root (65536 * page) (pageEntry d.frame (tierPerm tier conf))).dropPage pkg page

/-- The loader at the start of a kernel in a package: the pages of every tier's segment are placed and mapped under the entry's root (R396, R401). -/
def State.loadData (s : State) (stack : Nat) (e : Entry) (conf : Bool) (rs : List Record) (all : List Nat) : State :=
  (List.range 5).foldl (fun t tier =>
    (List.range (segPages rs tier)).foldl (fun t i =>
      t.loadPage (stack / 4) (e.root.toNat / 65536 % 2 ^ 44 * 65536) (e.bits 0x08 23 20) conf rs tier i) t) (s.openPlaced stack e rs all)

end Sys2Proof.Machine

end
end

