-- ==== Sys2Proof/Machine/Grid.lean ====
section
/-! DEFINITION. The hashed-grid class (R257 to R273): HGDEF, HGL, HGS and HGW. -/

namespace Sys2Proof.Machine

/-! ## The descriptor (Table 12.1) -/

/-- The sixteen words of slot g. -/
def Core.grid (c : Core) (g : Nat) : List W32 := (List.range 16).map (fun j => Tab.get c.grids (16 * (g % 8) + j) 0)

def gridLevels (d : List W32) : Nat := word d 2 % 32
def gridDims (d : List W32) : Nat := word d 2 / 2 ^ 8 % 16
def gridFeat (d : List W32) : Nat := 2 ^ (word d 2 / 2 ^ 16 % 4)
def gridFfmt (d : List W32) : Nat := word d 2 / 2 ^ 20 % 4
def gridLogt (d : List W32) : Nat := word d 2 / 2 ^ 24 % 32
def gridHash (d : List W32) : Nat := word d 3 % 4
def gridWrap (d : List W32) : Bool := word d 3 / 16 % 2 == 1
def gridStride (d : List W32) : Word := word64 d 4
def gridRes (d : List W32) (l : Nat) : Nat := word d (6 + l / 2) / 65536 ^ (l % 2) % 65536
/-- The width of a feature in bytes. -/
def gridWidth (d : List W32) : Nat := if gridFfmt d = 0 then 4 else 2
def gridFmt (d : List W32) : Fmt :=
  match gridFfmt d with
  | 0 => .f32
  | 1 => .f16
  | _ => .bf16

/-- Level l fits in its table (R259). -/
def gridFits (d : List W32) (l : Nat) : Bool := decide ((gridRes d l + 1) ^ gridDims d ≤ 2 ^ gridLogt d)
/-- Level l is dense (R259). -/
def gridDense (d : List W32) (l : Nat) : Bool := gridHash d == 2 || (gridHash d == 1 && gridFits d l)

/-- The offset of the first offending word (R259). -/
def gridOffence (d : List W32) : Option Nat :=
  let ls := gridLevels d
  let used := List.range (min ls 16)
  let beyond := (List.range 16).filter (fun l => decide (ls ≤ l))
  if word d 0 % 64 ≠ 0 then some 0
  else if word d 1 / 2 ^ 23 ≠ 0 then some 4
  else if word d 2 &&& 0xE0CCF0E0 ≠ 0 ∨ ls = 0 ∨ 16 < ls ∨ gridDims d = 0 ∨ 8 < gridDims d ∨ gridFfmt d = 3 ∨
      gridLogt d < 8 ∨ 24 < gridLogt d ∨ used.any (fun l => gridRes d l == 0) ∨ beyond.any (fun l => gridRes d l != 0) ∨
      (1 < ls ∧ (gridStride d).toNat < 2 ^ gridLogt d * gridFeat d * gridWidth d) ∨
      (gridHash d = 2 ∧ used.any (fun l => !gridFits d l)) then some 8
  else if word d 3 &&& 0xFFFFFFEC ≠ 0 ∨ gridHash d = 3 then some 12
  else if word d 4 % 64 ≠ 0 then some 16
  else if word d 14 ≠ 0 then some 56
  else if word d 15 ≠ 0 then some 60
  else none

/-- UFADDR of an invalid descriptor of slot g. -/
def gridAddr (g off : Nat) : Word := BitVec.ofNat 64 (0x2000 + 64 * (g % 8) + off)

/-- The address of feature j of entry e at level l (R258). -/
def gridEntry (d : List W32) (l e j : Nat) : Word :=
  word64 d 0 + BitVec.ofNat 64 l * gridStride d + BitVec.ofNat 64 ((e * gridFeat d + j) * gridWidth d)

/-! ## Corners (R265) -/

/-- The hash multipliers. -/
def gridPi (k : Nat) : Nat :=
  [0x1, 0x8DA6B343, 0xD8163841, 0xCB1AB31F, 0xA4F12C97, 0xE73B5D2D, 0x9C6E3A1B, 0xB5297A4D].getD k 0

/-- An FP32 value, rounded by RNE. -/
def f32Round (x : Ex) : Nat := (Fmt.f32.round FpEnv.rne x).bits
def f32Mul (a b : Nat) : Nat := f32Round (exMul (Fmt.f32.value a) (Fmt.f32.value b)).1.exact
def f32Add (a b : Nat) : Nat := f32Round (exAdd 0 (Fmt.f32.value a) (Fmt.f32.value b)).1
def f32Fma (a b c : Nat) : Nat := (fpFma .f32 .f32 FpEnv.rne false false a b c).bits

/-- The integer at or below a finite number. -/
def floorNum (neg : Bool) (m : Nat) (e : Int) : Int :=
  match e with
  | .ofNat k => if neg then -((m <<< k : Nat) : Int) else ((m <<< k : Nat) : Int)
  | .negSucc k => if neg then -((((m + 2 ^ (k + 1) - 1) >>> (k + 1)) : Nat) : Int) else ((m >>> (k + 1) : Nat) : Int)

/-- p − c in FP32. -/
def fracOf (p : Fp) (c : Int) : Nat := f32Round (exAdd 0 p (.fin (decide (0 < c)) c.natAbs 0)).1

/-- Cell and fraction of one coordinate at resolution N; none where the lane is void. A p of −0 is clamped to +0 (R265; DESIGN CHOICE, log 119), and wraps to the fraction −0 (DEDUCED, log 61). -/
def gridCell (wrapB : Bool) (x n : Nat) : Option (Int × Nat) :=
  match Fmt.f32.value (f32Round (exMul (Fmt.f32.value x) (.fin false n 0)).1.exact) with
  | .nan _ => none
  | .inf s => if wrapB then none else if s then some (0, 0) else some ((n : Int) - 1, 0x3F800000)
  | .fin s m e =>
    let c := floorNum s m e
    if wrapB then some (c, if c = 0 ∧ m = 0 ∧ s then 0x80000000 else fracOf (.fin s m e) c)
    else if s ∨ m = 0 then some (0, 0)
    else if (n : Int) ≤ c then some ((n : Int) - 1, 0x3F800000)
    else some (c, fracOf (.fin s m e) c)

/-- The cells of a lane at level l, one for each dimension; none where the lane is void. -/
def gridCells (d : List W32) (l : Nat) (xs : List Nat) : Option (List (Int × Nat)) :=
  let cs := xs.map (fun x => gridCell (gridWrap d) x (gridRes d l))
  if cs.all Option.isSome then some (cs.filterMap id) else none

/-- The vertex of corner k in dimension i. -/
def gridVertex (d : List W32) (l k i : Nat) (c : Int) : Nat :=
  let v := c + (if k.testBit i then 1 else 0)
  (if gridWrap d then v % (gridRes d l : Int) else v).toNat

/-- e[k] (R265). -/
def gridIndex (d : List W32) (l k : Nat) (cs : List (Int × Nat)) : Nat :=
  let vs := (cs.zipIdx).map (fun p => (gridVertex d l k p.2 p.1.1, p.2))
  if gridDense d l then vs.foldl (fun a p => a + p.1 * (gridRes d l + 1) ^ p.2) 0
  else (vs.foldl (fun a p => a ^^^ (p.1 * gridPi p.2 % 2 ^ 32)) 0) % 2 ^ gridLogt d

/-- w[k] (R265). -/
def gridWeight (k : Nat) (cs : List (Int × Nat)) : Nat :=
  let factor (p : (Int × Nat) × Nat) : Nat := if k.testBit p.2 then p.1.2 else f32Add 0x3F800000 (p.1.2 ^^^ 0x80000000)
  match cs.zipIdx with
  | [] => 0x3F800000
  | p :: rest => rest.foldl (fun w q => f32Mul w (factor q)) (factor p)

/-- Index and weight of every corner of a lane at a level. -/
def gridCorners (d : List W32) (l : Nat) (cs : List (Int × Nat)) : List (Nat × Nat) :=
  (List.range (2 ^ gridDims d)).map (fun k => (gridIndex d l k cs, gridWeight k cs))

/-- The corners of every level of a lane; none where it is void at some level. -/
def laneCorners (d : List W32) (xs : List Nat) : Option (List (List (Nat × Nat))) :=
  let ls := (List.range (gridLevels d)).map (fun l => gridCells d l xs)
  if ls.all Option.isSome then some (((ls.filterMap id).zipIdx).map (fun p => gridCorners d p.2 p.1)) else none

/-- The coordinates of lane i. -/
def State.coords (s : State) (f : Fields) (d : List W32) (i : Nat) : List Nat :=
  (List.range (gridDims d)).map (fun k => s.srcLane (advanceField f.a k) 32 i)

/-- Index ranges of two lines meet, or they run in different directions (R264). -/
def rangesClash (a b : BitVec 12) (na nb : Nat) : Bool :=
  opDir a != opDir b || (decide (opIndex a < opIndex b + nb) && decide (opIndex b < opIndex a + na))

/-- GSTAT.NAN is set where some lane is void. -/
def State.noteVoid (s : State) (void : Bool) : State :=
  if void then s.modMyCore (fun c => c.setSys 0x0E0 (c.sysreg 0x0E0 ||| 1)) else s

/-- A grid instruction on the state that it reads: the latched descriptor is judged, then the limit on A (R259, R260, R264). -/
def withGrid (t : State) (f : Fields) (k : State → List W32 → Eff) : Eff :=
  let g := f.x.toNat % 8
  let d := t.myCore.grid g
  match gridOffence d with
  | some off => .trap 0x29 (gridAddr g off)
  | none => if 128 < opIndex f.a + gridDims d then .trap 0x02 1 else k t d

/-- A grid command as its push releases it to the engine: the sequencer's transfers are over and its older writes performed, and are in everything that it reads, the latched descriptor, the coordinates and the gradients among it (R242, R249, R260, R266). -/
def gridCommand (s : State) (f : Fields) (k : State → List W32 → Eff) : Eff :=
  if s.busy then .stall s else withGrid (s.drainQueue s.node s.me) f k

/-- An older write of the current sequencer's queue goes to one of these windows of its own core. -/
def State.storesInto (s : State) (ws : List Nat) : Bool :=
  s.mySeq.queue.any (fun st => match s.place st.addr with | .window owner w _ => owner == s.node && ws.contains w | _ => false)

/-- HGW is no engine command and releases nothing; what its own sequencer does before it to the cells and the slot that it reads is done, as in program order (R97, R260, R267). -/
def gridWeights (s : State) (f : Fields) (k : State → List W32 → Eff) : Eff :=
  if s.busy then .stall s else withGrid (if s.storesInto [0, 8] then s.drainQueue s.node s.me else s) f k

/-! ## Instructions -/

/-- HGDEF: a descriptor, judged as it returns, into a slot (R263). -/
def execHgdef (f : Fields) (s : State) : Out :=
  issued 0x780 f (fun s =>
    let g := f.d.toNat % 8
    readDescriptor s (s.baseOff f) (fun t l =>
      match gridOffence l with
      | some off => .trap 0x29 (gridAddr g off)
      | none => done (t.modMyCore (fun c => { c with grids := putWords c.grids (16 * g) l })))) s

/-- Writes output lines: line k of D gets these lanes (R266). -/
def writeOutputs (t : State) (f : Fields) (outs : List (Nat × List (Nat × Nat))) : State :=
  outs.foldl (fun t o =>
    t.loadLanes t.node f.e (advanceField f.d o.1) 32 (fun _ => false) (o.2.map (fun p => (p.1, BitVec.ofNat 64 p.2)))) t

/-- One feature of a lane: the fma chain over the corners (R265). -/
def gridSum (s : State) (n : Nat) (d : List W32) (l j : Nat) (cs : List (Nat × Nat)) : Nat :=
  cs.foldl (fun acc p =>
    let v := s.load n (gridEntry d l p.1 j) (gridWidth d)
    f32Fma p.2 (f32Round ((gridFmt d).value v).exact) acc) 0

/-- HGL (R264 to R266). -/
def execHgl (f : Fields) (s : State) : Out :=
  issued 0x790 f (fun s =>
    gridCommand s f (fun s d =>
      let nf := gridFeat d
      let cnt := gridLevels d * nf
      if 128 < opIndex f.d + cnt then .trap 0x02 0
      else if rangesClash f.a f.d (gridDims d) cnt then .trap 0x02 1
      else
        let lanes := s.lanes.map (fun i => (i, laneCorners d (s.coords f d i)))
        let locs := lanes.flatMap (fun p =>
          match p.2 with
          | none => []
          | some ls => (ls.zipIdx).flatMap (fun q => q.1.flatMap (fun c => (List.range nf).map (fun j => gridEntry d q.2 c.1 j))))
        let l : List Acc := locs.map (fun va => { want := { r := true, line := true }, va := va, size := gridWidth d })
        s.judged l (s.judge s.node l) (fun t =>
          let out (k : Nat) : List (Nat × Nat) := lanes.map (fun p =>
            match p.2 with
            | none => (p.1, 0x7FC00000)
            | some ls => (p.1, gridSum t t.node d (k / nf) (k % nf) (ls.getD (k / nf) [])))
          let u := writeOutputs t f ((List.range cnt).map (fun k => (k, out k)))
          .done { st := u.noteVoid (lanes.any (fun p => p.2.isNone)), lat := some 24, wr := some [.tile f.d cnt s.mySeq.vlen] }))) s

/-- HGW: indices and weights, no memory (R267). -/
def execHgw (f : Fields) (s : State) : Out :=
  issued 0x7B0 f (fun s =>
    gridWeights s f (fun s d =>
      let corners := 2 ^ gridDims d
      let cnt := 2 * gridLevels d * corners
      if 128 < opIndex f.d + cnt then .trap 0x02 0
      else if rangesClash f.a f.d (gridDims d) cnt then .trap 0x02 1
      else
        let lanes := s.lanes.map (fun i => (i, laneCorners d (s.coords f d i)))
        let value (k : Nat) (o : Option (List (List (Nat × Nat)))) : Nat :=
          match o with
          | none => if k % 2 = 0 then 0xFFFFFFFF else 0x7FC00000
          | some ls =>
            let c := ((ls.getD (k / 2 / corners) []).getD (k / 2 % corners) (0, 0))
            if k % 2 = 0 then c.1 else c.2
        let u := writeOutputs s f ((List.range cnt).map (fun k => (k, lanes.map (fun p => (p.1, value k p.2)))))
        .done { st := u.noteVoid (lanes.any (fun p => p.2.isNone)), lat := some (8 + gridLevels d),
                wr := some [.tile f.d cnt s.mySeq.vlen] })) s

/-! ## HGS (R268 to R271) -/

/-- A place where an atomic of HGS executes (R270). -/
def State.gridPlace (s : State) (n : Nat) (va : Word) : Bool :=
  match s.xlate n va with
  | none => false
  | some x =>
    let sp := paSpace (x.addr va)
    sp == 2 || ((sp == 0 || sp == 1) && x.c)

/-- What an atomic of HGS wants of its entry; it reads the whole line (R271). -/
def Want.scatter : Want := { r := true, w := true, grid := true, line := true }

/-- One atomic add of an FP32 value to a feature, in the issuing core's L1 with the line held by no other (R269, R270). -/
def State.gridAdd (s : State) (n : Nat) (d : List W32) (va : Word) (v : Nat) : State :=
  let t := gridFmt d
  let x := t.value (s.load n va (gridWidth d))
  let y := Fmt.f32.value v
  let sum := exAdd 0 x y
  let o := (t.round FpEnv.rne sum.1).plus (sum.2 ||| x.sigFlag ||| y.sigFlag)
  ((s.takeLine n va).engineWrite n va (gridWidth d) (BitVec.ofNat 64 o.bits)).addAtFlags n .st o.fl

/-- Contributions to the same location merged, in the order of their first ones; a location is the physical bytes that an address names (R268). -/
def mergeAll (location : Word → Nat) (l : List (Word × Nat)) : List (Word × Nat) :=
  l.foldl (fun acc p =>
    let same (q : Word × Nat) : Bool := location q.1 == location p.1
    if acc.any same then acc.map (fun q => if same q then (q.1, f32Add q.2 p.2) else q)
    else acc ++ [p]) []

/-- The physical address of a location that translates. -/
def State.location (s : State) (n : Nat) (va : Word) : Nat :=
  match s.xlate n va with
  | some x => x.addr va
  | none => va.toNat

/-- A list in an order that is open: each next element by a free value. -/
def shuffle {α : Type} (l : List α) (fresh fuel : Nat) : List α :=
  match fuel with
  | 0 => []
  | k + 1 =>
    let i := (Config.freeWord fresh).toNat % max l.length 1
    match l[i]? with
    | none => []
    | some x => x :: shuffle (l.eraseIdx i) (fresh + 1) k

/-- HGS in either mode (R268). -/
def scatter (f : Fields) (merge : Bool) (s : State) : Eff :=
  gridCommand s f (fun s d =>
    let nf := gridFeat d
    if 128 < opIndex f.b + gridLevels d * nf then .trap 0x02 2
    else
      let lanes := s.lanes.map (fun i => (i, laneCorners d (s.coords f d i)))
      let parts : List (Word × Nat) := lanes.flatMap (fun p =>
        match p.2 with
        | none => []
        | some ls => (ls.zipIdx).flatMap (fun q => q.1.flatMap (fun c => (List.range nf).map (fun j =>
            (gridEntry d q.2 c.1 j, f32Mul c.2 (s.srcLane (advanceField f.b (q.2 * nf + j)) 32 p.1))))))
      let l : List Acc := parts.map (fun p => { want := Want.scatter, va := p.1, size := gridWidth d })
      s.judged l (s.judgeAtoms s.node 3 (s.gridPlace s.node) l) (fun t =>
        let adds := shuffle (if merge then mergeAll (t.location t.node) parts else parts) t.fresh parts.length
        let u := adds.foldl (fun t p => t.gridAdd t.node d p.1 p.2) { t with fresh := t.fresh + parts.length }
        let v := u.modMyCore (fun c => c.setSys 0x0E1 (c.sysreg 0x0E1 + BitVec.ofNat 64 adds.length))
        done (v.noteVoid (lanes.any (fun p => p.2.isNone)))))

/-- HGS.DET (R268). -/
def execHgsDet (f : Fields) (s : State) : Out := issued 0x7A0 f (fun s => scatter f true s) s
/-- HGS.REL (R268). -/
def execHgsRel (f : Fields) (s : State) : Out := issued 0x7A1 f (fun s => scatter f false s) s

end Sys2Proof.Machine
end

