-- ==== Sys2Proof/Machine/Sync.lean ====
section
/-! DEFINITION. Synchronisation and atomics (R274 to R293): bay rings, buffer rings, flags, fences, ATOM, VATOM and SCOPESET. -/

namespace Sys2Proof.Machine

/-! ## Scope entries (R274) -/

/-- The cores of a die control core's scope entry: its own stack, its package, or the fabric domain (R275). -/
def State.dccScope (s : State) (n e : Nat) : List Nat :=
  if e ≤ 3 then (List.range 256).map (fun k => 256 * stackOf n + k)
  else if e = 4 then (List.range 1024).map (fun k => 1024 * pkgOf n + k)
  else s.domain.flatMap (fun p => (List.range 1024).map (fun k => 1024 * p + k))

/-- The members of scope entry e: on a core the cores of its set that are in the placement, on a die control core the cores of its set (R274, R275). -/
def State.members (s : State) (n e : Nat) : List Nat :=
  if isDcc n then s.dccScope n e
  else
  let c := s.core n
  (c.placement.zipIdx).filterMap (fun p =>
    let m := p.1
    let inside : Bool :=
      match e with
      | 0 => m == n
      | 1 => m / 4 == n / 4
      | 2 => m / 64 == n / 64
      | 3 => m / 256 == n / 256
      | 4 => m / 1024 == n / 1024
      | 5 => true
      | _ => (Tab.get c.scopes e (List.range c.placement.length)).contains p.2
    if inside then some m else none)

/-- A release: the queue's earlier writes are performed; it stalls while its transfers are under way (R246). -/
def State.release (s : State) (k : State → Eff) : Eff :=
  if s.busy then .stall s else k (s.drainQueue s.node s.me)

/-! ## Bay rings (R277 to R280) -/

def ringEntry (f : Fields) : Nat := f.x.toNat % 32

/-- A sequencer waits for this ring resource, or has been passed over: the place that it took in the line is its place (R279). -/
def State.inLine (s : State) (id : Word) (p : Nat × SeqId) : Bool :=
  match (s.seq p.1 p.2).wait with
  | some w => w.inOrder 0x05 id
  | none => false

/-- Another sequencer's wait for the same resource began earlier, and it waits still or has been passed over; one whose own wait is over stands behind all that wait (R279). -/
def State.behindInLine (s : State) (id : Word) : Bool :=
  let me := (s.node, s.me)
  let line := (s.bay (bayOf s.node)).line
  let ahead := if s.inLine id me then line.takeWhile (fun p => p != me) else line.filter (fun p => p != me)
  ahead.any (s.inLine id)

/-- A ring instruction that needs a slot: it takes it in its turn, or takes a place in the line, at its end where its wait begins. The place counts from the moment the ring lacks (DESIGN CHOICE, log 67). -/
def State.ringWait (s : State) (id : Word) (ready : Bool) (k : State → Eff) : Eff :=
  let b := s.bay (bayOf s.node)
  let me := (s.node, s.me)
  let others := b.line.filter (fun p => p != me)
  if ready && !s.behindInLine id then k (s.setBay (bayOf s.node) { b with line := others })
  else if b.line.contains me && s.inLine id me then .wait 0x05 id
  else .waitWith (s.setBay (bayOf s.node) { b with line := others ++ [me] }) 0x05 id

def State.ring (s : State) (e : Nat) : Ring := (s.bay (bayOf s.node)).ring e
def State.setRing (s : State) (e : Nat) (r : Ring) : State := s.setBay (bayOf s.node) ((s.bay (bayOf s.node)).setRing e r)

/-- The address of slot t. -/
def Ring.addr (r : Ring) (t : Nat) : Word := r.base + BitVec.ofNat 64 (t * r.slot)
def Ring.next (r : Ring) (t : Nat) : Nat := (t + 1) % r.count

/-- RNGCLAIM (R278). -/
def execRngclaim (f : Fields) (s : State) : Out :=
  issued 0xA00 f (fun s =>
    let e := ringEntry f
    let r := s.ring e
    s.ringWait (BitVec.ofNat 64 e) (decide (r.used < r.count)) (fun s =>
      let r1 := { r with fill := r.fill.filter (fun t => t != r.tail), tail := r.next r.tail, used := r.used + 1, clm := r.clm + 1,
                         claimed := r.claimed ++ [r.tail] }
      putReg (s.setRing e r1) f.d (r.addr r.tail))) s

/-- RNGFILL: a claimed, unfilled slot at s[A]; which, where several stand there, is open (R278). -/
def execRngfill (f : Fields) (s : State) : Out :=
  issued 0xA10 f (fun s =>
    let e := ringEntry f
    let r := s.ring e
    let hits := r.claimed.filter (fun t => r.addr t == s.sreg f.a)
    if hits.isEmpty then .trap 0x02 1
    else
      s.release (fun s =>
        let t := s.pick hits
        let r1 := { r with fill := r.fill ++ [t], claimed := r.claimed.filter (fun u => u != t), clm := r.clm - 1 }
        let u := s.setRing e r1
        done (if hits.length = 1 then u else u.spend))) s

/-- RNGWAIT (R278). -/
def execRngwait (f : Fields) (s : State) : Out :=
  issued 0xA20 f (fun s =>
    let e := ringEntry f
    let r := s.ring e
    s.ringWait (BitVec.ofNat 64 (e + 256)) (r.take != r.tail && r.fill.contains r.take) (fun s =>
      putReg (s.setRing e { r with take := r.next r.take }) f.d (r.addr r.take))) s

/-- RNGFREE (R278). -/
def execRngfree (f : Fields) (s : State) : Out :=
  issued 0xA30 f (fun s =>
    let e := ringEntry f
    let r := s.ring e
    if r.head = r.take ∨ s.sreg f.a ≠ r.addr r.head then .trap 0x02 1
    else
      s.release (fun s =>
        done (s.setRing e { r with fill := r.fill.filter (fun t => t != r.head), head := r.next r.head, used := r.used - 1 }))) s

/-! ## Buffer rings (R281) -/

/-- Another sequencer of the core waits for this buffer ring, or has been passed over, and began earlier, or in the same cycle with a lower number. A wait that began for want of a token counts from then (DESIGN CHOICE, log 67). -/
def State.behindBuf (s : State) (e : Nat) : Bool :=
  let c := s.myCore
  let me : Word × Nat := match s.mySeq.wait with
    | some w => (if w.counts || w.kind == 0x86 then w.start else c.cycle, seqNum s.me)
    | none => (c.cycle, seqNum s.me)
  allSeqs.any (fun q =>
    q != s.me &&
      (match (c.seqs.get q).wait with
       | some w => w.inOrder 0x06 (BitVec.ofNat 64 e) && (w.start.ult me.1 || (w.start == me.1 && decide (seqNum q < me.2)))
       | none => false))

/-- BACQ: waits for a buffer (kind 0x06) and takes it. -/
def execBacq (f : Fields) (s : State) : Out :=
  issued 0xA40 f (fun s =>
    let e := f.x.toNat % 8
    let b := s.myCore.buf e
    if b.held < b.count ∧ !s.behindBuf e then
      putReg (s.modMyCore (fun c => c.setBuf e { b with head := (b.head + 1) % b.count, held := b.held + 1 })) f.d
        (b.base + BitVec.ofNat 64 (b.head * b.size))
    else .wait 0x06 (BitVec.ofNat 64 e)) s

/-- BREL: frees the oldest buffer held, or notes that none is. -/
def execBrel (f : Fields) (s : State) : Out :=
  issued 0xA50 f (fun s =>
    let e := f.x.toNat % 8
    s.release (fun s =>
      let b := s.myCore.buf e
      done (s.modMyCore (fun c =>
        if b.held = 0 then c.setSys 0x20C (c.sysreg 0x20C ||| 1) else c.setBuf e { b with held := b.held - 1 })))) s

/-! ## Flags (R282) -/

def Core.flag (c : Core) (k : Nat) : W32 := Tab.get c.flags k 0
def Core.setFlag (c : Core) (k : Nat) (v : W32) : Core := { c with flags := Tab.put0 0 c.flags k v }

/-- Older writes of the current queue to one of its own core's flags are performed (R240). -/
def State.behindFlag (s : State) (k : Nat) : State :=
  let a := windowAddr s.node 9 (4 * k)
  if s.mySeq.queue.any (fun st => decide (st.addr < a + 4) && decide (a < st.addr + st.size)) then s.drainQueue s.node s.me else s

/-- A flag that cannot be reached: no route to its package (R294), or its domain is gated, so that the address of its window is bad (R215, R360; DEDUCED, log 75). -/
def State.flagFault (s : State) (n target : Nat) : Option Nat :=
  if s.unreachable n (pkgOf target) then some 0x18
  else if s.gatedDom (stackOf target) (quadOf target % 4) || s.gatedDom (stackOf target) 4 then some 0x10
  else none

/-- The fault of the first of these cores whose flag k cannot be reached, or what follows. -/
def State.flagsReached (s : State) (k : Nat) (ms : List Nat) (go : Eff) : Eff :=
  match ms.find? (fun m => (s.flagFault s.node m).isSome) with
  | some m => .trap ((s.flagFault s.node m).getD 0) (BitVec.ofNat 64 (windowAddr m 9 (4 * k)))
  | none => go

/-- RFADD: releases, then adds to a flag of a core of the placement. -/
def execRfadd (f : Fields) (s : State) : Out :=
  issued 0xA60 f (fun s =>
    let target := (s.sreg f.a).toNat
    let k := f.x.toNat % 32
    if 2 ^ 22 ≤ target then .trap 0x02 1
    else if !s.myCore.placement.contains target then .trap 0x13 (BitVec.ofNat 64 target)
    else
      s.flagsReached k [target] (s.release (fun s =>
        done (s.modCore target (fun c => c.setFlag k (c.flag k + (s.sreg f.d).setWidth 32)))))) s

/-- MFSET: releases, then writes a flag of every member of the entry, all in one step (R282; DESIGN CHOICE, log 120). -/
def execMfset (f : Fields) (s : State) : Out :=
  issued 0xA61 f (fun s =>
    let k := f.x.toNat % 32
    let ms := s.members s.node (f.x.toNat / 256 % 32)
    s.flagsReached k ms (s.release (fun s =>
      done (ms.foldl (fun t m => t.modCore m (fun c => c.setFlag k ((s.sreg f.d).setWidth 32))) s)))) s

/-- The condition of FLAGW. -/
def flagCond (c : Nat) (v r : W32) : Bool :=
  match c with
  | 0 => v == r
  | 1 => v != r
  | _ => !((v - r).getLsbD 31)

/-- FLAGW: behind the queue's transfers (R242), waits until the flag satisfies its condition (kind 0x04). -/
def execFlagw (f : Fields) (s : State) : Out :=
  issued 0xA62 f (fun s =>
    let k := f.x.toNat % 32
    let t := s.behindFlag k
    let v := t.myCore.flag k
    if s.busy then .stall s
    else if flagCond (f.x.toNat / 256 % 4) v ((s.sreg f.a).setWidth 32) then putReg t f.d (v.setWidth 64)
    else .waitWith t 0x04 (BitVec.ofNat 64 k)) s

/-- FLAGCLR: a horizontal write of 0 to an own flag. -/
def execFlagclr (f : Fields) (s : State) : Out :=
  issued 0xA63 f (fun s =>
    if s.busy then .stall s
    else
      .done { st := s, stores := [{ tag := 0, path := .horizontal, addr := windowAddr s.node 9 (4 * (f.x.toNat % 32)), size := 4, val := 0, key := none, via := none }] }) s

/-- FLAGRD: an own flag, read in queue order. -/
def execFlagrd (f : Fields) (s : State) : Out :=
  issued 0xA64 f (fun s =>
    let k := f.x.toNat % 32
    if s.busy then .stall s
    else
      let t := s.behindFlag k
      putReg t f.d ((t.myCore.flag k).setWidth 64)) s

/-! ## Fences (R248, R284) -/

/-- FENCE: its queue's transfers are over; a release performs the writes of its mask at the members of its entry, a full fence every write. What is performed at one core is performed at all (R241; DESIGN CHOICE, log 76). -/
def execFence (f : Fields) (s : State) : Out :=
  issued 0xA70 f (fun s =>
    let kind := f.x.toNat % 4
    if s.busy then .stall s
    else if kind = 1 || (s.members s.node (f.x.toNat / 256 % 32)).isEmpty then done s
    else if kind = 2 then done (s.drainPaths s.node s.me (f.x.getLsbD 16) (f.x.getLsbD 17))
    else done (s.drainQueue s.node s.me)) s

/-! ## Atomics (R285 to R290) -/

/-- What an atomic makes of old value x, operand v and comparand c, by type and width: the new value and its flags. -/
abbrev AtomOp := Nat → Nat → Nat → Nat → Nat → FpOut

/-- The integer functions (Table 13.6). -/
def atomAddI : AtomOp := fun _ w x v _ => ⟨(x + v) % 2 ^ w, 0⟩
def atomAndI : AtomOp := fun _ _ x v _ => ⟨x &&& v, 0⟩
def atomOrI : AtomOp := fun _ _ x v _ => ⟨x ||| v, 0⟩
def atomXorI : AtomOp := fun _ _ x v _ => ⟨x ^^^ v, 0⟩
def atomMinI : AtomOp := fun _ w x v _ => ⟨if toInt w x ≤ toInt w v then x else v, 0⟩
def atomMaxI : AtomOp := fun _ w x v _ => ⟨if toInt w x ≤ toInt w v then v else x, 0⟩
def atomMinnI : AtomOp := fun _ _ x v _ => ⟨min x v, 0⟩
def atomMaxnI : AtomOp := fun _ _ x v _ => ⟨max x v, 0⟩
def atomXchgI : AtomOp := fun _ _ _ v _ => ⟨v, 0⟩
def atomCasI : AtomOp := fun _ _ x v c => ⟨if x = c then v else x, 0⟩

/-- FADD, FMIN and FMAX (R287). -/
def atomFadd : AtomOp := fun _ _ x v _ =>
  let a := Fmt.f32.value x
  let b := Fmt.f32.value v
  let r := exAdd 0 a b
  (Fmt.f32.round FpEnv.rne r.1).plus (r.2 ||| a.sigFlag ||| b.sigFlag)
def atomPick (first : Fp → Fp → Bool) (x v : Nat) : FpOut :=
  let a := Fmt.f32.value x
  let b := Fmt.f32.value v
  ⟨if a.isNan || b.isNan then Fmt.f32.nan else if first a b then x else v, a.sigFlag ||| b.sigFlag⟩
def atomFmin : AtomOp := fun _ _ x v _ => atomPick Fp.le x v
def atomFmax : AtomOp := fun _ _ x v _ => atomPick (fun a b => b.le a) x v

/-- The bits of an atomic's word. -/
def atomWidth (c : Code) (f : Fields) : Nat := if 10 ≤ c % 16 then 32 else intWidth f.q.toNat

/-- A place where an atomic may execute (Table 13.7, R300). -/
def State.atomPlace (s : State) (n : Nat) (va : Word) : Bool :=
  match s.xlate n va with
  | none => false
  | some x =>
    match s.place (x.addr va) with
    | .bytes => decide (paSpace (x.addr va) ≤ 2)
    | .window _ w _ => w == 9
    | _ => false

/-- One atomic, performed: the old value and the state after it, its flags in ATFLAGS, its line in no cache but where it executes (R288, R289, R300). -/
def State.atomAt (s : State) (op : AtomOp) (q w : Nat) (va : Word) (v cmp : Nat) : Nat × State :=
  let x := s.load s.node va (w / 8)
  let o := op q w x v cmp
  (x, ((s.takeLine s.node va).engineWrite s.node va (w / 8) (BitVec.ofNat 64 o.bits)).addAtFlags s.node s.me o.fl)

/-- An old value as ATOM returns it (R285). -/
def atomResult (c : Code) (f : Fields) (x : Nat) : Word :=
  if 10 ≤ c % 16 then BitVec.ofNat 64 x else extend f.q.toNat (intWidth f.q.toNat) x

/-- ATOM: one atomic at s[A] (R285, R286). -/
def atomWord (c : Code) (f : Fields) (op : AtomOp) (s : State) : Out :=
  issued c f (fun s =>
    let w := atomWidth c f
    let va := s.sreg f.a
    let l : List Acc := [{ want := Want.atomic, va := va, size := w / 8 }]
    s.judged l (s.assured.judgeAtoms s.node 5 (s.atomPlace s.node) l) (fun t =>
      let r := t.atomAt op f.q.toNat w va ((s.sreg f.d).toNat % 2 ^ w) ((s.mySeq.reg (f.x.extractLsb' 16 5)).toNat % 2 ^ w)
      if f.x.getLsbD 8 then putReg r.2 (f.x.setWidth 12) (atomResult c f r.1) else done r.2)) s

/-- VATOM: one atomic per active lane (R290). All the lanes are performed in one step, in ascending order also where their locations differ (DESIGN CHOICE, log 121). -/
def atomLanes (c : Code) (f : Fields) (op : AtomOp) (s : State) : Out :=
  issued c f (fun s =>
    let w := atomWidth c f
    let q := if 10 ≤ c % 16 then 0 else f.q.toNat
    let vo := atomOperand q (f.x.extractLsb' 0 8)
    let co := atomOperand q (f.x.extractLsb' 8 8)
    let vas := s.lanes.map (fun i => s.sreg f.a + (BitVec.ofNat 32 (s.srcLane f.b 32 i)).signExtend 64)
    let l : List Acc := vas.map (fun va => { want := Want.atomic, va := va, size := w / 8 })
    s.judged l (s.assured.judgeAtoms s.node 5 (s.atomPlace s.node) l) (fun t =>
      let r := (vas.zipIdx).foldl (fun (a : List (Nat × Word) × State) p =>
        let o := a.2.atomAt op q w p.1 (s.srcLane vo w p.2) (if c % 16 = 9 then s.srcLane co w p.2 else 0)
        (a.1 ++ [(p.2, BitVec.ofNat 64 o.1)], o.2)) ([], t)
      if f.x.getLsbD 16 then
        let srcs := if c % 16 = 9 then [f.b, vo, co] else [f.b, vo]
        done (r.2.loadLanes s.node false f.d w (overlapsIn f.d srcs) r.1)
      else done r.2)) s

/-- ATOM.ADD: add (Table 13.6). -/
def execAtomAdd (f : Fields) (s : State) : Out := atomWord 0xA80 f atomAddI s
/-- ATOM.AND: AND (Table 13.6). -/
def execAtomAnd (f : Fields) (s : State) : Out := atomWord 0xA81 f atomAndI s
/-- ATOM.OR: OR (Table 13.6). -/
def execAtomOr (f : Fields) (s : State) : Out := atomWord 0xA82 f atomOrI s
/-- ATOM.XOR: XOR (Table 13.6). -/
def execAtomXor (f : Fields) (s : State) : Out := atomWord 0xA83 f atomXorI s
/-- ATOM.MIN: signed minimum (Table 13.6). -/
def execAtomMin (f : Fields) (s : State) : Out := atomWord 0xA84 f atomMinI s
/-- ATOM.MAX: signed maximum (Table 13.6). -/
def execAtomMax (f : Fields) (s : State) : Out := atomWord 0xA85 f atomMaxI s
/-- ATOM.MINN: unsigned minimum (Table 13.6). -/
def execAtomMinn (f : Fields) (s : State) : Out := atomWord 0xA86 f atomMinnI s
/-- ATOM.MAXN: unsigned maximum (Table 13.6). -/
def execAtomMaxn (f : Fields) (s : State) : Out := atomWord 0xA87 f atomMaxnI s
/-- ATOM.XCHG: exchange (Table 13.6). -/
def execAtomXchg (f : Fields) (s : State) : Out := atomWord 0xA88 f atomXchgI s
/-- ATOM.CAS: compare and swap (Table 13.6). -/
def execAtomCas (f : Fields) (s : State) : Out := atomWord 0xA89 f atomCasI s
/-- ATOM.FADD: FP32 add (Table 13.6). -/
def execAtomFadd (f : Fields) (s : State) : Out := atomWord 0xA8A f atomFadd s
/-- ATOM.FMIN: FP32 minimum (Table 13.6). -/
def execAtomFmin (f : Fields) (s : State) : Out := atomWord 0xA8B f atomFmin s
/-- ATOM.FMAX: FP32 maximum (Table 13.6). -/
def execAtomFmax (f : Fields) (s : State) : Out := atomWord 0xA8C f atomFmax s
/-- VATOM.ADD: add, per lane (R290). -/
def execVatomAdd (f : Fields) (s : State) : Out := atomLanes 0xA90 f atomAddI s
/-- VATOM.AND: AND, per lane (R290). -/
def execVatomAnd (f : Fields) (s : State) : Out := atomLanes 0xA91 f atomAndI s
/-- VATOM.OR: OR, per lane (R290). -/
def execVatomOr (f : Fields) (s : State) : Out := atomLanes 0xA92 f atomOrI s
/-- VATOM.XOR: XOR, per lane (R290). -/
def execVatomXor (f : Fields) (s : State) : Out := atomLanes 0xA93 f atomXorI s
/-- VATOM.MIN: signed minimum, per lane (R290). -/
def execVatomMin (f : Fields) (s : State) : Out := atomLanes 0xA94 f atomMinI s
/-- VATOM.MAX: signed maximum, per lane (R290). -/
def execVatomMax (f : Fields) (s : State) : Out := atomLanes 0xA95 f atomMaxI s
/-- VATOM.MINN: unsigned minimum, per lane (R290). -/
def execVatomMinn (f : Fields) (s : State) : Out := atomLanes 0xA96 f atomMinnI s
/-- VATOM.MAXN: unsigned maximum, per lane (R290). -/
def execVatomMaxn (f : Fields) (s : State) : Out := atomLanes 0xA97 f atomMaxnI s
/-- VATOM.XCHG: exchange, per lane (R290). -/
def execVatomXchg (f : Fields) (s : State) : Out := atomLanes 0xA98 f atomXchgI s
/-- VATOM.CAS: compare and swap, per lane (R290). -/
def execVatomCas (f : Fields) (s : State) : Out := atomLanes 0xA99 f atomCasI s
/-- VATOM.FADD: FP32 add, per lane (R290). -/
def execVatomFadd (f : Fields) (s : State) : Out := atomLanes 0xA9A f atomFadd s
/-- VATOM.FMIN: FP32 minimum, per lane (R290). -/
def execVatomFmin (f : Fields) (s : State) : Out := atomLanes 0xA9B f atomFmin s
/-- VATOM.FMAX: FP32 maximum, per lane (R290). -/
def execVatomFmax (f : Fields) (s : State) : Out := atomLanes 0xA9C f atomFmax s

/-! ## SCOPESET (R291) -/

/-- The LCORE numbers below p whose bits a map sets. -/
def mapCores (p : Nat) (bytes : List Nat) : List Nat :=
  (List.range p).filter (fun j => (bytes.getD (j / 8) 0).testBit (j % 8))

/-- SCOPESET: a scope entry from a map of the placement's cores; it retires as it writes the entry, so that what issues later uses the new set (R291). -/
def execScopeset (f : Fields) (s : State) : Out :=
  issued 0xAA0 f (fun s =>
    let place := s.myCore.placement
    let vas := units (s.sreg f.a) 1 ((place.length + 7) / 8)
    let l := accs Want.load 1 vas
    if s.busy then .stall s
    else
      match s.assured.judge s.node l with
      | .stalls n => .stall (s.stallDrain n)
      | .fault cause va => .trap cause va
      | .allowed =>
        let t := (s.behind s.node s.me 1 vas).noteData s.node true 1 vas
        let set := mapCores place.length (vas.map (fun va => t.load t.node va 1))
        if set.isEmpty then .trap 0x02 1
        else .done { st := t.modMyCore (fun c => { c with scopes := Tab.put c.scopes (f.x.toNat % 32) set }), atOnce := true }) s

end Sys2Proof.Machine
end

