-- ==== Sys2Proof/Machine/Fabric.lean ====
section
/-! DEFINITION. The fabric (R294 to R310) but for its copies: CLST and its combination, link replays, the host port, and the forming of a domain. -/

namespace Sys2Proof.Machine

/-! ## CLST (R302 to R306) -/

/-- Inserts into a rising list. -/
def insertNat (x : Nat) (l : List Nat) : List Nat :=
  match l with
  | [] => [x]
  | y :: r => if x ≤ y then x :: y :: r else y :: insertNat x r

/-- The members of an entry in rank order (R274). -/
def State.ranked (s : State) (n e : Nat) : List Nat := (s.members n e).foldl (fun l m => insertNat m l) []

/-- The width of a collective's lanes. -/
def clstWidth (fn q : Nat) : Nat := if fn ≤ 2 then 32 else intWidth q

/-- One combining step (R304). -/
def clstStep (fn w acc v : Nat) : FpOut :=
  match fn with
  | 0 => fpAdd .f32 FpEnv.rne acc v
  | 1 => fpMax .f32 FpEnv.rne acc v
  | 2 => fpMin .f32 FpEnv.rne acc v
  | 3 => ⟨(acc + v) % 2 ^ w, 0⟩
  | _ => ⟨if toInt w acc ≤ toInt w v then v else acc, 0⟩

/-- The first member's lane as the combination starts (R304). -/
def clstFirst (fn v : Nat) : FpOut :=
  if fn ≤ 2 then ⟨if (Fmt.f32.value v).isNan then Fmt.f32.nan else v, (Fmt.f32.value v).sigFlag⟩ else ⟨v, 0⟩

/-- One lane combined in rank order. -/
def clstLane (fn w : Nat) (vs : List Nat) : FpOut :=
  match vs with
  | [] => ⟨0, 0⟩
  | v :: rest => rest.foldl (fun a x => (clstStep fn w a.bits x).plus a.fl) (clstFirst fn v)

/-- CLST at issue: the membership check, a permit, the arrival, then the wait for the others (kind 0x0C), which ends as the last arrives: the last itself waits for none. -/
def collective (fn : Nat) (f : Fields) (s : State) : Out :=
  issued (0xB20 + fn) f (fun s =>
    let e := f.x.toNat % 32
    let set := s.ranked s.node e
    if s.allArrived s.node then .stall s
    else if s.myCore.clst.isSome then .wait 0x0C (BitVec.ofNat 64 e)
    else if !set.contains s.node then .trap 0x02 3
    else
      s.withPermit .collective 1 (fun s =>
        let w := clstWidth fn f.q.toNat
        let a : Arrival :=
          { entry := e, k := Tab.get s.myCore.clstCnt e 0, fn := fn, q := f.q.toNat, set := set, vlen := s.mySeq.vlen,
            lanes := s.lanes.map (fun i => BitVec.ofNat 64 (s.srcLane f.a w i)), fields := f }
        let t := s.modMyCore (fun c => { c with clst := some a })
        if t.allArrived t.node then .stall t else .waitWith t 0x0C (BitVec.ofNat 64 e))) s

/-- CLST.FADD (R304). -/
def execClstFadd (f : Fields) (s : State) : Out := collective 0 f s
/-- CLST.FMAX (R304). -/
def execClstFmax (f : Fields) (s : State) : Out := collective 1 f s
/-- CLST.FMIN (R304). -/
def execClstFmin (f : Fields) (s : State) : Out := collective 2 f s
/-- CLST.IADD (R304). -/
def execClstIadd (f : Fields) (s : State) : Out := collective 3 f s
/-- CLST.IMAX (R304). -/
def execClstImax (f : Fields) (s : State) : Out := collective 4 f s

/-- Members of one collective that agree in FN, Q and VLEN. -/
def Arrival.agrees (a b : Arrival) : Bool := a.fn == b.fn && a.q == b.q && a.vlen == b.vlen

/-- Runs a part of a member's CLST as its current sequencer. -/
def State.asMember (s : State) (m : Nat) (k : State → State) : State := { k { s with cur := (m, .cp) } with cur := s.cur }

/-- A member's CLST ends: its arrival and its permit are given back. -/
def State.leaveClst (s : State) (m : Nat) : State :=
  (s.modCore m (fun c => { c with clst := none })).releasePermit m .cp .collective

/-- The CLST of a member is short of a producer (R99). -/
def State.clstMiss (s : State) (m : Nat) (a : Arrival) : Option Word := ({ s with cur := (m, .cp) } : State).miss (0xB20 + a.fn) a.fields

/-- A member gets the result: LATMISS counted, the result written under E, charged, flags added, and the count of its entry advanced; the result stays in flight only beside fewer than 32 others (R100, R303, R304, R327; DESIGN CHOICE, log 99). -/
def State.memberResult (s : State) (a : Arrival) (outs : List (Nat × FpOut)) : State :=
  let f := a.fields
  let w := clstWidth a.fn a.q
  let s := if (s.clstMiss s.node a).isSome then s.modMe Seq.countMiss else s
  let t := (s.leaveClst s.node).modMyCore (fun c => { c with clstCnt := Tab.put c.clstCnt a.entry (Tab.get c.clstCnt a.entry 0 + 1) })
  let u := t.addFlags (allFlags (outs.map (fun p => (p.1, p.2.fl))))
  let v : State := { u with hold := u.hold && decide (u.myCore.flying < 32) }
  { v.commit (0xB20 + a.fn) f (v.writeLanes f.e f.d w (overlapsIn f.d [f.a]) (outs.map (fun p => (p.1, p.2.bits)))) with hold := s.hold }

/-- The combination of a collective whose members have all arrived: every one gets the result, or every one faults where they disagree; a member whose CLST breaks STRICT leaves first. -/
def State.combine (s : State) (a : Arrival) (l : List (Nat × Arrival)) : State :=
  let short := l.filter (fun p => (s.clstMiss p.1 p.2).isSome && (s.core p.1).seqs.cp.strict)
  if !short.isEmpty then
    short.foldl (fun t p => t.asMember p.1 (fun u => (u.leaveClst p.1).takeFault 0x05 ((u.clstMiss p.1 p.2).getD 0))) s
  else if l.all (fun p => p.2.agrees a) then
    let w := clstWidth a.fn a.q
    let outs := (List.range a.vlen).map (fun i => (i, clstLane a.fn w (l.map (fun p => (p.2.lanes.getD i 0).toNat))))
    l.foldl (fun t p => t.asMember p.1 (fun u => u.memberResult p.2 outs)) s
  else l.foldl (fun t p => t.asMember p.1 (fun u => (u.leaveClst p.1).takeFault 0x02 3)) s

/-- Combines a core's collective where all have arrived and the test passes every member; that a link is down, or a package outside the domain, keeps no member from it (R294, R303; DESIGN CHOICE, log 107). -/
def State.combineIf (s : State) (n : Nat) (test : Nat → Bool) : State :=
  match (s.core n).clst with
  | none => s
  | some a =>
    match s.arrivals a with
    | none => s
    | some l => if l.all (fun p => test p.1) then s.combine a l else s

/-- CLST_COMBINE: all members of the node's collective have arrived, and none is frozen: a freeze delays the combination (R303, R305). -/
def execClstCombine (node : Nat) (s : State) : Out := .next (s.combineIf node s.delivers)

/-- A core's collective, all of whose members have arrived, is combined as the core stops, its result in flight (R305; DEDUCED, log 77). The others get theirs in the same step, a frozen one too (DESIGN CHOICE, log 99). -/
def State.combineAtStop (s : State) (n : Nat) : State :=
  { ({ s with hold := true } : State).combineIf n (fun _ => true) with hold := s.hold }

/-! ## Links, the host port, the domain -/

/-- Of these addresses, the physical ones that leave the package. -/
def State.farOf (s : State) (n : Nat) (vas : List Word) : List Nat :=
  (vas.filterMap (fun va => (s.xlate n va).map (fun x => x.addr va))).filter (fun pa => paPkg pa != pkgOf n)

/-- The accesses of a fabric transfer's current chunk that leave the package; any of them may be the affected one (DESIGN CHOICE, log 78). -/
def State.farAccess (s : State) (n : Nat) (t : Transfer) : List Nat :=
  match t.copy with
  | .bytes dst src len fs fd _ =>
    let a := pieceStart dst t.chunk
    let cnt := (min len (pieceStart dst (t.chunk + 1)) - a) / 4
    s.farOf n ((if fs then units (src + BitVec.ofNat 64 a) 4 cnt else []) ++ (if fd then units (dst + BitVec.ofNat 64 a) 4 cnt else []))
  | _ => []

/-- The transfer's current chunk is on its way: it does not stand at a boundary where it pauses, and its accesses are allowed, but for an error that only the answer shows: a chunk that is refused or stalls on a drain has no flit out (R229, R233, R295, R353). -/
def State.chunkOut (s : State) (n : Nat) (t : Transfer) : Bool :=
  !t.paused && !t.pausing &&
    match s.copyChunk n t.copy t.chunk with
    | .done _ => true
    | .fault cause _ => cause == 0x18
    | .stalls _ => false

/-- The queue of LD and of ST whose transfer is on its way out of the package, and the addresses of its accesses there. -/
def State.farTransfers (s : State) (n : Nat) : List (SeqId × List Nat) :=
  if (s.core n).live then
    ([SeqId.ld, .st].filterMap (fun q =>
      match (s.core n).transfers q with
      | t :: _ => if s.chunkOut n t then some (q, s.farAccess n t) else none
      | [] => none)).filter (fun p => !p.2.isEmpty)
  else []

/-- The access that had the flit is one of several, by the free value after the one that says whether there was a flit (DESIGN CHOICE, log 78). -/
def State.affected (s : State) (l : List Nat) : Word := BitVec.ofNat 64 (s.spend.pick l)

/-- A transfer that had a flit on a failed link freezes its core with cause 0x18 (R295); which had one is open. -/
def State.lostFlit (n : Nat) (s : State) (p : SeqId × List Nat) : State :=
  match (s.core n).transfers p.1 with
  | [] => s
  | t :: _ =>
    if (Config.freeWord s.fresh).getLsbD 0 then (s.freezeCore n p.1 (.transfer p.1 t.chunk) 0x18 (s.affected p.2) t.pc t.chunk).spend.spend
    else s.spend.spend

/-- The locations of an atomic are judged as it issues, and it issues: none stalls or faults, but for an error that only the answer shows (R286, R295). -/
def State.atomIssues (s : State) (n size : Nat) (vas : List Word) : Bool :=
  match s.assured.judgeAtoms n 5 (s.atomPlace n) (accs Want.atomic size vas) with
  | .allowed => true
  | .fault cause _ => cause == 0x18
  | .stalls _ => false

/-- The locations in another package of an ATOM or a VATOM of the current sequencer that its checks let pass. -/
def State.farAtoms (s : State) (c : Code) (f : Fields) : List Nat :=
  let vas : List Word :=
    if c / 16 = 0xA8 then [s.sreg f.a]
    else if c / 16 = 0xA9 then s.lanes.map (fun i => s.sreg f.a + (BitVec.ofNat 32 (s.srcLane f.b 32 i)).signExtend 64)
    else []
  if s.atomIssues s.node (atomWidth c f / 8) vas then s.farOf s.node vas else []

/-- The flag in another package that an RFADD of the current sequencer adds to, where its checks let it pass (R250, R282). -/
def State.farFlag (s : State) (f : Fields) : List Nat :=
  let target := (s.sreg f.a).toNat
  let reached : Bool := match s.flagFault s.node target with | none => true | some cause => cause == 0x18
  if s.myCore.placement.contains target && reached && pkgOf target != pkgOf s.node then [windowAddr target 9 (4 * (f.x.toNat % 32))] else []

/-- The physical addresses in another package that the next instruction of a sequencer is an atomic on (ATOM, VATOM, or RFADD, whose add is one), one that issues now: nothing comes before it, its hint has elapsed, its tokens let it issue, no mismatch stops it under STRICT, it stands behind no transfer, and its checks let it pass; any of them may be the affected one (R98, R100, R250, R282, R295; DESIGN CHOICE, log 78). -/
def State.farAtomic (s : State) (n : Nat) (q : SeqId) : List Nat :=
  let t : State := { s with cur := (n, q) }
  if t.idle || t.before.isSome || !t.hintElapsed then []
  else
    match t.nextWord with
    | none => []
    | some (c, f) =>
      if (encodingFault c f n q (t.privileged n)).isSome || t.myCore.missingPops q c f != 0 || t.myCore.shortPushes q (placesOf c f) != 0
          || t.busy || (t.mySeq.strict && (t.miss c f).isSome) then []
      else if c = 0xA60 then t.farFlag f
      else t.farAtoms c f

/-- An atomic that had a flit on a failed link takes cause 0x18 with nothing of it done (R295); which had one is open. -/
def State.lostAtomic (n : Nat) (s : State) (p : SeqId × List Nat) : State :=
  if (Config.freeWord s.fresh).getLsbD 0 then { ({ s with cur := (n, p.1) } : State).takeFault 0x18 (s.affected p.2) with cur := s.cur }.spend.spend
  else s.spend.spend

/-- Every transfer and atomic of a core that had a flit on a failed link is reported: those that were under way as it failed. -/
def State.lostFlits (s : State) (n : Nat) : State :=
  let atomics := ((if isDcc n then [SeqId.ld] else allSeqs).map (fun q => (q, s.farAtomic n q))).filter (fun p => !p.2.isEmpty)
  (s.farTransfers n).foldl (State.lostFlit n) (atomics.foldl (State.lostAtomic n) s)

/-- LINK_REPLAY: a flit is replayed and counted; whether the replay fails is open. The eighth failure in a row takes the link down, and the transfers and atomics with a flit on it, of whatever package, are reported (R295; DESIGN CHOICE, log 78). LNKRPL counts and LNKUP clears in the package that the event names alone: the package at the other end of the link keeps its bit until an event names it (DESIGN CHOICE, log 122). -/
def execLinkReplay (pkg link : Nat) (s : State) : Out :=
  .next (let p := s.pkg pkg
    let up := p.sysreg 0x243
    if 24 ≤ link ∨ !up.getLsbD link then s
    else
      let fails := if (Config.freeWord s.fresh).getLsbD 0 then Tab.get p.replays link 0 + 1 else 0
      let p1 := { p.setSys 0x242 (p.sysreg 0x242 + 1) with replays := Tab.put0 0 p.replays link (fails % 8) }
      if fails = 8 then
        let t := (s.setPkg pkg (p1.setSys 0x243 (up &&& ~~~(BitVec.ofNat 64 (2 ^ link))))).spend
        (t.cores.map (fun q => q.1)).foldl State.lostFlits t
      else (s.setPkg pkg p1).spend)

/-- The partition of a virtual function. -/
def State.vf (s : State) (pkg fn : Nat) : Option Partition :=
  if Tab.has (s.pkg pkg).vfs fn then some (Tab.get (s.pkg pkg).vfs fn { tdi := 0, config := { dccs := [], quads := [], rcLo := 0, rcHi := 0, budgetLo := 0, budgetHi := 0, points := [] } })
  else none

/-- Stores the partition of a virtual function, 1 to 64. -/
def State.setVf (s : State) (pkg fn : Nat) (v : Partition) : State :=
  if 1 ≤ fn ∧ fn ≤ 64 then s.setPkg pkg { s.pkg pkg with vfs := Tab.put (s.pkg pkg).vfs fn v } else s

/-- A function reaches the range of die control core d: the physical function every one, a virtual function those of its partition (R307, R333). -/
def State.functionSees (s : State) (pkg fn d : Nat) : Bool :=
  fn == 0 || (match s.vf pkg fn with | some p => p.config.dccs.contains d | none => false)

/-- STAGE is 4: memory is reachable from the host port (R375). -/
def Pkg.booted (p : Pkg) : Bool := (p.sysreg 0x2C0).toNat % 16 == 4

/-- A byte of a host write of cnt bytes from an address changes nothing: the word that it lies in answers an uncorrectable error, and the write does not cover it (R378). -/
def State.hostSpoilt (s : State) (addr cnt pa : Nat) : Bool :=
  let w := pa / 8 * 8
  paSpace pa == 1 && s.isBad w 8 && !(decide (addr ≤ w) && decide (w + 8 ≤ addr + cnt))

/-- A host write of one byte: the physical function reaches plain memory, DUMPCFG and every code store, a virtual function the code stores of its partition alone; mailboxes have an event of their own (R307, R308, R333). -/
def State.hostByte (s : State) (pkg fn pa : Nat) (v : Byte) : State :=
  match s.place pa with
  | .bytes => if fn = 0 ∧ (s.pkg pkg).booted then s.physWrite none pa 1 (v.setWidth 64) else s
  | .device q off =>
    match dccRange off with
    | some (d, o) => if 0x20000 ≤ o ∧ (s.pkg pkg).booted ∧ s.functionSees pkg fn d then s.deviceWrite q off 1 (v.setWidth 64) else s
    | none => if fn = 0 then s.deviceWrite q off 1 (v.setWidth 64) else s
  | _ => s

/-- The words that a host write of the physical function covers whole, which hold valid codewords from then on (R378). -/
def State.hostHeal (s : State) (pkg fn addr cnt : Nat) : State :=
  if fn = 0 ∧ (s.pkg pkg).booted ∧ s.place addr = .bytes then s.heal addr cnt else s

/-- A host write, byte by byte; it is not made while a PHASE drain moves what it would reach (R233). A word that it covers holds a valid codeword again; a part of a word that answers an uncorrectable error stays as it is (R378). -/
def State.hostWrite (s : State) (pkg fn addr : Nat) (data : List Byte) : State :=
  let pa (k : Nat) : Nat := pkg % 4096 * 2 ^ 48 + (addr + k) % 2 ^ 48
  if (List.range data.length).any (fun k => s.drainHit (pa k)) then s
  else
    ((data.zipIdx).filter (fun p => !s.hostSpoilt (pa 0) data.length (pa p.2))).foldl (fun t p => t.hostByte pkg fn (pa p.2) p.1)
      (s.hostHeal pkg fn (pa 0) data.length)

/-- HOST_TLP: a transaction of function fn of the port; 0 is the physical function (R307, R308, R380, R381; DESIGN CHOICE, log 62). A mailbox write is MBOX_WRITE. -/
def execHostTlp (pkg fn addr : Nat) (op : HostOp) (s : State) : Out :=
  .next (match op with
    | .write data => s.hostWrite pkg fn addr data
    | .ideFail => match s.vf pkg fn with | some p => s.setVf pkg fn { p with tdi := 3 } | none => s
    | .tdi state => match s.vf pkg fn with | some p => s.setVf pkg fn { p with tdi := state % 4 } | none => s
    | .configure vf config =>
      if fn == 0 && (match s.vf pkg vf with | some p => p.tdi == 0 | none => true) then s.setVf pkg vf { tdi := 0, config := config } else s)

/-- FABRIC_DOMAIN_FORMATION: the packages of the domain, each with its number (R10, R294). A package has its number, the key of its state and its PKG, from reset, and forming the domain renumbers none (DESIGN CHOICE, log 115). -/
def execFabricDomainFormation (pkgs : List Nat) (s : State) : Out :=
  .next { s with domain := ((pkgs.filter (fun p => decide (p < 4096))).eraseDups).foldl (fun l p => insertNat p l) [] }

end Sys2Proof.Machine
end

