-- ==== Sys2Proof/Machine/Nest.lean ====
section
/-! DEFINITION. The loop nest (R188 to R195): the checks of its table, MGO, MABORT, and its fills, passes and drains. -/

namespace Sys2Proof.Machine

/-! ## The table (Table 8.7) -/

/-- The 28 words of the shadow table. -/
def Core.table (c : Core) : List W32 := (List.range 28).map (fun k => Tab.get c.nestTab k 0)

/-- Bits [lo + len − 1 : lo] of word k. -/
def tabBits (t : List W32) (k lo len : Nat) : Nat := word t k / 2 ^ lo % 2 ^ len

def tabElem (t : List W32) : Nat := tabBits t 0 12 2
def tabSparse (t : List W32) : Bool := tabBits t 0 14 1 == 1
def tabAcc (t : List W32) : Nat := tabBits t 0 15 1
def tabOfmt (t : List W32) : Nat := tabBits t 0 16 2
def tabOvf (t : List W32) : Bool := tabBits t 0 18 1 == 1
def tabAccm (t : List W32) : Bool := tabBits t 0 19 1 == 1
def tabNodrain (t : List W32) : Bool := tabBits t 0 20 1 == 1
def tabRc (t : List W32) : BitVec 3 := BitVec.ofNat 3 (tabBits t 0 21 3)

/-- KB, MBLK', MREM', NREM', KREM': zero replaced by what it means. -/
def tabKb (t : List W32) : Nat := if tabSparse t then 256 else 128
def tabMblk (t : List W32) : Nat := if tabBits t 1 0 7 = 0 then 128 else tabBits t 1 0 7
def tabMrem (t : List W32) : Nat := if tabBits t 1 8 7 = 0 then tabMblk t else tabBits t 1 8 7
def tabNrem (t : List W32) : Nat := if tabBits t 1 16 7 = 0 then 128 else tabBits t 1 16 7
def tabKrem (t : List W32) : Nat := if tabBits t 1 24 8 = 0 then tabKb t else tabBits t 1 24 8

def levels : List Nat := List.range 6
def levelCount (t : List W32) (l : Nat) : Nat := tabBits t (4 + 4 * l) 0 16
def levelRole (t : List W32) (l : Nat) : Nat := tabBits t (4 + 4 * l) 16 2
def levelUsed (t : List W32) (l : Nat) : Bool := levelCount t l != 0

/-- The used levels of a role, the lowest first. -/
def roleLevels (t : List W32) (role : Nat) : List Nat := levels.filter (fun l => levelUsed t l && levelRole t l == role)

/-- The count of a role's level, 1 where there is none. -/
def roleCount (t : List W32) (role : Nat) : Nat :=
  match roleLevels t role with
  | l :: _ => levelCount t l
  | [] => 1

/-- Indices at which a used level steps. -/
def tabStep (t : List W32) (word : Nat) (l : Nat) : Word := wordStep t (4 + 4 * l + word)

/-- The type codes of the A and B elements and of C (Table 6.4). -/
def elemCode (elem : Nat) : Nat := if elem = 0 then 12 else 0
def cCode (t : List W32) : Nat :=
  if tabElem t = 2 then 2
  else
    match tabOfmt t with
    | 0 => 8
    | 1 => 9
    | 2 => 10
    | _ => 12

/-- Offsets of the words that break a condition of R189; qa, qb, qc are the formats of the streams (DEDUCED, log 40). -/
def tableOffences (t : List W32) (qa qb qc : Nat) : List Nat :=
  let at_ (bad : Bool) (off : Nat) : List Nat := if bad then [off] else []
  let ks := roleLevels t 3
  let touchesC := tabAccm t || !tabNodrain t
  at_ (tabBits t 0 24 8 != 0 || tabElem t == 3 || (tabOvf t && tabOfmt t != 3) || qa != elemCode (tabElem t) ||
      qb != elemCode (tabElem t) || (touchesC && qc != cCode t) || decide (tabKb t < tabKrem t)) 0
    ++ at_ (tabBits t 1 7 1 != 0 || tabBits t 1 15 1 != 0 || tabBits t 1 23 1 != 0 || decide (tabMblk t < tabMrem t)) 4
    ++ at_ (word t 3 != 0) 12
    ++ at_ (ks.isEmpty) 16
    ++ levels.flatMap (fun l =>
        at_ (tabBits t (4 + 4 * l) 18 14 != 0
          || (!levelUsed t l && (levelRole t l != 0 || word t (5 + 4 * l) != 0 || word t (6 + 4 * l) != 0 || word t (7 + 4 * l) != 0))
          || ([1, 2, 3].any (fun r => decide (1 < (roleLevels t r).length) && (roleLevels t r).head? == some l))
          || ((levels.find? (fun j => levelUsed t j)) == some l && levelRole t l != 3 && !ks.isEmpty)) (16 + 16 * l))

/-- The first offending offset. -/
def tableFault (t : List W32) (qa qb qc : Nat) : Option Nat :=
  match tableOffences t qa qb qc with
  | [] => none
  | h :: r => some (r.foldl min h)

/-- The largest scale indexes that a nest reads of A and of B (R191). -/
def nestTopA (t qa : List W32) : Nat :=
  scaleIndex qa ((roleCount t 1 - 1) * tabMblk t + tabMrem t - 1) ((roleCount t 3 - 1) * tabKb t)
def nestTopB (t qb : List W32) : Nat := scaleIndex qb ((roleCount t 3 - 1) * tabKb t) ((roleCount t 2 - 1) * 128)

/-! ## A nest at work (R190) -/

/-- i[l] of the current tuple. -/
def Nest.index (x : Nest) (l : Nat) : Nat := x.idx.getD l 0

/-- The index of a role's level. -/
def Nest.roleIndex (x : Nest) (role : Nat) : Nat :=
  match roleLevels x.table role with
  | l :: _ => x.index l
  | [] => 0

/-- off(A), off(B), off(C) by word 1, 2, 3 of a level. -/
def Nest.off (x : Nest) (word : Nat) : Word :=
  levels.foldl (fun a l => if levelUsed x.table l then a + BitVec.ofNat 64 (x.index l) * tabStep x.table word l else a) 0

def Nest.lastOf (x : Nest) (role : Nat) : Bool := x.roleIndex role + 1 == roleCount x.table role
def Nest.rowsM (x : Nest) : Nat := if x.lastOf 1 then tabMrem x.table else tabMblk x.table
def Nest.cols (x : Nest) : Nat := if x.lastOf 2 then tabNrem x.table else 128
def Nest.klen (x : Nest) : Nat := if x.lastOf 3 then tabKrem x.table else tabKb x.table
def Nest.drains (x : Nest) : Bool := x.lastOf 3 && !tabNodrain x.table

/-- The events of a tuple: a pass for each row, then a drained row for each. -/
def Nest.turns (x : Nest) : Nat := if x.drains then 2 * x.rowsM else x.rowsM

/-- The tuple after this one, L0 fastest; none after the last. -/
def nextTuple (t : List W32) (idx : List Nat) (ls : List Nat) : Option (List Nat) :=
  match ls with
  | [] => none
  | l :: rest =>
    if idx.getD l 0 + 1 < levelCount t l then some (idx.set l (idx.getD l 0 + 1))
    else nextTuple t (idx.set l 0) rest

/-- The address of element (m, n) of C. -/
def cWidth (t : List W32) : Nat :=
  match cCode t with
  | 12 => 1
  | 9 => 2
  | 10 => 2
  | _ => 4
def Nest.cAddr (x : Nest) (m n : Nat) : Word :=
  streamBase x.qc + x.off 3 + BitVec.ofNat 64 m * streamPitch x.qc + BitVec.ofNat 64 (n * cWidth x.table)

/-- The address of row m of A's block. -/
def Nest.aAddr (x : Nest) (m : Nat) : Word := streamBase x.qa + x.off 1 + BitVec.ofNat 64 m * streamPitch x.qa

/-- The address of row k of B's block. -/
def Nest.bAddr (x : Nest) (k : Nat) : Word := streamBase x.qb + x.off 2 + BitVec.ofNat 64 k * streamPitch x.qb

/-- The bank rows of a tuple that can contribute: below klen, or in the sparse mode those whose group begins below klen, since an index of 0 puts their element there (R176, R190). -/
def Nest.bankRows (x : Nest) : Nat := min 128 (if tabSparse x.table then 2 * ((x.klen + 3) / 4) else x.klen)

/-- The address of a scale, where the stream is scaled. -/
def nestScale (q : List W32) (row col : Nat) : Option Word :=
  if streamScaled q then some (scaleAddr q (scaleIndex q row col)) else none
def Nest.aScale (x : Nest) (m : Nat) : Option Word :=
  nestScale x.qa (x.roleIndex 1 * tabMblk x.table + m) (x.roleIndex 3 * tabKb x.table)
def Nest.bScale (x : Nest) : Option Word := nestScale x.qb (x.roleIndex 3 * tabKb x.table) (x.roleIndex 2 * 128)

/-- The bank must be filled before this tuple's first pass. -/
def Nest.fills (x : Nest) : Bool := x.row == 0 && x.lastB != some (x.off 2)

/-- C is read before this tuple's first pass. -/
def Nest.readsC (x : Nest) : Bool := x.row == 0 && x.roleIndex 3 == 0 && tabAccm x.table

/-- A scale that the cache does not hold, which is read from memory (R191). -/
def missingScale (cache : List (Nat × W32)) (o : Option Word) : List Word :=
  o.toList.filter (fun va => !(cache.any (fun p => p.1 == va.toNat)))

/-- Tuples in the whole nest, as fuel. -/
def tupleCount (t : List W32) : Nat := levels.foldl (fun a l => a * max 1 (levelCount t l)) 1

/-- The tuples after this one that use the bank as it is filled now: those that follow with the same off(B) (R190). -/
def Nest.sharers (x : Nest) (fuel : Nat) : List Nest :=
  match fuel with
  | 0 => []
  | k + 1 =>
    match nextTuple x.table x.idx levels with
    | none => []
    | some idx => let y := { x with idx := idx }
      if y.off 2 = x.off 2 then y :: Nest.sharers y k else []

/-- The extents, in rows and columns, to which the bank that is filled now is used: by this tuple and by those that share it. -/
def Nest.extents (x : Nest) : List (Nat × Nat) := ((x :: x.sharers (tupleCount x.table)).map (fun y => (y.bankRows, y.cols))).eraseDups

/-- The columns of bank row k that some extent reaches. -/
def bankCols (l : List (Nat × Nat)) (k : Nat) : Nat := (l.map (fun p => if k < p.1 then p.2 else 0)).foldl max 0

/-- The accesses of the current event of the nest, with the scales that the scale cache holds. -/
def Nest.touches (x : Nest) (cache : List (Nat × W32)) : List Acc :=
  if x.row < x.rowsM then
    (if x.fills then
      (List.range 128).flatMap (fun k => accs Want.load 1 (units (x.bAddr k) 1 (bankCols x.extents k)))
        ++ accs Want.load 4 (missingScale cache x.bScale)
        ++ (if tabSparse x.table then accs Want.load 1 (units (x.bAddr 128) 1 4096) else [])
      else [])
    ++ (if x.readsC then
      (List.range x.rowsM).flatMap (fun m => accs Want.load (cWidth x.table) (units (x.cAddr m 0) (cWidth x.table) x.cols))
      else [])
    ++ accs Want.load 1 (units (x.aAddr x.row) 1 x.klen) ++ accs Want.load 4 (missingScale cache (x.aScale x.row))
  else chunkWrites Want.store (cWidth x.table) (x.cAddr (x.row - x.rowsM) 0) (cWidth x.table * x.cols)

/-- A scale as the nest has it: 1.0, a word of the scale cache, or the word in memory (R191). -/
def State.nestScaleWord (s : State) (n : Nat) (o : Option Word) : W32 :=
  match o with
  | none => 0x3F800000
  | some va =>
    match (s.core n).scales.find? (fun p => p.1 == va.toNat) with
    | some p => p.2
    | none => BitVec.ofNat 32 (s.load n va 4)

/-- The scale cache after a scale has been looked up: it keeps the newest 256, so a full one gives up the oldest (R13, R191, R252; DESIGN CHOICE, log 89). -/
def State.keepScale (s : State) (n : Nat) (o : Option Word) : State :=
  match o with
  | none => s
  | some va =>
    if (s.core n).scales.any (fun p => p.1 == va.toNat) then s
    else s.modCore n (fun c => { c with scales := (c.scales ++ [(va.toNat, s.nestScaleWord n o)]).drop (c.scales.length + 1 - 256) })

/-- The bank fill and the swap. Only elements that can contribute to a pass before the next fill are read; the others are 0. In the sparse mode the index bytes are read where CPYW reads them (DESIGN CHOICE, log 74). -/
def State.nestBank (s : State) (n : Nat) (x : Nest) : State :=
  let bk := (s.core n).mx.shadow
  let l := x.extents
  let t := (List.range 128).foldl (fun t k => t.fillBankRow n bk k (x.bAddr k) (bankCols l k)) s
  let t := (t.modCore n (fun c => c.setTile bk (t.nestScaleWord n x.bScale))).keepScale n x.bScale
  let t := if tabSparse x.table then t.fillBankIndex n bk (x.bAddr 128) else t
  t.modCore n (fun c => { c with mx := { c.mx with active := !c.mx.active } })

/-- A C value as the accumulator holds it: exact. -/
def cToAcc (code v : Nat) : Nat :=
  match code with
  | 9 => (Fmt.f32.round FpEnv.rne (Fmt.bf16.value v).exact).bits
  | 10 => (Fmt.f32.round FpEnv.rne (Fmt.f16.value v).exact).bits
  | 12 => (Fmt.f32.round FpEnv.rne (Fmt.e4m3.value v).exact).bits
  | _ => v

/-- The rows of an output block as they start: +0, or C, whose rows have only cols columns: the others stay as they are (DESIGN CHOICE, log 74). -/
def State.nestStart (s : State) (n : Nat) (x : Nest) : State :=
  let a := tabAcc x.table
  let w := cWidth x.table
  s.modCore n (fun c => (List.range x.rowsM).foldl (fun c m =>
    if tabAccm x.table then
      (List.range x.cols).foldl (fun c j =>
        c.setAcc a m j (BitVec.ofNat 32 (cToAcc (cCode x.table) (s.load n (x.cAddr m j) w)))) c
    else (List.range 128).foldl (fun c j => c.setAcc a m j 0) c) c)

/-- A slot filled from a row of A: elements below live, zero beyond; and its scale. -/
def State.nestSlot (s : State) (n slot : Nat) (row : Word) (live : Nat) (scale : Option Word) : State :=
  let v := s.nestScaleWord n scale
  (s.keepScale n scale).modCore n (fun c =>
    let elems := (List.range 128).foldl (fun t k =>
      Tab.put0 0 t (128 * slot + k) (if k < live then BitVec.ofNat 8 (s.load n (row + BitVec.ofNat 64 k) 1) else 0)) c.mx.elems
    { c with mx := { c.mx with elems := elems, scales := Tab.put0 0 c.mx.scales slot v } })

/-- The slots of a pass are filled: one, or two in the sparse mode. -/
def State.nestSlots (s : State) (n : Nat) (x : Nest) : State :=
  let row := x.aAddr x.row
  let t := s.nestSlot n x.slot row (min x.klen 128) (x.aScale x.row)
  if tabSparse x.table then t.nestSlot n ((x.slot + 1) % 64) (row + 128) (x.klen - 128) (x.aScale x.row) else t

/-- One event's pass: fills, the block's start, the pass, and its counts. A slot or a bank byte that another agent writes while the nest holds the array, which the pass may read as either value, reads as the nest filled it (R186; DESIGN CHOICE, log 103). -/
def State.nestPass (s : State) (n : Nat) (x : Nest) : State :=
  let t := if x.fills then s.nestBank n x else s
  let t := if x.row = 0 ∧ x.roleIndex 3 = 0 then t.nestStart n x else t
  let t := t.nestSlots n x
  let occ := if tabElem x.table = 0 then 4 else 8
  t.modCore n (fun c =>
    let c1 := c.pass (elemMode (tabElem x.table)) (tabSparse x.table) false x.slot (tabAcc x.table) x.row x.klen x.cols
    ((c1.addSteps x.rc occ).setSys 0x082 (c1.sysreg 0x082 + 1)).takeArray (tabElem x.table) (stretch x.rc))

/-- The format of C where it is floating. -/
def cFmt (code : Nat) : Fmt :=
  match code with
  | 9 => .bf16
  | 10 => .f16
  | 12 => .e4m3
  | _ => .f32

/-- A drained value and the MSTAT bits it sets (R190; DEDUCED, log 41 for ELEM 2; the value of a NaN there DESIGN CHOICE, log 74). -/
def nestDrain (t : List W32) (v : Nat) : Nat × Nat :=
  let sc := word t 2
  if tabElem t = 2 then
    let p := (exMul (sourceOf 2 false v) (Fmt.f32.value sc)).1
    let o := toIntType 2 32 0 p.exact
    (o.bits, if p.isNan then mstNan else if o.fl &&& flNV ≠ 0 then mstOf else 0)
  else
    let f := cFmt (cCode t)
    let o := drainValue false f FpEnv.rne (tabOfmt t == 3 && !tabOvf t) v sc
    (o.bits, (if o.bits = f.nan then mstNan else 0) ||| (if o.fl &&& flOF ≠ 0 then mstOf else 0))

/-- A row of C is written. -/
def State.nestDrainRow (s : State) (n : Nat) (x : Nest) : State :=
  let m := x.row - x.rowsM
  let outs := (List.range x.cols).map (fun j => (j, nestDrain x.table ((s.core n).accCell (tabAcc x.table) m j).toNat))
  let t := outs.foldl (fun t p => t.engineWrite n (x.cAddr m p.1) (cWidth x.table) (BitVec.ofNat 64 p.2.1))
    (s.healChunk n (x.cAddr m 0) (cWidth x.table * x.cols))
  t.modCore n (fun c => outs.foldl (fun c p => c.addMstat p.2.2) c)

/-- The nest has ended: its pushes are placed and its permit released (R193, R194). -/
def State.endNest (s : State) (n : Nat) (x : Nest) : State :=
  let s1 := (s.releasePermit n .ct .nest).withdrawAsk n .ct .nest
  s1.modCore n (fun c => ({ c with nest := none }).place .ct x.pushes)

/-- Replaces the nest. -/
def State.setNest (s : State) (n : Nat) (x : Nest) : State := s.modCore n (fun c => { c with nest := some x })

/-- The nest after the current event. A row of a sparse nest fills two slots, and the rotation moves on by two (R190; DESIGN CHOICE, log 117). -/
def State.advanceNest (s : State) (n : Nat) (x : Nest) : State :=
  let slots := if x.row < x.rowsM then (if tabSparse x.table then 2 else 1) else 0
  let y := { x with slot := (x.slot + slots) % 64, stalled := false, lastB := some (x.off 2) }
  if x.row + 1 < x.turns then s.setNest n { y with row := x.row + 1 }
  else
    match nextTuple x.table x.idx levels with
    | some idx => s.setNest n { y with row := 0, idx := idx }
    | none => s.endNest n y

/-- The next event of a live nest: a pause at its boundary (R193), whose request is made before the core and those after it arbitrate in a cycle (R352); or, for a pass once the array accepts it (R172, R185), its accesses judged and then its effect. CHUNK of its freeze entry is 0, since a nest has no chunks (R235; DESIGN CHOICE, log 89). -/
def State.runNest (s : State) (n : Nat) (x : Nest) : State :=
  if x.paused then s
  else if x.pausing then
    (if n < (s.quad (quadOf n)).turn then s
    else (s.reaskPermit n .ct .nest (classWeight x.rc)).setNest n { x with pausing := false, paused := true })
  else if decide (x.row < x.rowsM) && (s.core n).arrayBusy then s
  else
    let l := x.touches (s.core n).scales
    match s.judge n l with
    | .stalls k => if x.stalled then s else (s.modCore n (fun c => c.countStalls k)).setNest n { x with stalled := true }
    | .fault cause va => s.freezeCore n .ct .nest cause va x.pc 0
    | .allowed => (if x.row < x.rowsM then (s.noteAccs n l).nestPass n x else (s.noteAccs n l).nestDrainRow n x).advanceNest n x

/-- NEST_PASS: the live nest makes its next pass, or drains its next row (R190). -/
def execNestPass (node : Nat) (s : State) : Out :=
  .next (if (s.core node).live then
    match (s.core node).nest with
    | some x => s.runNest node x
    | none => s
  else s)

/-! ## MGO and MABORT -/

/-- The first of three streams that fails its own check, as UFADDR: QA before QB before QC, whatever their numbers (R223; DESIGN CHOICE, log 89). -/
def streamsFault (l : List (Nat × List W32)) : Option Word :=
  (l.filterMap (fun p => (streamFault p.2).map (streamAddr p.1))).head?

/-- MGO: checks, then a permit, then the nest is live, with CT's older writes in the table and the streams (R189, R191, R193, R223, R249). Its rotation starts at slot 0 (DESIGN CHOICE, log 74). The streams are checked after the table and before the scales, the scales of QA before those of QB, and it stalls while a reel holds the array as while a nest does (DESIGN CHOICE, log 89). -/
def execMgo (f : Fields) (s : State) : Out :=
  issued 0x610 f (fun s =>
    let c := (s.drainQueue s.node s.me).myCore
    let t := c.table
    let na := tabBits t 0 0 4
    let nb := tabBits t 0 4 4
    let nc := tabBits t 0 8 4
    let qa := c.stream na
    let qb := c.stream nb
    let qc := c.stream nc
    match tableFault t (streamFmt qa) (streamFmt qb) (streamFmt qc) with
    | some off => .trap 0x29 (BitVec.ofNat 64 off)
    | none =>
      match streamsFault [(na, qa), (nb, qb), (nc, qc)] with
      | some a => .trap 0x29 a
      | none =>
        if streamScaled qa && decide (word qa 7 ≤ nestTopA t qa) then .trap 0x28 (BitVec.ofNat 64 na)
        else if streamScaled qb && decide (word qb 7 ≤ nestTopB t qb) then .trap 0x28 (BitVec.ofNat 64 nb)
        else if c.arrayHeld then .stall s
        else
          s.withPermit .nest (classWeight (s.effRc s.node (tabRc t))) (fun s =>
            let s := s.drainQueue s.node s.me
            let x : Nest :=
              { table := t, qa := qa, qb := qb, qc := qc, idx := [0, 0, 0, 0, 0, 0], row := 0, slot := 0, lastB := none,
                rc := s.effRc s.node (tabRc t), paused := false, pausing := false, stalled := false, pc := s.mySeq.pc, pushes := pushList f.push }
            .done { st := s.modMyCore (fun c => { c.setSys 0x082 0 with nest := some x, scales := [] }), engine := true })) s

/-- MABORT: the live nest stops and MGO's pushes are placed; nothing without one (R194). -/
def execMabort (f : Fields) (s : State) : Out :=
  issued 0x620 f (fun s =>
    match s.myCore.nest with
    | none => done s
    | some x => done ((s.modMyCore (fun c => c.setSys 0x081 (c.sysreg 0x081 ||| 4))).endNest s.node x)) s

end Sys2Proof.Machine
end

