-- ==== Sys2Proof/Machine/Reel.lean ====
section
/-! DEFINITION. Reel mode (R196 to R213): REELON, REELOFF, CUEW, CUEDONE, CUEPOLL; the beats of a running reel, its cues and its end, by events. -/

namespace Sys2Proof.Machine

/-! ## Registers (Table 9.3) -/

def Core.reelBeat (c : Core) : Nat := (c.sysreg 0x0D0).toNat
/-- REELST.GEN. -/
def Core.reelGen (c : Core) : Nat := (c.sysreg 0x0D4).toNat / 256 % 256
/-- Sets a sticky bit of REELST. -/
def Core.reelSticky (c : Core) (bit : Nat) : Core := c.setSys 0x0D4 (c.sysreg 0x0D4 ||| BitVec.ofNat 64 (2 ^ bit))

/-- Array occupancy and latency of a pass, in delivered cycles (Table 8.5). -/
def Reel.occ (r : Reel) : Nat := (if r.elem = 0 then 4 else 8) * stretch r.rc
def Reel.latency (r : Reel) : Nat := (if r.elem = 0 then 10 else 14) * stretch r.rc

/-- The core number of a core in its package. -/
def localCore (n : Nat) : Nat := n % 1024

/-! ## Cues (R202 to R204, Table 9.4) -/

/-- A fill record and a drain record. -/
def fillRecord (b gen acc array : Nat) : Word :=
  BitVec.ofNat 64 (b % 2 ^ 24 * 2 ^ 40 + gen * 2 ^ 32 + acc * 2 ^ 23 + b % 128 * 2 ^ 16 + b % 64 * 2 ^ 10 + array)
def drainRecord (b cnt gen acc array : Nat) : Word :=
  BitVec.ofNat 64 (b % 2 ^ 24 * 2 ^ 40 + gen * 2 ^ 32 + 2 ^ 31 + (cnt - 1) * 2 ^ 24 + acc * 2 ^ 23 + b % 128 * 2 ^ 16 + array)

/-- Fields of a record. -/
def recordGen (w : Word) : Nat := w.toNat / 2 ^ 32 % 256
def recordDrain (w : Word) : Bool := w.getLsbD 31
def recordCnt (w : Word) : Nat := w.toNat / 2 ^ 24 % 128
def recordRow (w : Word) : Nat := w.toNat / 2 ^ 16 % 128
def recordSlot (w : Word) : Nat := w.toNat / 2 ^ 10 % 64
def recordArray (w : Word) : Nat := w.toNat % 1024

/-- The fill cue of beat b is due: it is to be made, beat b − LA has started, and the pass of beat b − 64 has read its slot (R202). -/
def Reel.cueDue (r : Reel) (beat b : Nat) : Bool :=
  !r.draining && (r.n == 0 || decide (b < r.n)) && decide (b < r.la + beat) && decide (b < 64 + r.read)

/-- The fill cues that become due now, in beat order; at most 64 at once. -/
def Reel.dueFills (r : Reel) (n gen beat : Nat) (fuel : Nat) : Reel :=
  match fuel with
  | 0 => r
  | k + 1 =>
    if r.cueDue beat r.cued then
      let target := globalCore n (r.feeders.getD (r.cued % r.feeders.length) 0)
      let cue : Cue := { record := fillRecord r.cued gen r.acc (localCore n), target := target }
      Reel.dueFills { r with cued := r.cued + 1, due := r.due ++ [cue] } n gen beat k
    else r

/-- The drain cue of rows first to first + cnt − 1 becomes due. -/
def Reel.dueDrain (r : Reel) (n gen first cnt : Nat) : Reel :=
  { r with due := r.due ++ [{ record := drainRecord first cnt gen r.acc (localCore n), target := globalCore n r.drain }] }

/-- A stopped reel with no pass left: the last group, if partial, is cued for drain (R209). -/
def Reel.close (r : Reel) (n gen : Nat) : Reel :=
  if r.draining && r.begun.isEmpty && !r.closed then
    let k := r.promoted % r.dg
    let r1 := if k = 0 then r else r.dueDrain n gen (r.promoted - k) k
    { r1 with closed := true }
  else r

/-- The reel starts no further beat, and sends no further fill cue (R208, R209, R210). -/
def Reel.stop (r : Reel) : Reel :=
  { r with draining := true, holding := false, due := r.due.filter (fun q => recordDrain q.record) }

/-- The reel is stored; pushes of a REELOFF whose passes have all been promoted are placed (R210). -/
def State.setReel (s : State) (n : Nat) (r : Reel) : State :=
  s.modCore n (fun c =>
    let r1 := r.close n c.reelGen
    if r1.closed then ({ c with reel := some { r1 with offPushes := [] } }).place .cp r1.offPushes
    else { c with reel := some r1 })

/-- Cues under way to a core, from whatever array core. -/
def State.cuesTo (s : State) (target : Nat) : Nat :=
  (s.cores.map (fun p => (p.2.cueWay.filter (fun q => q.target == target)).length)).foldl (· + ·) 0

/-- The target's cue queue has room for one more, beside those under way to it (R202); the queue is its context's (R203), so a cue to a core without a context is not sent, and the cues behind it wait (DESIGN CHOICE, log 97). -/
def State.cueRoom (s : State) (target : Nat) : Bool :=
  (s.core target).ctx.isSome && decide ((s.core target).cueq.length + s.cuesTo target < 16)

/-- The array sends the first cue of its sequence, if it is of this kind and has room; a suspended reel sends none (R202, R212). -/
def State.sendCue (s : State) (n : Nat) (drain : Bool) (r : Reel) : State :=
  match r.due with
  | [] => s
  | q :: rest =>
    if r.susp || recordDrain q.record != drain || !s.cueRoom q.target then s
    else
      s.modCore n (fun c =>
        let c1 := { c with reel := some { r with due := rest, out := r.out ++ [q] }, cueWay := c.cueWay ++ [q] }
        if drain then c1 else c1.setSys 0x0D1 (c1.sysreg 0x0D1 + 1))

/-- The array sends the cues that are due, in their sequence, as far as the first without room (R202). -/
def State.sendCues (s : State) (n fuel : Nat) : State :=
  match fuel with
  | 0 => s
  | k + 1 =>
    match (s.core n).reel with
    | none => s
    | some r =>
      match r.due with
      | [] => s
      | q :: _ => if r.susp || !s.cueRoom q.target then s else State.sendCues (s.sendCue n (recordDrain q.record) r) n k

/-- Runs an event of the reel of a core that receives cycles: a frozen core's stands where it is (R211). -/
def onReel (node : Nat) (s : State) (k : Core → Reel → State) : Out :=
  .next (if s.delivers node then
    match (s.core node).reel with
    | some r => k (s.core node) r
    | none => s
  else s)

/-- FILL_CUE_SEND (R202). -/
def execFillCueSend (node : Nat) (s : State) : Out := onReel node s (fun _ r => s.sendCue node false r)
/-- DRAIN_CUE_SEND (R204). -/
def execDrainCueSend (node : Nat) (s : State) : Out := onReel node s (fun _ r => s.sendCue node true r)

/-- CUE_DELIVER: the oldest cue that one array core has under way to this core enters its queue, while the core holds a context and the queue has room; which array core is open (R203). A cue under way as the target's context is saved stays with its array core, and goes to whatever context the core holds next (DESIGN CHOICE, log 104). -/
def execCueDeliver (node : Nat) (s : State) : Out :=
  .next (let from_ := (s.cores.filter (fun p => p.2.cueWay.any (fun q => q.target == node))).map (fun p => p.1)
    if from_.isEmpty || (s.core node).ctx.isNone || decide (16 ≤ (s.core node).cueq.length) then s
    else
      let a := s.pick from_
      match (s.core a).cueWay.find? (fun q => q.target == node) with
      | none => s
      | some q =>
        let s1 := s.modCore a (fun c => { c with cueWay := dropFirst (fun q => q.target == node) c.cueWay })
        (s1.modCore node (fun c => { c with cueq := c.cueq ++ [q.record] })).spend)

/-! ## Beats (R200, R208) -/

/-- The next beat is ready (R200). -/
def Core.beatReady (c : Core) (r : Reel) : Bool :=
  let b := c.reelBeat
  let swap := decide (0 < r.intv) && decide (0 < b) && decide (b % r.intv = 0)
  c.fill (b % 64) && !r.busy.contains (b % 128) && (!swap || (c.sysreg 0x0C9).getLsbD 0)

/-- The cycle is the nominal start of the next beat, or a check of the held one, of a reel that neither drains nor is suspended; every begun pass has read its slot (R200). -/
def Core.beatTime (c : Core) (r : Reel) : Bool :=
  !r.draining && !r.susp && r.begun.all (fun b => b.read) && c.cycle == r.next

/-- A beat starts: the swap, the pass, BEAT, and what follows from its start (R200, R202, R209). A swap beat exchanges the banks at once, also while a CPYW fills the shadow bank (DESIGN CHOICE, log 98). -/
def State.startBeat (s : State) (n : Nat) (c : Core) (r : Reel) : State :=
  let b := c.reelBeat
  let swap := decide (0 < r.intv) && decide (0 < b) && decide (b % r.intv = 0)
  let pass : Beat := { num := b, start := r.next, read := false, prior := [], pairs := [], sa := 0, sb := 0 }
  let r1 := { r with next := r.next + BitVec.ofNat 64 r.period, held := 0, holding := false, begun := r.begun ++ [pass], busy := (b % 128) :: r.busy }
  let r2 := r1.dueFills n c.reelGen (b + 1) 64
  let r3 := if r.n ≠ 0 ∧ b + 1 = r.n then r2.stop else r2
  let s1 := s.modCore n (fun c =>
    let c1 := if swap then { c with mx := { c.mx with active := !c.mx.active } }.setSys 0x0C9 (c.sysreg 0x0C9 &&& 0xFFFFFFFFFFFFFFFE) else c
    (c1.setSys 0x0D0 (c1.sysreg 0x0D0 + 1)).addSteps r.rc (if r.elem = 0 then 4 else 8))
  s1.setReel n r3

/-- BEAT_START: a ready beat starts at its nominal start; time makes it do so before the cycle ends (State.pass). -/
def execBeatStart (node : Nat) (s : State) : Out :=
  onReel node s (fun c r =>
    if c.beatTime r && !r.holding && !r.off && !r.suspending && c.beatReady r then s.startBeat node c r else s)

/-- FIRSTMISS names the first beat that missed. -/
def Core.noteMiss (c : Core) : Core :=
  if (c.sysreg 0x0D3).getLsbD 63 then c else c.setSys 0x0D3 (BitVec.ofNat 64 (2 ^ 63 + c.reelBeat % 2 ^ 63))

/-- CP has halted, or its HALT has issued: an abort raises no fault there (R208, R395). -/
def Core.cpDone (c : Core) : Bool := c.seqs.cp.run == .halted || c.seqs.cp.halting.isSome

/-- BEAT_MISS: a beat that is not ready at its nominal start is held, or stops the reel (R208). -/
def execBeatMiss (node : Nat) (s : State) : Out :=
  onReel node s (fun c r =>
    if c.beatTime r && !r.holding && !r.off && !r.suspending && !c.beatReady r then
      let t := s.modCore node Core.noteMiss
      if r.abortPolicy then
        (t.modCore node (fun c =>
          { c.reelSticky 3 with reelAbort := if c.cpDone then none else some c.reelBeat })).setReel node r.stop
      else t.setReel node { r with holding := true, held := 1, next := r.next + BitVec.ofNat 64 r.period }
    else s)

/-- HOLD_CHECK: a held beat starts, SLIP counting its periods, or waits for the next check (R208). -/
def execHoldCheck (node : Nat) (s : State) : Out :=
  onReel node s (fun c r =>
    if c.beatTime r && r.holding && !r.off && !r.suspending then
      if c.beatReady r then
        (s.startBeat node c r).modCore node (fun c => c.setSys 0x0D2 (c.sysreg 0x0D2 + BitVec.ofNat 64 r.held))
      else s.setReel node { r with held := r.held + 1, next := r.next + BitVec.ofNat 64 r.period }
    else s)

/-- The oldest begun pass that has not read its slot, replaced. -/
def markRead (l : List Beat) (f : Beat → Beat) : List Beat :=
  match l with
  | [] => []
  | b :: rest => if b.read then b :: markRead rest f else f b :: rest

/-- Byte k of a slot: an element, or a byte of its scale (Table 8.1). -/
def Core.slotByte (c : Core) (slot k : Nat) : Byte :=
  if k < 128 then Tab.get c.mx.elems (128 * slot + k) 0 else byteOf (Tab.get c.mx.scales slot 0) (k % 4)
def Core.setSlotByte (c : Core) (slot k : Nat) (b : Byte) : Core :=
  if k < 128 then { c with mx := { c.mx with elems := Tab.put0 0 c.mx.elems (128 * slot + k) b } }
  else { c with mx := { c.mx with scales := Tab.put0 0 c.mx.scales slot (setByte (Tab.get c.mx.scales slot 0) (k % 4) b) } }

/-- The slot as a pass reads it: each byte that a write reached during the pass is what it holds now or what it held before such a write, by a free value (R207; DESIGN CHOICE, log 28). -/
def Core.mixSlot (c : Core) (fresh slot : Nat) (prior : List (Nat × Byte)) : Core :=
  ((prior.map (fun p => p.1)).eraseDups).foldl (fun d k =>
    let l := c.slotByte slot k :: (prior.filter (fun p => p.1 == k)).map (fun p => p.2)
    d.setSlotByte slot k (l.getD ((Config.freeWord (fresh + k)).toNat % l.length) 0)) c

/-- What a pass has read: its slot and the active bank. -/
def Core.readBeat (c : Core) (r : Reel) (fresh : Nat) (b : Beat) : Beat :=
  let slot := b.num % 64
  let bk := bitNat c.mx.active
  let m := c.mixSlot fresh slot b.prior
  { b with read := true, prior := [], pairs := (List.range r.cols).map (fun j => m.densePairs bk slot r.klen j),
           sa := (Tab.get m.mx.scales slot 0).toNat, sb := (Tab.get c.mx.tile bk 0).toNat }

/-- Spends the free values of a slot that a write reached. -/
def State.spendBeat (s : State) (b : Beat) : State := if b.prior.isEmpty then s else { s with fresh := s.fresh + 132 }

/-- BEAT_SLOT_READ: at the end of its array occupancy the pass has read its slot and bank; FILL is cleared (R200). -/
def execBeatSlotRead (node : Nat) (s : State) : Out :=
  onReel node s (fun c r =>
    match r.begun.find? (fun b => !b.read) with
    | none => s
    | some b =>
      if c.cycle == b.start + BitVec.ofNat 64 r.occ then
        let r1 := { r with begun := markRead r.begun (c.readBeat r s.fresh), read := r.read + 1 }
        ((s.spendBeat b).modCore node (fun c => c.setFill (b.num % 64) false)).setReel node (r1.dueFills node c.reelGen c.reelBeat 64)
      else s)

/-- The promotion of a beat's pass into its row (R174, R175, R200). -/
def Core.promoteBeat (c : Core) (r : Reel) (b : Beat) : Core :=
  let row := b.num % 128
  let c0 := if r.clr then (List.range 128).foldl (fun c j => c.setAcc r.acc row j 0) c else c
  (b.pairs.zipIdx).foldl (fun c p =>
    let o := promote (elemMode r.elem) p.1 b.sa b.sb (c.accCell r.acc row p.2).toNat
    (c.setAcc r.acc row p.2 (BitVec.ofNat 32 o.1)).addMstat o.2) c0

/-- Beat b has been promoted; the drain cue of a group that it completes becomes due (R204). -/
def Reel.promotedTo (r : Reel) (n gen b : Nat) : Reel :=
  let r1 := { r with promoted := b + 1 }
  if (b + 1) % r.dg = 0 then r1.dueDrain n gen (b + 1 - r.dg) r.dg else r1

/-- REEL_PROMOTION: the oldest begun pass lands in its row; a complete group's drain cue becomes due (R200, R204). -/
def execReelPromotion (node : Nat) (s : State) : Out :=
  onReel node s (fun c r =>
    match r.begun with
    | [] => s
    | b :: rest =>
      if b.read && c.cycle == b.start + BitVec.ofNat 64 r.latency then
        (s.modCore node (fun c => c.promoteBeat r b)).setReel node ({ r with begun := rest }.promotedTo node c.reelGen b.num)
      else s)

/-! ## Ending and suspending (R209 to R212) -/

/-- REELOFF_EFFECT: at the next nominal start, or check of a held beat (R210). -/
def execReeloffEffect (node : Nat) (s : State) : Out :=
  onReel node s (fun c r => if r.off && c.beatTime r then s.setReel node r.stop else s)

/-- REEL_END: every drain cue is answered; the permit goes back, or the request for it (R209, R354). -/
def execReelEnd (node : Nat) (s : State) : Out :=
  onReel node s (fun _ r =>
    let waits := (r.due ++ r.out).any (fun q => recordDrain q.record)
    if r.closed && !waits then
      ((s.releasePermit node .cp .reel).withdrawAsk node .cp .reel).modCore node (fun c => ({ c with reel := none }).place .cp r.pushes)
    else s)

/-- REEL_SUSPEND: a pre-emption or a stopped CP suspends the reel at the next nominal beat start; a draining reel, which has none, drains on (R208, R209, R212). A held beat is suspended at its next check, and the periods that it has missed are dropped (DESIGN CHOICE, log 90). -/
def execReelSuspend (node : Nat) (s : State) : Out :=
  onReel node s (fun c r =>
    if r.suspending && !r.susp && !r.draining && c.cycle == r.next then
      s.modCore node (fun c => { c with reel := some { r with susp := true, holding := false, held := 0, next := c.paused.getD r.next } })
    else s)

/-- A suspended reel goes on at cycle t: its next beat, of this number, starts then, if its lead-in is over (R212). -/
def Reel.resume (r : Reel) (beat : Nat) (cycle : Word) : Reel :=
  { r with suspending := false, susp := false, next := if r.susp && (decide (0 < beat) || reached cycle r.next) then cycle else r.next }

/-- The reel of a core goes on in this cycle, unless CP is stopped, the core pre-empted, or its permit asked for again and not granted (R212, R354). -/
def State.resumeReel (s : State) (n : Nat) : State :=
  let c := s.core n
  if c.seqs.cp.run = .stopped ∨ c.paused.isSome ∨ (s.quad (quadOf n)).asks.any (fun p => p.node == n && p.holder == .reel && !p.waiting) then s
  else s.modCore n (fun c => { c with reel := c.reel.map (fun r => r.resume c.reelBeat c.cycle) })

/-- Every cue that is due and has room is sent (R202). -/
def sendDue (node : Nat) (s : State) : Out := onReel node s (fun _ r => s.sendCues node r.due.length)

/-- What the time that passes makes of a reel before a cycle ends: a pass reads its slot, a pass is promoted, then the next beat's moment is kept, cues that are due leave, and a reel with nothing left ends (R200, R202, R208 to R210, R212; DESIGN CHOICE, log 28). Of a suspension and a REELOFF due at one nominal start the suspension comes first (DESIGN CHOICE, log 105). -/
def reelMoves : List (Nat → State → Out) :=
  [execBeatSlotRead, execReelPromotion, execReelSuspend, execReeloffEffect, execBeatStart, execHoldCheck, execBeatMiss, sendDue, execReelEnd]

/-- Those moves of a core's reel, each in its turn. -/
def State.reelCycle (s : State) (n : Nat) : State :=
  reelMoves.foldl (fun s m => match m n s with | .next t => t | _ => s) s

/-- In this cycle a beat's moment comes that may abort the reel, and it is not over: CP's instruction of the cycle waits for it (R208). -/
def State.abortDue (s : State) (n : Nat) : Bool :=
  s.delivers n &&
    match (s.core n).reel with
    | some r => r.abortPolicy && !r.draining && !r.susp && (s.core n).cycle == r.next
    | none => false

/-- The state in which CP of a core moves: the reel's moves of the cycle come first where one may abort it (R208). -/
def State.reelJudged (s : State) (n : Nat) (q : SeqId) : State := if q = .cp ∧ s.abortDue n then s.reelCycle n else s

/-! ## Instructions -/

/-- The first register whose configuration is in error (R198). -/
def reelConfigFault (c : Core) (k : Nat) : Option Nat :=
  let elem := (c.sysreg 0x0C0).toNat % 4
  let dg := (c.sysreg 0x0C7).toNat % 256
  if elem = 3 then some 0x0C0
  else if (c.sysreg 0x0C1).toNat % 2 ^ 32 < (if elem = 0 then 4 else 8) * k then some 0x0C1
  else if !([1, 2, 4, 8, 16, 32, 64, 128].contains dg) then some 0x0C7
  else none

/-- F0 to F(NF) of REELFEED. -/
def reelFeeders (c : Core) : List Nat :=
  let v := (c.sysreg 0x0C5).toNat
  (List.range (v / 2 ^ 40 % 4 + 1)).map (fun i => v / 2 ^ (10 * i) % 1024)

/-- The latched configuration of a reel that starts now (R199). -/
def newReel (c : Core) (q : Seq) (rc : Nat) (pushes : List (SeqId × Nat)) : Reel :=
  let cfg := (c.sysreg 0x0C0).toNat
  let period := (c.sysreg 0x0C1).toNat % 2 ^ 32
  let la := (c.sysreg 0x0C2).toNat % 128
  { elem := cfg % 4, acc := cfg / 4 % 2, clr := cfg / 8 % 2 == 1, period := period, la := la, n := (c.sysreg 0x0C3).toNat,
    abortPolicy := (c.sysreg 0x0C4).getLsbD 0, feeders := reelFeeders c, drain := (c.sysreg 0x0C6).toNat % 1024,
    dg := (c.sysreg 0x0C7).toNat % 256, intv := (c.sysreg 0x0C8).toNat % 65536, klen := q.klen, cols := q.cols, rc := rc,
    next := c.cycle + BitVec.ofNat 64 (la * period), held := 0, holding := false, begun := [], read := 0, busy := [], cued := 0,
    due := [], out := [], promoted := 0, off := false, offPushes := [], draining := false, closed := false, suspending := false,
    susp := false, pc := q.pc, pushes := pushes }

/-- The reel registers as a reel starts: GEN one more, BEAT, HEAD, SLIP and FIRSTMISS clear, every FILL 0 (R199). -/
def Core.reelBegin (c : Core) : Core :=
  let gen := (c.reelGen + 1) % 256
  let c1 := ((((c.setSys 0x0D4 ((c.sysreg 0x0D4 &&& 0xFFFFFFFFFFFF00FF) ||| BitVec.ofNat 64 (256 * gen))).setSys 0x0D0 0).setSys 0x0D1 0).setSys
    0x0D2 0).setSys 0x0D3 0
  (List.range 64).foldl (fun c i => c.setFill i false) c1

/-- REELON: checks, the array, a permit, then the reel starts (R198, R199). Of several cores outside the placement UFADDR names the first of F0 to F(NF), and the drain after them (DESIGN CHOICE, log 118). -/
def execReelon (f : Fields) (s : State) : Out :=
  issued 0x700 f (fun s =>
    let c := (s.drainQueue s.node s.me).myCore
    let rc := s.effRc s.node f.rc
    match reelConfigFault c (stretch rc) with
    | some num => .trap 0x29 (BitVec.ofNat 64 num)
    | none =>
      match (reelFeeders c ++ [(c.sysreg 0x0C6).toNat % 1024]).find? (fun k => !c.placement.contains (globalCore s.node k)) with
      | some k => .trap 0x13 (BitVec.ofNat 64 k)
      | none =>
        if c.arrayHeld then .stall s
        else
          s.withPermit .reel (classWeight rc) (fun s =>
            let s := s.drainQueue s.node s.me
            let t := s.modMyCore Core.reelBegin
            let r := newReel c s.mySeq rc (pushList f.push)
            .done { st := t.setReel t.node (r.dueFills t.node t.myCore.reelGen 0 64), engine := true })) s

/-- REELOFF: the reel stops at its next nominal start; nothing without one (R210). -/
def execReeloff (f : Fields) (s : State) : Out :=
  issued 0x710 f (fun s =>
    match s.myCore.reel with
    | none => done s
    | some r =>
      if r.closed then done s
      else
        .done { st := s.modMyCore (fun c => { c with reel := some { r with off := true, offPushes := r.offPushes ++ pushList f.push } }),
                engine := true }) s

/-- The oldest record of the core's cue queue is taken. -/
def takeCue (s : State) (f : Fields) (w : Word) : Eff :=
  putReg (s.modMyCore (fun c => { c with cueq := c.cueq.drop 1 })) f.d w

/-- CUEW: waits for a record (kind 0x07) and takes it (R205). -/
def execCuew (f : Fields) (s : State) : Out :=
  issued 0x720 f (fun s =>
    match s.myCore.cueq with
    | [] => .wait 0x07 0
    | w :: _ => takeCue s f w) s

/-- CUEPOLL: a record, or all ones (R205). -/
def execCuepoll (f : Fields) (s : State) : Out :=
  issued 0x740 f (fun s =>
    match s.myCore.cueq with
    | [] => putReg s f.d 0xFFFFFFFFFFFFFFFF
    | w :: _ => takeCue s f w) s

/-- CUEDONE: CT's earlier writes are performed and the record goes back to its array core (R206). -/
def execCuedone (f : Fields) (s : State) : Out :=
  issued 0x730 f (fun s =>
    let w := s.sreg f.a
    let t := s.drainQueue s.node s.me
    done (t.modCore (globalCore s.node (recordArray w)) (fun c => { c with cueBack := c.cueBack ++ [{ record := w, target := s.node }] }))) s

/-- What a returned record does at the array core (R206). -/
def State.answerCue (s : State) (n : Nat) (q : Cue) : State :=
  let c := s.core n
  match c.reel with
  | none => s
  | some r =>
    let drain := recordDrain q.record
    if recordGen q.record ≠ c.reelGen ∨ (r.draining ∧ !drain) then s
    else if r.out.contains q then
      let r1 := { r with out := dropFirst (fun x => x == q) r.out }
      let row := recordRow q.record
      if drain then
        s.modCore n (fun c => { c with reel := some { r1 with busy := r1.busy.filter (fun k => !(decide (row ≤ k) && decide (k ≤ row + recordCnt q.record))) } })
      else s.modCore n (fun c => ({ c with reel := some r1 }).setFill (recordSlot q.record) true)
    else s.modCore n (fun c => c.reelSticky 4)

/-- In this cycle a beat has been judged not ready: what makes it ready arrives later (R200, R208). -/
def Core.missedNow (c : Core) : Bool :=
  match c.reel with
  | some r => (r.holding && r.next == c.cycle + BitVec.ofNat 64 r.period) || (r.draining && (c.sysreg 0x0D4).getLsbD 3 && r.next == c.cycle)
  | none => false

/-- CUEDONE_ARRIVE: the oldest record that one core has on its way back takes effect; which core is open, and none arrives any more in a cycle whose beat has been judged not ready (R200, R206; DESIGN CHOICE, log 28). -/
def execCuedoneArrive (node : Nat) (s : State) : Out :=
  .next (let c := s.core node
    let from_ := (c.cueBack.map (fun q => q.target)).eraseDups
    if c.ctx.isNone || from_.isEmpty || c.missedNow then s
    else
      let a := s.pick from_
      match c.cueBack.find? (fun q => q.target == a) with
      | none => s
      | some q =>
        ((s.modCore node (fun c => { c with cueBack := dropFirst (fun q => q.target == a) c.cueBack })).answerCue node q).spend)

end Sys2Proof.Machine
end

