-- ==== Sys2Proof/Machine/System.lean ====
section
/-! DEFINITION. The system class but for CSAVE and CREST (R311 to R325): TRAP, ERET, BRK, WFE, EVSIG, SYNCI, TLBI, MFP, MTP, YIELD; and the events by which instructions retire, accesses are performed, waits end and registers are written. -/

namespace Sys2Proof.Machine

/-! ## Traps and breakpoints (R313, R318, R319) -/

/-- A fault of TRAP or BRK that returns behind the instruction (R312). -/
def State.trapBehind (s : State) (f : Fields) (cause : Nat) : State :=
  (s.withdraw s.node s.me).faultAt s.node s.me cause (BitVec.ofNat 64 (f.x.toNat % 65536)) (s.mySeq.pc + instrLen f) false

/-- TRAP (R318). -/
def execTrap (f : Fields) (s : State) : Out := issued 0xC00 f (fun s => .whole (s.trapBehind f 0x38)) s

/-- A marked word of the instruction cache at the address to which a sequencer returns is dropped, so that it is refilled (R28). -/
def Core.dropMark (c : Core) (pc : Word) : Core :=
  match Tab.get c.icache pc.toNat (.bytes []) with
  | .marked _ _ _ => { c with icache := Tab.del c.icache pc.toNat }
  | .bytes _ => c

/-- ERET: cause 0x01 outside a handler (R313). -/
def execEret (f : Fields) (s : State) : Out :=
  issued 0xC10 f (fun s =>
    if s.mySeq.inh then
      .whole ((s.modMyCore (fun c => c.dropMark (s.mySeq.sysreg 0x00E))).modMe (fun q => (q.eret (f.x.getLsbD 0)).restart s.myCore.cycle))
    else .trap 0x01 0) s

/-- BRK: cause 0x39 in a context that is debugged, else 0x3A (R319). -/
def execBrk (f : Fields) (s : State) : Out :=
  issued 0xC20 f (fun s =>
    if (s.myCore.sysreg 0x298).getLsbD 0 then .whole (s.trapBehind f 0x39)
    else .trap 0x3A (BitVec.ofNat 64 (f.x.toNat % 65536))) s

/-- HARDWARE_BREAKPOINT: a matching breakpoint is taken before the next instruction of a running sequencer (R320). -/
def execHardwareBreakpoint (node : Nat) (seq : SeqId) (s : State) : Out :=
  .next (let t : State := { s with cur := (node, seq) }
    if t.idle then s
    else
      match t.breakpoint with
      | some i => { t.takeBreakpoint i with cur := s.cur }
      | none => s)

/-! ## Events (R321) -/

/-- WFE: ends at once where the latch is set or a notice is pending, and clears the latch; else waits (kind 0x0A). -/
def execWfe (f : Fields) (s : State) : Out :=
  issued 0xC30 f (fun s =>
    if s.mySeq.latch || s.myCore.notice.isSome then done (s.modMe (fun q => { q with latch := false })) else .wait 0x0A 0) s

/-- An event leaves for a sequencer; it arrives at once where nothing is kept in flight. -/
def State.sendEvent (s : State) (n : Nat) (q : SeqId) : State :=
  if s.hold then s.modCore n (fun c => { c with events := c.events ++ [q] }) else s.modSeq n q (fun v => { v with latch := true })

/-- EVSIG: an event for a sequencer of a core of the package, or for a die control core of the stack: a core of another package raises 0x13 for a kernel's context too (R19, R321; DEDUCED, log 88). Its operand's bits are judged first (R321; DESIGN CHOICE, log 86). UFADDR of a target out of reach is its 22-bit global identifier (R324; DESIGN CHOICE, log 109). -/
def execEvsig (f : Fields) (s : State) : Out :=
  issued 0xC31 f (fun s =>
    let v := (s.sreg f.a).toNat
    let n := s.node
    if v / 2 ^ 25 ≠ 0 then .trap 0x02 1
    else if v / 2 ^ 24 = 1 then
      if v % 2 ^ 24 / 2 ≠ 0 then .trap 0x02 1
      else if !s.privileged n then .trap 0x04 0
      else done (s.sendEvent (dccKey (stackOf n / 4) (stackOf n % 4) (v % 2)) .ld)
    else if !s.reaches n (v % 2 ^ 22) || pkgOf (v % 2 ^ 22) != pkgOf n then .trap 0x13 (BitVec.ofNat 64 (v % 2 ^ 22))
    else done (s.sendEvent (v % 2 ^ 22) (seqOfNum (v / 2 ^ 22 % 4)))) s

/-- EVENT_DELIVER: an event under way to a sequencer sets its latch. -/
def execEventDeliver (node : Nat) (seq : SeqId) (s : State) : Out :=
  .next (if (s.core node).events.contains seq then
    (s.modCore node (fun c => { c with events := dropFirst (fun q => q == seq) c.events })).modSeq node seq (fun v => { v with latch := true })
  else s)

/-! ## Instruction memory and translation (R322, R323) -/

/-- SYNCI: after the queue's accesses, the core's instruction cache holds nothing. -/
def execSynci (f : Fields) (s : State) : Out :=
  issued 0xC40 f (fun s =>
    s.release (fun t => done (t.modMyCore (fun c => { c with icache := [] })))) s

/-- An entry that TLBI of kind k keeps. -/
def TlbEntry.kept (t : TlbEntry) (k : Nat) (va : Word) (tag : Nat) : Bool :=
  match k with
  | 0 => !(t.covers tag va)
  | 1 => t.tag != tag
  | _ => false

/-- Every queued write of a package's cores is performed, but for those of a frozen core (R254). -/
def State.drainPackage (s : State) (pkg : Nat) : State :=
  (s.cores.map (fun p => p.1)).foldl (fun t n =>
    if pkgOf n = pkg ∧ (t.core n).freeze.isNone then allSeqs.foldl (fun t q => t.drainQueue n q) t else t) s

/-- A frozen core of the package still has writes queued that used a translation which is invalidated (R254, R323). -/
def State.heldWrites (s : State) (pkg k : Nat) (va : Word) (tag : Nat) : Bool :=
  s.cores.any (fun p => pkgOf p.1 == pkg && p.2.freeze.isSome && allSeqs.any (fun q => (p.2.seqs.get q).queue.any (fun st =>
    match st.via with
    | some e => !e.kept k va tag
    | none => false)))

/-- TLBI: in every TLB of the package, after the accesses that used an entry; it stalls while a frozen core holds such accesses back (R323). -/
def execTlbi (f : Fields) (s : State) : Out :=
  issued 0xC50 f (fun s =>
    let k := f.x.toNat % 4
    let tag := (s.sreg f.a).toNat % 65536
    let pkg := pkgOf s.node
    let keep (l : List TlbEntry) : List TlbEntry := l.filter (fun e => e.kept k (s.sreg f.d) tag)
    let t := s.drainPackage pkg
    if s.heldWrites pkg k (s.sreg f.d) tag then .stall s
    else done { t with
      cores := t.cores.map (fun p => if pkgOf p.1 = pkg then (p.1, { p.2 with tlb := keep p.2.tlb }) else p)
      bays := t.bays.map (fun p => if p.1 / 256 = pkg then (p.1, { p.2 with tlb := keep p.2.tlb }) else p) }) s

/-! ## SEQCTL (R316) -/

/-- A core thaws: its transfers and its nest go on at the chunk or pass that faulted (R236). -/
def State.thaw (s : State) (n : Nat) : State := s.modCore n (fun c => { c with freeze := none })

/-- RESUME, with XO where the instruction in XOINS comes first: a frozen core thaws, and a halted or stopped sequencer runs from SEQPC; with CP a suspended reel may go on (R98, R212, R316; DEDUCED, log 44). -/
def State.resumeSeq (s : State) (n : Nat) (q : SeqId) (skip xo : Bool) : State :=
  let t := if (s.core n).freeze.isSome then s.thaw n else s
  if (t.seq n q).run = .running then t
  else
    let pc := (t.seq n q).sysreg 0x280
    let u := (t.modCore n (fun c => c.dropMark pc)).modSeq n q (fun v =>
      { v.restart (t.core n).cycle with pc := pc, run := .running, halting := none, skipBp := skip, xo := xo })
    if q = .cp then u.resumeReel n else u

/-- An issued MFP or MTP is discarded: its pops come back, its places are released, and LATMISS no longer counts it (R66, R407). -/
def State.recall (s : State) (n : Nat) (q : SeqId) (r : RemoteReq) : State :=
  (s.modCore n (fun k => (k.giveBack q r.fields.pop).unreserve q (pushList r.fields.push))).modSeq n q (fun v =>
    if r.missed then v.setSys 0x009 (v.sysreg 0x009 - 1) else v)

/-- The request of a sequencer, if it has one under way, is discarded. -/
def State.recallAny (s : State) (n : Nat) (q : SeqId) : State :=
  match (s.seq n q).remote with
  | some r => s.recall n q r
  | none => s

/-- A boost lease is returned (Table 17.3). -/
def Core.returnLease (c : Core) : Core :=
  if c.lease.isSome then { c.setSys 0x306 (c.sysreg 0x306 &&& 0x17) with lease := none } else c

/-- KILL: the sequencer halts with nothing retired; what it waits for is withdrawn, a request under way discarded, its explicit permit released, and the context's boost lease returned (R82, R208, R316, R356, Table 17.3; DEDUCED, log 79). A reel that its stopped CP has suspended goes on, since CP no longer awaits the runtime (R212; DESIGN CHOICE, log 90). -/
def State.killSeq (s : State) (n : Nat) (q : SeqId) : State :=
  let t := (((s.recallAny n q).withdraw n q).dropExplicit n q).modSeq n q (fun v =>
    { v with run := .halted, halting := none, wait := none, mark := none, remote := none, xo := false })
  let u := t.modCore n (fun c => { c.returnLease with reelAbort := if q = .cp then none else c.reelAbort })
  if q = .cp then u.resumeReel n else u

/-- A write of SEQCTL. -/
def State.seqctl (s : State) (n : Nat) (q : SeqId) (v : Word) : State :=
  match v.toNat % 4 with
  | 1 => s.resumeSeq n q (v.getLsbD 2) (v.getLsbD 3)
  | 2 => s.killSeq n q
  | _ => s

/-- SEQCTL_RESUME (R316). -/
def execSeqctlResume (node : Nat) (seq : SeqId) (s : State) : Out := .next (s.resumeSeq node seq false false)
/-- SEQCTL_RESUME_XO (R316). -/
def execSeqctlResumeXo (node : Nat) (seq : SeqId) (s : State) : Out := .next (s.resumeSeq node seq false true)
/-- SEQCTL_KILL (R316). -/
def execSeqctlKill (node : Nat) (seq : SeqId) (s : State) : Out := .next (s.killSeq node seq)

/-! ## MFP and MTP (R324) -/

/-- The target is another context, and confidential (R381). -/
def State.sealed (s : State) (n : Nat) : Bool := n != s.node && (s.core n).confidential

/-- The checks of the target, and what follows at it. UFADDR of a target out of reach is its 22-bit global identifier (R324; DESIGN CHOICE, log 109). -/
def remoteChecked (s : State) (f : Fields) (k : Nat → SeqId → Eff) : Eff :=
  if (s.sreg f.a).toNat / 4096 ≠ 0 then .trap 0x02 1
  else if !s.reaches s.node (remoteNode s f) then .trap 0x13 (BitVec.ofNat 64 (remoteNode s f))
  else if s.sealed (remoteNode s f) then .trapOpen 0x11
  else k (remoteNode s f) (remoteSeq s f)

/-- The read of MFP, made at the target. -/
def serveRead (s : State) (f : Fields) : Eff :=
  remoteChecked s f (fun n q =>
    let num := f.x.toNat % 4096
    putReg (s.useFree (regIsFree n num)) f.d (s.readReg n q num))

/-- MTP may write: the target is halted or stopped, or it is SEQCTL of a frozen core (DEDUCED, log 44). -/
def State.mtpAllowed (s : State) (n : Nat) (q : SeqId) (num : Nat) : Bool :=
  (s.seq n q).run != .running || (num == 0x281 && (s.core n).freeze.isSome)

/-- The state check and the write of MTP, in one step at the target; the register written is what its latency is counted for (R99, R332). -/
def serveWrite (s : State) (f : Fields) : Eff :=
  remoteChecked s f (fun n q =>
    let num := f.x.toNat % 4096
    if !s.mtpAllowed n q num then .trap 0x02 1
    else .done { st := if num = 0x281 then s.seqctl n q (s.sreg f.d) else s.writeReg s.node n q num (s.sreg f.d),
                 wr := some (remoteUses s 0xC71 f) })

/-- MFP or MTP as an opcode. -/
def remoteCode (write : Bool) : Code := if write then 0xC71 else 0xC70

/-- The request leaves, and the instruction has issued: its tokens are popped and its places reserved in this cycle, and it ends with the answer (R90, R98, R324). -/
def State.sendRequest (s : State) (f : Fields) (write : Bool) : State :=
  let r : RemoteReq := { write := write, fields := f, missed := (s.miss (remoteCode write) f).isSome }
  (s.modMyCore (fun k => (k.popAll s.me f.pop).reserve s.me (pushList f.push))).modMe (fun q =>
    { q.issuedAt s.myCore.cycle 1 with wait := none, remote := some r })

/-- The request leaves, or is served at once where nothing is kept in flight. -/
def remoteIssue (s : State) (f : Fields) (write : Bool) (serve : State → Fields → Eff) : Eff :=
  if s.hold then remoteChecked s f (fun _ _ => .whole (s.sendRequest f write)) else serve s f

/-- The answer of the current sequencer's request: the instruction ends, its pops taken and its issue cycle noted as it issued; or it is discarded, and takes the fault (R91, R98, R324, R407). -/
def State.answer (s : State) (r : RemoteReq) (e : Eff) : State :=
  match e with
  | .done d =>
    let own := d.st.modMyCore (fun k => k.unreserve s.me (pushList r.fields.push))
    (s.commit (remoteCode r.write) { r.fields with pop := 0 } { d with st := own }).modMe (fun q => { q with last := s.mySeq.last })
  | .trap cause ufaddr => (s.recall s.node s.me r).takeFault cause ufaddr
  | .trapOpen cause => (s.recall s.node s.me r).spend.takeFault cause (Config.freeWord s.fresh)
  | _ => s

/-- MFP. -/
def execMfp (f : Fields) (s : State) : Out := issued 0xC70 f (fun s => remoteIssue s f false serveRead) s
/-- MTP. -/
def execMtp (f : Fields) (s : State) : Out := issued 0xC71 f (fun s => remoteIssue s f true serveWrite) s

/-- REMOTE_REQUEST_ARRIVE: the request of MFP or MTP is served, and the instruction ends. -/
def execRemoteRequestArrive (node : Nat) (seq : SeqId) (s : State) : Out :=
  .next (match (s.seq node seq).remote with
    | none => s
    | some r =>
      if (s.core node).freeze.isSome || !(s.pkg (pkgOf node)).runs then s
      else
      let t : State := { s.modSeq node seq (fun q => { q with remote := none }) with cur := (node, seq) }
      { t.answer r (t.runBody (remoteCode r.write) r.fields (fun s => if r.write then serveWrite s r.fields else serveRead s r.fields)) with cur := s.cur })

/-! ## Pre-emption notices (R325) -/

/-- YIELD: where a notice is pending, issue stops in the next cycle; else nothing. -/
def execYield (f : Fields) (s : State) : Out :=
  issued 0xC80 f (fun s => done (if s.myCore.notice.isSome then
    s.modMyCore (fun c => { c with notice := c.notice.map (fun k => { k with yielded := true }) }) else s)) s

/-! ## Retiring, performing, waiting -/

/-- A flight retires: its results land, its pushes are placed, its steps are counted (R91, R128). -/
def Core.retire (c : Core) (q : SeqId) (x : Flight) : Core :=
  let c1 := ((x.lands.foldl Core.land c).place q x.pushes).addSteps x.rc x.occ
  c1.setSeq q { c1.seqs.get q with flights := dropFirst (fun y => y.tag == x.tag) (c1.seqs.get q).flights }

/-- INSTRUCTION_RETIRE: a flight whose writes are performed and whose results are due retires (R91). -/
def execInstructionRetire (node : Nat) (seq : SeqId) (tag : Nat) (s : State) : Out :=
  .next (let c := s.core node
    let q := s.seq node seq
    match q.flights.find? (fun x => x.tag == tag) with
    | none => s
    | some x =>
      if c.freeze.isSome || q.queue.any (fun st => st.tag == tag) || ((!x.lands.isEmpty || x.timed) && !reached c.cycle x.due) then s
      else s.modCore node (fun c => c.retire seq x))

/-- The writes that a path class may perform next: those of its oldest instruction in any order, but none before an older one to the same bytes (R227, R242). -/
def nextStores (l : List Store) : List Store :=
  match l with
  | [] => []
  | h :: _ =>
    let mine := l.filter (fun st => st.tag == h.tag)
    (mine.zipIdx).filterMap (fun p =>
      if (mine.take p.2).any (fun st => decide (st.addr < p.1.addr + p.1.size) && decide (p.1.addr < st.addr + st.size)) then none else some p.1)

/-- ACCESS_PERFORM: a queued write of the oldest instruction of a path class is performed, which one is open; none on a frozen core, none into a range that a PHASE drain moves (R227, R239, R242, R254). -/
def execAccessPerform (node : Nat) (seq : SeqId) (path : Nat) (s : State) : Out :=
  .next (let p : Path := if path = 0 then .vertical else .horizontal
    let l := nextStores ((s.seq node seq).queue.filter (fun st => st.path == p))
    match l[(Config.freeWord s.fresh).toNat % max l.length 1]? with
    | none => s
    | some st =>
      if (s.core node).freeze.isSome || s.drainHit st.addr then s
      else ((s.modSeq node seq (fun q => { q with queue := q.queue.erase st })).performStore st).useFree (decide (1 < l.length)))

/-- A TLB with one more entry, the newest: 96 in a core's, 4,096 in a bay's (R221). -/
def addTlb (l : List TlbEntry) (e : TlbEntry) (size : Nat) : List TlbEntry :=
  let k := l.filter (fun x => x != e)
  (k ++ [e]).drop (k.length + 1 - size)

/-- What the walk for an address reads of the tables is corrected (R378). -/
def State.noteWalk (s : State) (n : Nat) (va : Word) : State := (s.tablesRead n [va]).foldl State.correct s

/-- PAGE_WALK: an address that no entry of a core's TLB covers is translated, and the core and its bay keep the translation; one that ends in a bad physical address is not kept (R215, R221). What it reads of the tables is corrected and counted (R378). -/
def execPageWalk (node : Nat) (va : Word) (s : State) : Out :=
  .next (let c := s.core node
    if va.toNat / 2 ^ 55 ≠ 0 ∨ c.ctx.isNone ∨ c.tlb.any (fun t => t.covers c.ctxTag va) then s
    else
      let s := s.noteWalk node va
      match s.xlate node va with
      | none => s
      | some x =>
        if s.place (x.addr va) = .bad then s
        else
        let e : TlbEntry := { tag := c.ctxTag, vpage := va.toNat / 2 ^ x.shift, ppage := x.base / 2 ^ x.shift, perm := x.perm, level := x.shift }
        let t := s.modCore node (fun c => { c with tlb := addTlb c.tlb e 96 })
        if isDcc node then t
        else t.setBay (bayOf node) { t.bay (bayOf node) with tlb := addTlb (t.bay (bayOf node)).tlb e 4096 })

/-- The instruction cache holds 2,048 words (R13): a full one gives up a word, which is open. -/
def Core.cacheWord (c : Core) (fresh : Nat) (pc : Word) (w : Cached) : Core :=
  let t := if c.icache.length < 2048 ∨ Tab.has c.icache pc.toNat then c.icache
    else c.icache.eraseIdx ((Config.freeWord fresh).toNat % c.icache.length)
  { c with icache := Tab.put t pc.toNat w }

/-- ICACHE_FILL: the word at an address is decoded, expanded and kept; a fill that meets a PHASE drain stalls (R28, R233). -/
def execIcacheFill (node : Nat) (pc : Word) (s : State) : Out :=
  .next (if (s.core node).ctx.isNone ∨ pc.getLsbD 0 ∨ s.fetchDrained node pc then s
    else ((s.noteFetched node pc).modCore node (fun c => c.cacheWord s.fresh pc (s.fill node pc))).spend)

/-- A HALT with nothing left before it takes effect (R82). -/
def State.endHalt (s : State) (n : Nat) (q : SeqId) : State :=
  let t : State := { s with cur := (n, q), hold := false }
  match t.mySeq.halting with
  | none => s
  | some f => if t.allRetired then { t.commit 0x001 f { st := t.haltMe } with cur := s.cur, hold := s.hold } else s

/-! ## Register writes -/

/-- FQHEAD_WRITE (R315). -/
def execFqheadWrite (node : Nat) (value : Word) (s : State) : Out := .next (s.writeFqHead (stackOf node) value)

/-- FQ_RESET_WRITE: a write of FQBASE or FQCFG (R315). -/
def execFqResetWrite (node : Nat) (num : Nat) (value : Word) (s : State) : Out :=
  .next (if num = 0x2B0 ∨ num = 0x2B1 then s.writeFqSetup node (stackOf node) num value else s)

/-- RNGCFG_WRITE (R280). -/
def execRngcfgWrite (node : Nat) (seq : SeqId) (value : Word) (s : State) : Out := .next (s.writeReg node node seq 0x203 value)
/-- BUFCFG_WRITE (R281). -/
def execBufcfgWrite (node : Nat) (seq : SeqId) (value : Word) (s : State) : Out := .next (s.writeReg node node seq 0x20A value)

/-- Registers whose write has an event of its own. -/
def ownEvent (num : Nat) : Bool := [0x203, 0x20A, 0x281, 0x2B0, 0x2B1, 0x2B2].contains num

/-- SYSREG_WRITE (R86). -/
def execSysregWrite (node : Nat) (seq : SeqId) (num : Nat) (value : Word) (s : State) : Out :=
  .next (if ownEvent num then s else s.writeReg node node seq num value)

end Sys2Proof.Machine
end

