-- ==== Sys2Proof/Machine/Save.lean ====
section
/-! DEFINITION. Pre-emption (R326 to R330, R354): CSAVE, the save area of a core, CREST, and the landing of restored results. -/

namespace Sys2Proof.Machine

/-! ## The stop (R326, R354) -/

/-- The snapshot entries of an instruction in flight: one for each result; the last carries its pushes and its RSTEP occupancy (R327). -/
def Flight.entries (x : Flight) : List Flight :=
  (x.lands.zipIdx).map (fun p =>
    let last := p.2 + 1 = x.lands.length
    { x with lands := [p.1], pushes := if last then x.pushes else [], occ := if last then x.occ else 0 })

/-- What the snapshot buffer holds: the restored entries that are left, those too whose results an instruction has already needed, and an entry for each result in flight (R327). -/
def snapEntries (c : Core) : List Flight :=
  c.snap.flatMap (fun x => if x.lands.isEmpty then [x] else x.entries) ++ c.seqs.cp.flights.flatMap Flight.entries

/-- A sequencer at the stop: a waiting instruction has not issued; one that has issued, a HALT or a request under way among them, is left issued (R326). -/
def Seq.atStop (q : Seq) : Seq := { q with wait := none }

/-- Issue stops on a core in this cycle, c_s: results of CP in flight are caught in the snapshot buffer, waiting instructions give up, a collective that all have joined is combined, and the reel is to be suspended (R212, R305, R326). -/
def State.stopIssue (s : State) (n : Nat) : State :=
  let t := allSeqs.foldl (fun t q => (t.withdraw n q).modSeq n q Seq.atStop) (s.combineAtStop n)
  t.modCore n (fun c =>
    { c.setSeq .cp { c.seqs.cp with flights := c.seqs.cp.flights.filter (fun x => x.lands.isEmpty) } with
      snap := snapEntries c, paused := some c.cycle, reel := c.reel.map (fun r => { r with suspending := true }) })

/-- PREEMPT_GRACE_END: the grace is over, or a YIELD has retired in an earlier cycle: issue stops (R325). -/
def execPreemptGraceEnd (node : Nat) (s : State) : Out :=
  .next (let c := s.core node
    match c.notice with
    | none => s
    | some _ => if c.graceOver && c.paused.isNone then s.stopIssue node else s)

/-- A pass that a reel has begun is read, if it has not been, and promoted. -/
def State.finishBeat (s : State) (n : Nat) (b : Beat) : State :=
  match (s.core n).reel with
  | none => s
  | some r =>
    let c := s.core n
    let b1 := if b.read then b else c.readBeat r s.fresh b
    (s.spendBeat b).modCore n (fun c =>
      { (if b.read then c else c.setFill (b.num % 64) false).promoteBeat r b1 with reel := some (r.promotedTo n c.reelGen b.num) })

/-- The reel of a core is on its way to a suspension: to the next nominal start, or, of a draining reel, to the promotion of its last pass; a frozen core's stands (R211, R212; DESIGN CHOICE, log 90). -/
def Core.reelRuns (c : Core) : Bool :=
  c.freeze.isNone && match c.reel with
    | some r => !r.susp && !(r.draining && r.begun.isEmpty)
    | none => false

/-- The reel of a core that is pre-empted: every begun pass is promoted, the drain cues of complete groups become due, and it is suspended; a held beat stands at its nominal start again (R212). -/
def State.suspendReel (s : State) (n : Nat) : State :=
  match (s.core n).reel with
  | none => s
  | some r =>
    let t := r.begun.foldl (fun t b => t.finishBeat n b) s
    let c := t.core n
    match c.reel with
    | none => t
    | some u =>
      let start := if u.holding then u.next - BitVec.ofNat 64 (u.held * u.period) else u.next
      t.setReel n ({ u with begun := [], read := c.reelBeat, holding := false, held := 0, next := start, suspending := true, susp := true }.dueFills
        n c.reelGen c.reelBeat 64)

/-- Flights whose results have landed, or that have none, retire at the stop. -/
def Core.retireLanded (c : Core) (q : SeqId) : Core :=
  ((c.seqs.get q).flights.filter (fun x => x.lands.isEmpty)).foldl (fun c x => c.retire q x) c

/-- The requests of MFP and MTP that a core has under way are served before its context is saved, so that their results are written (R326). -/
def State.serveRequests (s : State) (n : Nat) : State :=
  if allSeqs.any (fun q => (s.seq n q).remote.isSome) then
    { allSeqs.foldl (fun t q => match execRemoteRequestArrive n q t with | .next u => u | _ => t) { s with hold := false } with hold := s.hold }
  else s

/-- A core as its context leaves it: requests served, accesses performed, engines stopped at their boundaries, results in the snapshot, a HALT with nothing left before it done, permits given back, a boost lease suspended with the time left. A notice stays pending only in a save at once: one whose grace or YIELD has stopped issue has had its effect (R325, R330; DESIGN CHOICE, log 110). -/
def State.stopCore (s : State) (n : Nat) (keepNotice : Bool) : State :=
  let t := if (s.core n).paused.isSome then s else s.stopIssue n
  let t := t.serveRequests n
  let t := allSeqs.foldl (fun t q => (t.drainQueue n q).modSeq n q (fun v => { v with notice := v.notice && keepNotice })) t
  let t := t.suspendReel n
  let lease := t.leasest n
  let t := t.modCore n (fun c =>
    let c1 := allSeqs.foldl Core.retireLanded c
    { c1.setSys 0x306 lease with notice := if keepNotice then c1.notice else none, lease := none })
  let qd := t.quad (quadOf n)
  let t := (t.setQuad (quadOf n) { qd.dropAsks (fun p => p.node == n) with grants := qd.grants.filter (fun p => p.node != n) }).notePermits
    (qd.grants.filter (fun p => p.node == n)) .release
  let t := allSeqs.foldl (fun t q => if (t.seq n q).holdsPermit then t.modSeq n q (fun v => v.clearHold true) else t) t
  if (s.core n).freeze.isSome then t else allSeqs.foldl (fun t q => t.endHalt n q) t

/-! ## The save area (Table 15.8) -/

/-- Offsets of the words of a run of 8-byte words. -/
def wordOffsets (base cnt : Nat) : List Nat := (List.range cnt).map (fun i => base + 8 * i)

/-- Two 32-bit words as one. -/
def pairWord (lo hi : W32) : Word := lo.setWidth 64 ||| (hi.setWidth 64 <<< 32)

/-- Eight bytes, the lowest first, as a word. -/
def bytesWord (l : List Nat) : Word := BitVec.ofNat 64 ((l.zipIdx).foldl (fun v p => v + p.1 % 256 * 256 ^ p.2) 0)

/-- The word at an offset of a window of a core. -/
def State.windowWord (s : State) (n w off : Nat) : Word :=
  bytesWord ((List.range 8).map (fun i => (s.windowByte n w (off + i)).toNat))

/-- Sequencer-held registers with a place in SEQREG, and that place. -/
def seqRegPlaces : List (Nat × Nat) :=
  ((List.range 64).filter (fun k => match regInfo k with | some r => r.home == .seq | none => false)).map (fun k => (k, 8 * k))
    ++ [(0x060, 0x200), (0x061, 0x208), (0x200, 0x210), (0x201, 0x218), (0x208, 0x220)]

/-- Weight bank bk in the layout of window 0x04. -/
def Core.bankByte (c : Core) (bk off : Nat) : Nat :=
  if off < 0x4000 then (Tab.get c.mx.bank (16384 * bk + off) 0).toNat
  else if off < 0x4004 then (byteOf (Tab.get c.mx.tile bk 0) (off % 4)).toNat
  else if 0x4100 ≤ off ∧ off < 0x5100 then (Tab.get c.mx.index (4096 * bk + (off - 0x4100)) 0).toNat
  else 0

/-- The bytes of a scope entry's map in M bytes. -/
def scopeStride (p : Nat) : Nat := ((p + 7) / 8 + 63) / 64 * 64
def scopeByte (l : List Nat) (k : Nat) : Nat := (List.range 8).foldl (fun v i => v + 2 ^ i * bitNat (l.contains (8 * k + i))) 0

/-- A sequencer's resume PC: SEQPC for one that a resume starts there, a stopped or a halted one (R316). -/
def Seq.resumePc (q : Seq) : Word := if q.run = .running then q.pc else q.sysreg 0x280

/-- c_s of a core that is saved: the cycle at which its issue stopped (R326). -/
def Core.stopped (c : Core) : Word := c.paused.getD c.cycle

/-- The header (Table 15.9). -/
def headerWords (n : Nat) (c : Core) (code : Bool) : List (Nat × Word) :=
  let lcore := match c.ctx with | some x => x.lcore | none => 0
  let flags := bitNat code + 2 * bitNat c.freeze.isSome + 4 * bitNat c.nest.isSome + 8 * bitNat c.reel.isSome + 16 * bitNat c.notice.isSome
  let zeros := wordOffsets 0x58 21
  [(0x00, 1), (0x08, BitVec.ofNat 64 flags), (0x10, c.stopped), (0x18, BitVec.ofNat 64 c.snap.length),
   (0x20, BitVec.ofNat 64 (lcore % 2 ^ 23 + c.placement.length % 2 ^ 23 * 2 ^ 32)), (0x28, BitVec.ofNat 64 n),
   (0x30, c.seqs.ld.resumePc), (0x38, c.seqs.cp.resumePc), (0x40, c.seqs.st.resumePc), (0x48, c.seqs.ct.resumePc),
   (0x50, bytesWord (allSeqs.map (fun q => runNum (c.seqs.get q).run)))] ++ zeros.map (fun o => (o, 0))

/-- PRESTAT of a core that is saved, at c_s. -/
def Core.savedPrestat (c : Core) : Word := ({ c with cycle := c.stopped } : Core).prestat

/-- A word of CREG: a core-held register as the context saves it; CYCLE is c_s, PRESTAT that of c_s, and RSTEP without what results in flight still add (R327, R330). -/
def State.cregWord (s : State) (n k : Nat) : Word :=
  let c := s.core n
  if k = 0x00A then c.stopped
  else if k = 0x01B then c.savedPrestat
  else if 0x048 ≤ k ∧ k < 0x050 then c.sysreg k
  else s.windowWord n 11 (8 * k)

/-- The unmatched SMARK of a sequencer as a number: 0, or its X and 1. -/
def Seq.markNum (q : Seq) : Nat := match q.mark with | some f => f.x.toNat + 1 | none => 0

/-- The words of the area whose layout the spec gives, by offset. -/
def State.areaWords (s : State) (n : Nat) (code : Bool) : List (Nat × Word) :=
  let c := s.core n
  let win (base w size : Nat) : List (Nat × Word) := (wordOffsets 0 (size / 8)).map (fun o => (base + o, s.windowWord n w o))
  headerWords n c code
    ++ allSeqs.flatMap (fun q => (List.range 32).map (fun k =>
        (0x100 + 256 * seqNum q + 8 * k, (c.seqs.get q).reg (BitVec.ofNat 5 k))))
    ++ allSeqs.flatMap (fun q => seqRegPlaces.map (fun p => (0x500 + 0x300 * seqNum q + p.2, s.readSeqReg n q p.1)))
    ++ (List.range 4).map (fun i =>
        (0x1100 + 8 * i, bytesWord ((List.range 4).flatMap (fun j => [c.tokens (4 * i + j), c.reserved (4 * i + j)]))))
    ++ (List.range 4).map (fun i => (0x1140 + 8 * i, Config.markWord (allSeqs.map (fun q => (c.seqs.get q).markNum)) i))
    ++ (List.range 16).map (fun k => (0x1200 + 8 * k, pairWord (Tab.get c.flags (2 * k) 0) (Tab.get c.flags (2 * k + 1) 0)))
    ++ (List.range 64).map (fun k => (0x1280 + 8 * k, pairWord (Tab.get c.grids (2 * k) 0) (Tab.get c.grids (2 * k + 1) 0)))
    ++ (List.range 14).map (fun k => (0x1480 + 8 * k, pairWord (Tab.get c.nestTab (2 * k) 0) (Tab.get c.nestTab (2 * k + 1) 0)))
    ++ (List.range 0x400).map (fun k => (0x3000 + 8 * k, s.cregWord n k))
    ++ (c.snap.zipIdx).flatMap (fun p => p.1.lands.flatMap (fun l => l.lanes.map (fun v => (0x5000 + 0x480 * p.2 + 0x40 + 8 * v.1, lowBits l.width v.2))))
    ++ win 0xE000 3 0x4000
    ++ [0, 1].flatMap (fun bk => (wordOffsets 0 0xA20).map (fun o =>
        ((if bk = 0 then 0x12000 else 0x18000) + o, bytesWord ((List.range 8).map (fun i => c.bankByte bk (o + i))))))
    ++ win 0x1E000 1 0x10000 ++ win 0x2E000 2 0x10000 ++ win 0x3E000 0 0x10000
    ++ (wordOffsets 0 (2 * c.neg.length)).map (fun o => (0x4E000 + o, s.windowWord n 10 o))
    ++ (List.range 26).flatMap (fun e =>
        let m := scopeStride c.placement.length
        let l := Tab.get c.scopes (6 + e) (List.range c.placement.length)
        (wordOffsets 0 (m / 8)).map (fun o => (0x5E000 + m * e + o, bytesWord ((List.range 8).map (fun i => scopeByte l (o + i))))))
    ++ (if code then (wordOffsets 0 0x4000).map (fun o => (0x5E000 + 26 * scopeStride c.placement.length + o, s.windowWord n 5 o)) else [])

/-- Where Table 15.8 names a content and gives no layout: the engines' state, the heads of the snapshot entries. -/
def openOffsets : List Nat :=
  wordOffsets 0x1500 864 ++ (List.range 32).flatMap (fun e => wordOffsets (0x5000 + 0x480 * e) 8)

/-- The bytes that stand for engine state; by them CREST knows what it restores (DESIGN CHOICE, log 45). -/
def engineOffsets : List Nat := wordOffsets 0x1500 864

/-- Free words for the offsets without layout. -/
def openWords (fresh : Nat) : List (Nat × Word) := (openOffsets.zipIdx).map (fun p => (p.1, Config.freeWord (fresh + p.2)))

/-- The 8-byte words as bytes. -/
def wordBytes (l : List Word) : List Byte := l.flatMap (fun w => (List.range 8).map (valByte w))

/-- The accesses of a run of words at an area. -/
def areaAccs (want : Want) (area : Word) (offs : List Nat) : List Acc :=
  accs want 8 (offs.map (fun o => area + BitVec.ofNat 64 o))

/-! ## CSAVE (R325, R328) -/

/-- A core without a context, after a save: what belongs to the core and not to the context stays. -/
def Core.vacated (c : Core) : Core :=
  { Core.reset with fqWait := c.fqWait, tlb := c.tlb, cueWay := c.cueWay, cueBack := c.cueBack, events := c.events, l1 := c.l1 }

/-- The rings of a core's bay, where it is the lowest core of its placement in it (Table 15.8). -/
def State.ringsOf (s : State) (n : Nat) : Option (Tab Ring) :=
  if (s.core n).placement.any (fun m => decide (bayOf m = bayOf n) && decide (m < n)) then none else some (s.bay (bayOf n)).rings

/-- The first of these addresses whose page is not PRIV, where the core holds a confidential context (R381). -/
def State.openPage (s : State) (n : Nat) (vas : List Word) : Option Word :=
  if (s.core n).confidential then vas.find? (fun va => match s.xlate s.node va with | some x => !x.priv | none => false) else none

/-- The save: the area is written, the core left empty. The notice that a CSAVE with `notice` gave is pending in the area only where the save is made at once (R330; DESIGN CHOICE, log 110). -/
def State.saveCore (s : State) (f : Fields) (n : Nat) (area : Word) (code : Bool) : Eff :=
  let now := !f.x.getLsbD 0
  let t := s.stopCore n now
  let t := t.modCore n (fun c => { c with seqs :=
    { ld := { c.seqs.ld with pc := c.seqs.ld.resumePc }, cp := { c.seqs.cp with pc := c.seqs.cp.resumePc },
      st := { c.seqs.st with pc := c.seqs.st.resumePc }, ct := { c.seqs.ct with pc := c.seqs.ct.resumePc } } })
  let words := t.areaWords n code ++ openWords t.fresh
  let accs := areaAccs Want.store area (words.map (fun p => p.1))
  match t.judge t.node accs, s.openPage n (words.map (fun p => area + BitVec.ofNat 64 p.1)) with
  | .stalls k, _ => .stall (s.stallDrain k)
  | .fault cause va, _ => .trap cause va
  | .allowed, some va => .trap 0x11 va
  | .allowed, none =>
    let u := words.foldl (fun u p => u.engineWrite u.node (area + BitVec.ofNat 64 p.1) 8 p.2) ((t.noteAccs t.node accs).drainQueue t.node t.me)
    let blob := wordBytes ((openWords t.fresh).filterMap (fun p => if engineOffsets.contains p.1 then some p.2 else none))
    let v := { u with saved := { bytes := blob, core := t.core n, rings := t.ringsOf n } :: u.saved, fresh := u.fresh + openOffsets.length }
    done (v.modCore n Core.vacated)

/-- The notice reaches the core and its sequencers (R325). -/
def State.giveNotice (s : State) (n grace : Nat) : State :=
  let t := s.modCore n (fun c => { c with notice := some { ends := c.cycle + BitVec.ofNat 64 (1024 * grace), yielded := false } })
  allSeqs.foldl (fun t q => t.modSeq n q (fun v => { v with notice := true })) t

/-- A PHASE of the core is under way; a save stands behind it. -/
def State.phaseUnderWay (s : State) (n : Nat) : Bool :=
  match (s.bay (bayOf n)).drain with
  | some d => d.node == n
  | none => false

/-- CSAVE: a core of the stack that holds a context, at once, or after its notice; a frozen core at once; the save of a core whose issue has stopped stands behind its reel (R212, R325, R328). UFADDR of cause 0x12 is the area's address (DESIGN CHOICE, log 123). -/
def execCsave (f : Fields) (s : State) : Out :=
  issued 0xC60 f (fun s =>
    let d := (s.sreg f.d).toNat
    let n := 256 * stackOf s.node + d % 256
    let area := s.sreg f.a
    let code := f.x.getLsbD 1
    let c := s.core n
    if d / 256 ≠ 0 ∨ c.ctx.isNone then .trap 0x02 0
    else if area.toNat % 4096 ≠ 0 then .trap 0x12 area
    else if s.phaseUnderWay n then .stall s
    else if c.freeze.isSome || !f.x.getLsbD 0 || c.paused.isSome || c.graceOver then
      (if c.reelRuns then .stall (if c.paused.isSome then s else s.stopIssue n) else s.saveCore f n area code)
    else if c.notice.isSome then .stall s
    else .stall (s.giveNotice n (f.x.toNat / 256))) s

/-! ## CREST (R329) -/

/-- The word at an offset of an area. -/
def State.areaWord (s : State) (area : Word) (off : Nat) : Word := BitVec.ofNat 64 (s.load s.node (area + BitVec.ofNat 64 off) 8)

/-- A reserved bit of the header is set. -/
def headerBad (w : Nat → Nat) : Bool :=
  w 0x00 != 1 || w 0x08 / 32 != 0 || w 0x18 / 64 != 0 || w 0x20 / 2 ^ 23 % 2 ^ 9 != 0 || w 0x20 / 2 ^ 55 != 0 || w 0x28 / 2 ^ 22 != 0 ||
    w 0x50 / 2 ^ 32 != 0 || (wordOffsets 0x58 21).any (fun o => w o != 0)

/-- A state of a sequencer by the STATE byte of an area (Table 15.9); a byte above 2, which the table does not name, is restored as stopped (R329; DESIGN CHOICE, log 124). -/
def runOf (k : Nat) : RunState :=
  match k with
  | 0 => .running
  | 1 => .halted
  | _ => .stopped

/-- Byte k of a word read from the area. -/
def areaByte (w : Nat → Nat) (off : Nat) : Nat := w (off / 8 * 8) / 256 ^ (off % 8) % 256

/-- A 32-bit word of the area. -/
def areaHalf (w : Nat → Nat) (off : Nat) : W32 := BitVec.ofNat 32 (w (off / 8 * 8) / 2 ^ (8 * (off % 8)))

/-- A table of 32-bit words from the area. -/
def areaTab (w : Nat → Nat) (base cnt : Nat) : Tab W32 :=
  (List.range cnt).foldl (fun t k => Tab.put0 0 t k (areaHalf w (base + 4 * k))) []

/-- A table of bytes. -/
def areaBytes (w : Nat → Nat) (base cnt key : Nat) (t : Tab Byte) : Tab Byte :=
  (List.range cnt).foldl (fun t k => Tab.put0 0 t (key + k) (BitVec.ofNat 8 (areaByte w (base + k)))) t

/-- Core-held registers that CREG shows and that the rest of the area or the core's own state decides. -/
def cregComputed (n : Nat) : Bool :=
  [0x00A, 0x00B, 0x011, 0x012, 0x013, 0x014, 0x015, 0x016, 0x017, 0x018, 0x01B, 0x040, 0x0D8, 0x2C2].contains n || decide (0x100 ≤ n ∧ n < 0x200)

/-- The bits of a core-held register that CREG restores: its fields that hold state; reserved bits stay zero (R6). -/
def cregMask (n : Nat) (r : RegInfo) : Word :=
  match n with
  | 0x081 => 4
  | 0x0D4 => 0xFF18
  | 0x306 => 0x0000FFFF0000001F
  | _ => if regReadOnly r then 0xFFFFFFFFFFFFFFFF else r.kept

/-- A register from CREG; DEBUG of a confidential context stays 0 (R381). -/
def Core.restoreReg (c : Core) (n : Nat) (v : Word) : Core :=
  match regInfo n with
  | none => c
  | some r => if n = 0x298 ∧ c.confidential then c.setSys n 0 else c.setSys n (saturate r v &&& cregMask n r)

/-- A register from SEQREG: its writable and its sticky bits (R6). -/
def Seq.restoreReg (q : Seq) (n : Nat) (v : Word) : Seq :=
  match regInfo n with
  | none => q
  | some r => if regReadOnly r then q else q.setSys n (saturate r v &&& r.kept)

/-- A sequencer from the area, for a core whose CYCLE moves by shift; a stopped or halted one has its resume PC in SEQPC (R316). An issued HALT or request goes on, and an SMARK that has arrived stands, unless the runtime has given the sequencer another PC or state (R245), and a notice is pending as the area says (R326, R329, Table 15.9). The instruction before its next one stands as far before c_s as it did (R98, Table 15.10; DEDUCED, log 80); the age of one that was passed over starts anew (R95; DESIGN CHOICE, log 102). No producer before the save stands in the history: CREST is a resume for R99 (R329; DEDUCED, log 125). -/
def Seq.fromArea (q : Seq) (k : Nat) (w : Nat → Nat) (shift : Word) (notice : Bool) : Seq :=
  let regs := (List.range 32).foldl (fun (q : Seq) r => q.setReg (BitVec.ofNat 5 r) (BitVec.ofNat 64 (w (0x100 + 256 * k + 8 * r)))) q
  let sys := seqRegPlaces.foldl (fun (q : Seq) p => q.restoreReg p.1 (BitVec.ofNat 64 (w (0x500 + 0x300 * k + p.2)))) regs
  let pc : Word := BitVec.ofNat 64 (w (0x30 + 8 * k)) &&& 0xFFFFFFFFFFFFFFFE
  let run := runOf (areaByte w (0x50 + k))
  { (if run = .running then sys else sys.setSys 0x280 pc) with
    pc := pc, run := run, hist := [], wait := none, last := q.last.map (fun p => p + shift), age := 0,
    notice := notice, remote := if run = .running ∧ pc = q.pc then q.remote else none,
    halting := if run = .running ∧ pc = q.pc then q.halting else none, mark := if run = .running ∧ pc = q.pc then q.mark else none }

/-- The lanes of a snapshot entry as they stand in the area. -/
def snapLanes (w : Nat → Nat) (e : Nat) (l : Land) : Land :=
  { l with lanes := l.lanes.map (fun p => (p.1, BitVec.ofNat 64 (w (0x5000 + 0x480 * e + 0x40 + 8 * p.1)))) }

/-- The array's stores from the area; of a slot's sideband word FILL alone (Table 8.1, R6). -/
def mxFromArea (w : Nat → Nat) : MatrixStores :=
  { acc := areaTab w 0x1E000 32768,
    elems := (List.range 64).foldl (fun t s => areaBytes w (0xE000 + 256 * s) 128 (128 * s) t) [],
    scales := (List.range 64).foldl (fun t s => Tab.put0 0 t s (areaHalf w (0xE000 + 256 * s + 128))) [],
    side := (List.range 64).foldl (fun t s => Tab.put0 0 t s (areaHalf w (0xE000 + 256 * s + 132) &&& 1)) [],
    bank := areaBytes w 0x18000 16384 16384 (areaBytes w 0x12000 16384 0 []),
    index := areaBytes w 0x1C100 4096 4096 (areaBytes w 0x16100 4096 0 []),
    tile := Tab.put0 0 (Tab.put0 0 [] 0 (areaHalf w 0x16000)) 1 (areaHalf w 0x1C000),
    active := BitVec.getLsbD (BitVec.ofNat 64 (w (0x3000 + 8 * 0x081))) 3 }

/-- NTOP of an area; one above 4,096 restores 4,096 planes (R122; DESIGN CHOICE, log 87). -/
def areaNtop (w : Nat → Nat) : Nat := min 4096 (w (0x3000 + 8 * 0x040) % 2 ^ 13)

/-- LCORE of an area, in the 22 bits that the register has (Table 1.4). -/
def areaLcore (w : Nat → Nat) : Nat := w 0x20 % 2 ^ 22

/-- The planes of the negative, top first. -/
def negFromArea (w : Nat → Nat) : List Plane :=
  let n := areaNtop w
  ((List.range n).map (fun j => BitVec.ofNat 128 (w (0x4E000 + 16 * j) + w (0x4E008 + 16 * j) * 2 ^ 64))).reverse

/-- The scope entries from the area. -/
def scopesFromArea (w : Nat → Nat) (p : Nat) : Tab (List Nat) :=
  (List.range 26).map (fun e =>
    (6 + e, (List.range p).filter (fun j => (areaByte w (0x5E000 + scopeStride p * e + j / 8)).testBit (j % 8))))

/-- The notice that an area holds, for a core saved as base: pending where HDR.NOTICE says so, with the grace of PRESTAT.GRACE; where that is as it was saved the grace ends as far from c_s as it did (R325, R329, R330; DESIGN CHOICE, log 113). -/
def areaNotice (base : Core) (w : Nat → Nat) : Option Notice :=
  let start : Word := BitVec.ofNat 64 (w 0x10)
  let prestat : Word := BitVec.ofNat 64 (w (0x3000 + 8 * 0x01B))
  let anew (yielded : Bool) : Notice := { ends := start + BitVec.ofNat 64 (1024 * (prestat.toNat / 65536 % 65536)), yielded := yielded }
  if w 0x08 / 16 % 2 = 0 then none
  else
    match base.notice with
    | some k => some (if prestat.toNat / 65536 % 65536 = base.savedPrestat.toNat / 65536 % 65536 then { k with ends := start + (k.ends - base.stopped) } else anew k.yielded)
    | none => some (anew false)

/-- Cause 0x3F is still to be taken by a sequencer of an area: as it was where a notice was pending, by every sequencer where the runtime has put one there (R325, R329; DESIGN CHOICE, log 113). -/
def noticeOwed (base : Core) (q : Seq) (w : Nat → Nat) : Bool := decide (w 0x08 / 16 % 2 = 1) && (q.notice || base.notice.isNone)

/-- The core that an area describes; a snapshot entry lands its remaining latency after the cycle restored (R329): the engine state that was saved with these bytes, and every field whose layout the spec gives as it stands (R329). -/
def coreFromArea (base : Core) (w : Nat → Nat) : Core :=
  let flags := w 0x08
  let p := w 0x20 / 2 ^ 32 % 2 ^ 23
  let seq (q : Seq) (k : Nat) : Seq := q.fromArea k w (BitVec.ofNat 64 (w 0x10) - base.stopped) (noticeOwed base q w)
  let c1 := { base with
    ctx := base.ctx.map (fun x => { x with lcore := areaLcore w }),
    seqs := { ld := seq base.seqs.ld 0, cp := seq base.seqs.cp 1, st := seq base.seqs.st 2, ct := seq base.seqs.ct 3 },
    cycle := BitVec.ofNat 64 (w 0x10),
    tok := (List.range 16).foldl (fun t k => Tab.put0 0 t k (areaByte w (0x1100 + 2 * k))) [],
    resv := (List.range 16).foldl (fun t k => Tab.put0 0 t k (areaByte w (0x1101 + 2 * k))) [],
    cells := areaTab w 0x3E000 16384, neg := negFromArea w, mx := mxFromArea w,
    nestTab := areaTab w 0x1480 28, grids := areaTab w 0x1280 128, flags := areaTab w 0x1200 32,
    streams := (List.range 256).foldl (fun t k => Tab.put0 0 t k (areaHalf w (0x3000 + 8 * (0x100 + k)))) [],
    scopes := scopesFromArea w p,
    snap := ((base.snap.take (w 0x18 % 64)).zipIdx).map (fun q =>
      { q.1 with lands := q.1.lands.map (snapLanes w q.2), due := BitVec.ofNat 64 (w 0x10) + (q.1.due - base.stopped) }),
    nest := if flags / 4 % 2 = 1 then base.nest else none,
    arrayAt := base.arrayAt.map (fun m => BitVec.ofNat 64 (w 0x10) + (m - base.stopped)),
    reel := if flags / 8 % 2 = 1 then base.reel else none,
    notice := areaNotice base w,
    freeze := none, paused := none, scales := [] }
  (List.range 0x400).foldl (fun (c : Core) n =>
    if windowReg n && !cregComputed n then c.restoreReg n (BitVec.ofNat 64 (w (0x3000 + 8 * n))) else c) c1

/-- The core number old becomes new in every placement of a kernel: those of cores, and those that wait in save areas (DEDUCED, log 46). -/
def moveCtx (entry : Option (Nat × Nat)) (old new : Nat) (c : Core) : Core :=
  { c with ctx := c.ctx.map (fun x =>
      if x.entry = entry ∧ x.placement.contains old then { x with placement := x.placement.map (fun m => if m = old then new else m) } else x) }

def State.movePlacement (s : State) (entry : Option (Nat × Nat)) (old new : Nat) : State :=
  { s with cores := s.cores.map (fun p => (p.1, moveCtx entry old new p.2)), saved := s.saved.map (fun p => { p with core := moveCtx entry old new p.core }) }

/-- Permits are asked for again (R354): the nest's, those of transfers, the suspended reel's. -/
def State.reaskAll (s : State) (n : Nat) : State :=
  let c := s.core n
  let t :=
    match c.nest with
    | some x => (s.reaskPermit n .ct .nest (classWeight x.rc)).modCore n
        (fun c => { c with nest := some { x with paused := true, pausing := false } })
    | none => s
  let wake (t : State) (q : SeqId) : State :=
    let l := (t.core n).transfers q
    let u := l.foldl (fun u x => if x.permit then u.reaskTransfer n q x.tag else u) t
    u.modCore n (fun c => c.setTransfers q (l.map (fun x => if x.permit then { x with paused := true, pausing := false } else x)))
  let t := wake (wake t .ld) .st
  match c.reel with
  | some r => t.reaskPermit n .cp .reel (classWeight r.rc)
  | none => t

/-- A suspended boost lease goes on in its quadrant, and is lost in another (Table 17.3). -/
def State.restoreLease (s : State) (n origin : Nat) : State :=
  let v := (s.core n).sysreg 0x306
  if !v.getLsbD 3 then s
  else if quadOf n = quadOf origin then
    s.modCore n (fun c => { c with lease := some ((s.stack (stackOf n)).clock + 1000 * (v.toNat / 2 ^ 32 % 65536)) })
  else s.modCore n (fun c => c.setSys 0x306 ((v &&& 7) ||| 16))

/-- The bay gets the ring table that was saved with the context (R280). -/
def State.restoreRings (s : State) (n : Nat) (rings : Option (Tab Ring)) : State :=
  match rings with
  | none => s
  | some r => s.setBay (bayOf n) { s.bay (bayOf n) with rings := r }

/-- The context of an area whose engine bytes no CSAVE wrote: unprivileged and alone (DESIGN CHOICE, log 45). -/
def strangerCore (n : Nat) : Core := { Core.reset with ctx := some (loneCtx n) }

/-- Offsets that CREST reads. -/
def restoreOffsets (w : Nat → Nat) : List Nat :=
  let p := w 0x20 / 2 ^ 32 % 2 ^ 23
  let planes := areaNtop w
  wordOffsets 0 (0x4E000 / 8) ++ wordOffsets 0x4E000 (2 * planes) ++ wordOffsets 0x5E000 (26 * scopeStride p / 8)
    ++ (if w 0x08 % 2 = 1 then wordOffsets (0x5E000 + 26 * scopeStride p) 0x4000 else [])

/-- The core is installed: everything of the area, the code store where it was saved, permits asked for again. -/
def State.installCore (s : State) (n : Nat) (area : Word) (w : Nat → Nat) : State :=
  let blob := wordBytes (engineOffsets.map (fun o => BitVec.ofNat 64 (w o)))
  let known := s.saved.find? (fun p => p.bytes == blob)
  let base := match known with | some p => p.core | none => strangerCore n
  let origin := w 0x28 % 2 ^ 22
  let old := s.core n
  let c := { coreFromArea base w with fqWait := old.fqWait, tlb := old.tlb, cueWay := old.cueWay, cueBack := old.cueBack, events := old.events, icache := [], l1 := old.l1 }
  let entry := match base.ctx with | some x => x.entry | none => none
  let t := (s.setCore n c).movePlacement entry origin n
  let p := w 0x20 / 2 ^ 32 % 2 ^ 23
  let t := if w 0x08 % 2 = 1 then
      (wordOffsets 0 0x4000).foldl (fun t o => t.windowWrite n 5 o 8 (s.areaWord area (0x5E000 + 26 * scopeStride p + o))) t
    else t
  ((t.reaskAll n).restoreLease n origin).restoreRings n (known.bind (fun p => p.rings))

/-- CREST: an area onto an empty core (R329), of a domain that is powered (R360; DESIGN CHOICE, log 53); the order of its checks is the model's (DESIGN CHOICE, log 86). -/
def execCrest (f : Fields) (s : State) : Out :=
  issued 0xC61 f (fun s =>
    let d := (s.sreg f.d).toNat
    let n := 256 * stackOf s.node + d % 256
    let area := s.sreg f.a
    if d / 256 ≠ 0 ∨ (s.core n).ctx.isSome ∨ s.gatedCore n then .trap 0x02 0
    else
      let t := s.drainQueue s.node s.me
      let v (off : Nat) : Nat := (t.areaWord area off).toNat
      match t.judge s.node (areaAccs Want.load area (restoreOffsets v)) with
      | .stalls k => .stall (s.stallDrain k)
      | .fault cause va => .trap cause va
      | .allowed =>
        if v 0x08 / 8 % 2 = 1 ∧ v 0x28 % 2 ^ 22 ≠ n then .trap 0x02 0
        else if headerBad v then .trap 0x02 1
        else done ((t.noteAccs s.node (areaAccs Want.load area (restoreOffsets v))).installCore n area v)) s

/-- SNAPSHOT_LAND: the first restored entry whose time has come lands, places its pushes and counts its RSTEP occupancy (R329). -/
def execSnapshotLand (node : Nat) (s : State) : Out :=
  .next (let c := s.core node
    match c.snap.find? (fun x => reached c.cycle x.due) with
    | none => s
    | some x =>
      if c.live then
        s.modCore node (fun c =>
          let c1 := (x.lands.foldl Core.land c).place .cp x.pushes
          ({ c1 with snap := c1.snap.erase x }).addSteps x.rc x.occ)
      else s)

end Sys2Proof.Machine
end

