-- ==== Sys2Proof/Machine/Launch.lean ====
section
/-! DEFINITION. The launch class and the stream controller (R333 to R350): KRUN, STRM, SIG, KABORT, STKMAP, and the events by which entries issue, are promoted and finish, and mailboxes are written. -/

namespace Sys2Proof.Machine

/-! ## Mailbox (R333) -/

/-- MBOX_WRITE: a function of the port writes a mailbox that it sees: a halted die control core restarts at PC; a running one gets the event. -/
def execMboxWrite (box : Mailbox) (value : Word) (s : State) : Out :=
  .next (if isDcc box.node && s.functionSees (pkgOf box.node) box.fn ((box.node - dccBase) % 8) then s.mailbox box.node value else s)

/-! ## Signals (R336) -/

/-- The checks of an 8-byte LDS at an address, and what follows with the older writes of the queue performed. -/
def withSignal (s : State) (va : Word) (k : State → Eff) : Eff :=
  s.access Want.load 8 [va] (fun t => k (t.drainQueue t.node t.me))

/-- The 8 bytes at an address as the current context reads them. -/
def State.word8At (s : State) (va : Word) : Word := BitVec.ofNat 64 (s.load s.node va 8)

/-- SIG.ADD -/
def execSigAdd (f : Fields) (s : State) : Out :=
  issued 0xD20 f (fun s => withSignal s (s.sreg f.a) (fun t =>
    done (t.engineWrite t.node (s.sreg f.a) 8 (t.word8At (s.sreg f.a) + s.sreg f.d)))) s

/-- SIG.SET; it may write a page that is GRID, among whose writers R257 does not name it (DESIGN CHOICE, log 94). -/
def execSigSet (f : Fields) (s : State) : Out :=
  issued 0xD21 f (fun s => withSignal s (s.sreg f.a) (fun t => done (t.engineWrite t.node (s.sreg f.a) 8 (s.sreg f.d)))) s

/-- SIG.WAIT: waits until the signal is 0 or below (kind 0x09), and returns it. -/
def execSigWait (f : Fields) (s : State) : Out :=
  issued 0xD22 f (fun s => withSignal s (s.sreg f.a) (fun t =>
    let v := t.word8At (s.sreg f.a)
    if v.toInt ≤ 0 then putReg t f.d v else .waitWith t 0x09 (BitVec.ofNat 64 ((s.sreg f.a).toNat % 2 ^ 55)))) s

/-! ## Entering the scoreboard (R338 to R341) -/

/-- A descriptor of cnt 8-byte words at a multiple of its size, read as LDS does; the older writes of the core are released first. -/
def withDescriptor (s : State) (va : Word) (cnt : Nat) (k : State → List W32 → Eff) : Eff :=
  if va.toNat % (8 * cnt) ≠ 0 then .trap 0x12 va
  else
    s.access Want.load 8 (units va 8 cnt) (fun t =>
      let u := t.drainQueue t.node t.me
      k u ((units va 4 (2 * cnt)).map (fun a => BitVec.ofNat 32 (u.load u.node a 4))))

/-- Cores of a unit of each SHAPE (R340). -/
def shapeSize (shape : Nat) : Nat :=
  match shape with
  | 0 => 1
  | 1 => 4
  | 2 => 64
  | 3 => 256
  | _ => 1024

/-- The logical stack lies on a gated physical stack (R340). -/
def State.lstkGated (s : State) (lstk : Nat) : Bool := s.gatedDom (s.stackFor (pkgOf s.node) lstk) 4

/-- The first offending word of a kernel descriptor (R340). -/
def State.kernelFault (s : State) (e : Entry) : Option Nat :=
  let b (hi lo : Nat) : Nat := e.bits 0x08 hi lo
  if b 11 11 ≠ 0 ∨ b 15 15 ≠ 0 ∨ b 31 31 ≠ 0 ∨ 4 < b 14 12 ∨ b 10 0 = 0 ∨ shapeSize (b 14 12) < b 10 0 ∨ b 19 16 = 0 ∨
      b 23 20 < 2 ∨ 14 < b 23 20 ∨ ((0 < b 51 40 ∨ b 14 12 = 4) ∧ b 28 28 = 0) ∨ (b 28 28 = 1) = (e.at 0x38 = 0) ∨
      s.lstkGated (b 30 29) then some 0x08
  else [0x18, 0x20, 0x28, 0x30].find? (fun off => (e.at off).toNat % 8 != 0)

/-- The first offending word of a stream descriptor (R341; DEDUCED, log 52). -/
def State.streamEntryFault (s : State) (e : Entry) : Option Nat :=
  if e.resident ∧ e.at 0x08 ≠ 0 then some (if e.bits 0x08 31 0 = 0 then 0x0C else 0x08)
  else if e.copyLen % 4 ≠ 0 then some 0x10
  else if e.bits 0x10 51 44 ≠ 0 ∨ s.lstkGated (e.bits 0x10 43 42) then some 0x14
  else if (e.at 0x18).toNat % 8 ≠ 0 then some 0x18
  else none

/-- The entry that the current die control core adds. -/
def State.newEntry (s : State) (kernel : Bool) (desc : List W32) : Entry :=
  let e : Entry :=
    { num := 0, lstk := 0, kernel := kernel, desc := desc, root := s.myCore.sysreg 0x2A0, node := s.node, entered := 0,
      promoted := false, issued := false, failed := false, sent := none, cores := [], chunk := 0 }
  { e with lstk := if kernel then e.bits 0x08 30 29 else e.bits 0x10 43 42 }

/-- The entry is held and its handle written, or all ones where the scoreboard is full (R338). -/
def enter (s : State) (f : Fields) (e : Entry) : Eff :=
  let pkg := pkgOf s.node
  let stack := s.stackFor pkg e.lstk
  let k := s.stack stack
  if 256 ≤ k.board.length then putReg s f.d 0xFFFFFFFFFFFFFFFF
  else
    let p := s.pkg pkg
    let x := { e with num := Tab.get p.seqNums e.lstk 0, entered := k.clock }
    let t := (s.setStack stack { k with board := k.board ++ [x] }).setPkg pkg { p with seqNums := Tab.put p.seqNums e.lstk (x.num + 1) }
    putReg t f.d (BitVec.ofNat 64 x.handle)

/-- KRUN (R338 to R340). -/
def execKrun (f : Fields) (s : State) : Out :=
  issued 0xD00 f (fun s => withDescriptor s (s.sreg f.a) 8 (fun t d =>
    let e := t.newEntry true d
    match t.kernelFault e with
    | some off => .trap 0x29 (BitVec.ofNat 64 (0x3000 + off))
    | none => enter t f e)) s

/-- STRM (R341). -/
def execStrm (f : Fields) (s : State) : Out :=
  issued 0xD10 f (fun s => withDescriptor s (s.sreg f.a) 4 (fun t d =>
    let e := t.newEntry false d
    match t.streamEntryFault e with
    | some off => .trap 0x29 (BitVec.ofNat 64 (0x3100 + off))
    | none => enter t f e)) s

/-! ## Placement (R339, R344) -/

/-- The core is free: no context, not disabled, not gated (R344, R360, R377). -/
def State.coreFree (s : State) (n : Nat) : Bool :=
  (s.core n).ctx.isNone && !(s.pkg (pkgOf n)).disabled.contains (n % 1024) && !s.gatedCore n

/-- A placement: every core of it in LCORE order; none while it is not free. -/
def State.unpinned (s : State) (stack : Nat) (e : Entry) : Option (List Nat) :=
  let size := shapeSize (e.bits 0x08 14 12)
  let cores := e.bits 0x08 10 0
  let free := (List.range 256).filter (fun c => (e.bits 0x08 19 16).testBit (c / 64) && s.coreFree (256 * stack + c))
  let hits (u : Nat) : List Nat := free.filter (fun c => c / size == u)
  match (List.range (256 / size)).find? (fun u => decide (cores ≤ (hits u).length)) with
  | some u => some (((hits u).take cores).map (fun c => 256 * stack + c))
  | none => none

/-- The numbers rise. -/
def rising (l : List Nat) : Bool :=
  match l with
  | [] => true
  | x :: r => (match r with | [] => true | y :: _ => decide (x < y)) && rising r

/-- A placement map agrees with CORES, PKGS and R339: rising identifiers, CORES of each of PKGS + 1 packages, the issuing one among them. -/
def mapGood (e : Entry) (l : List Nat) : Bool :=
  let cores := e.bits 0x08 10 0
  let pkgs := (l.map (fun n => n / 1024)).eraseDups
  rising l && l.all (fun n => decide (n < 2 ^ 22)) && pkgs.length == e.bits 0x08 51 40 + 1 && pkgs.contains (pkgOf e.node) &&
    pkgs.all (fun p => (l.filter (fun n => n / 1024 == p)).length == cores)

/-- The placement of an entry; none while it is not free. -/
def State.placementFor (s : State) (stack : Nat) (e : Entry) : Got (Option (List Nat)) :=
  if e.bits 0x08 28 28 = 0 then .ok (s.unpinned stack e)
  else
    (s.controllerRead e (e.at 0x38) ((e.bits 0x08 51 40 + 1) * e.bits 0x08 10 0) 4).next (fun l =>
      if !mapGood e l then .invalid
      else .ok (if (l.filter (fun n => pkgOf n == stack / 4)).all s.coreFree then some l else none))

/-! ## Ranking (R343) -/

/-- An entry that could issue now, as far as its signals, its barriers and its placement say. -/
def State.eligible (s : State) (stack : Nat) (e : Entry) : Bool :=
  e.kernel && !e.issued && e.sent.isNone && s.waitsMet e && (s.stack stack).clear e &&
    match s.placementFor stack e with
    | .ok none => false
    | .stalls => false
    | _ => true

/-- Entry a ranks before entry b. -/
def ranksBefore (clock : Nat) (a b : Entry) : Bool :=
  let pa := a.isPromoted clock
  let pb := b.isPromoted clock
  let tie := decide (a.lstk < b.lstk) || (a.lstk == b.lstk && decide (a.num < b.num))
  if pa && pb then decide (a.entered < b.entered) || (a.entered == b.entered && tie)
  else if pa || pb then pa
  else decide (b.bits 0x08 25 24 < a.bits 0x08 25 24) || (a.bits 0x08 25 24 == b.bits 0x08 25 24 && tie)

/-- Another entry issues first: one that ranks before it, or a promoted one for which the cores accumulate. -/
def State.outranked (s : State) (stack : Nat) (e : Entry) : Bool :=
  let k := s.stack stack
  k.board.any (fun x => s.eligible stack x && ranksBefore k.clock x e) ||
    (!e.isPromoted k.clock && k.board.any (fun x => x.kernel && !x.issued && x.sent.isNone && x.isPromoted k.clock))

/-! ## Creating contexts (R345, R386) -/

/-- A sequencer of a new context: s1 holds ARGS, and it runs from its start or is halted. -/
def newSeq (args : Word) (start : Option Word) : Seq :=
  let q := Seq.reset.setReg 1 args
  match start with
  | some pc => { q with pc := pc, run := .running }
  | none => q

/-- A context that an entry makes is confidential (R380). -/
def State.confFor (s : State) (e : Entry) : Bool := match s.partOf e.node with | some p => p.tdi == 2 | none => false

/-- The context of an LCORE on a core. -/
def State.createCore (s : State) (stack : Nat) (e : Entry) (rs : List Record) (all : List Nat) (n lcore : Nat) : State :=
  let args := e.at 0x10
  let x : Ctx :=
    { priv := e.bits 0x08 27 27 == 1, placement := all, lcore := lcore, conf := s.confFor e, key := s.nextTag + 1,
      entry := some (stack, e.handle) }
  let c := (s.core n).vacated
  let seqs : Four Seq :=
    { ld := newSeq args (startOf rs .ld lcore), cp := newSeq args (startOf rs .cp lcore), st := newSeq args (startOf rs .st lcore),
      ct := newSeq args (startOf rs .ct lcore) }
  { s.setCore n ({ c with ctx := some x, seqs := seqs }.setSys 0x2A0 e.root) with nextTag := s.nextTag + 1 }

/-- A bay that the placement holds whole gets SPAD MiB, under the rules of PHASE, and a ring table at reset (R18, R345). A context created on only a part of a bay finds the bay's ring registers as they were (R7, R292; DESIGN CHOICE, log 101). -/
def State.carveBay (s : State) (spad bay : Nat) : State :=
  let t := s.resizeBay bay spad
  t.setBay bay { t.bay bay with rings := [] }

/-- The bays that a list of cores holds whole. -/
def wholeBays (l : List Nat) : List Nat :=
  ((l.map bayOf).eraseDups).filter (fun b => (List.range 4).all (fun i => l.contains (4 * b + i)))

/-- The kernel starts: bays, the pages of its data, contexts on the package's cores of the placement, then the records in order. -/
def State.startKernel (s : State) (stack : Nat) (e : Entry) (rs : List Record) (all : List Nat) : State :=
  let mine := (all.zipIdx).filter (fun p => pkgOf p.1 == stack / 4)
  let t := (wholeBays (mine.map (fun p => p.1))).foldl (fun t b => t.carveBay (e.bits 0x08 23 20) b) s
  let t := t.loadData stack e (s.confFor e) rs all
  let base := t.placing.base
  let t := mine.foldl (fun t p => t.createCore stack e rs all p.1 p.2) t
  let linked := mine.map (fun p => (p, linkRecords base p.2 rs))
  let t := (List.range rs.length).foldl (fun t k => linked.foldl (fun t p =>
    match p.2[k]? with
    | some r => if r.serves p.1.2 then t.applyRecord base p.1.1 r else t
    | none => t) t) t
  t.setStack stack { (t.stack stack).setEntry { e with issued := true, cores := mine.map (fun p => p.1) } with launched := some (t.stack stack).clock }

/-- The entry is a kernel's that spans several packages (R339). -/
def Entry.spans (e : Entry) : Bool := e.kernel && e.bits 0x08 28 28 == 1 && e.bits 0x08 51 40 != 0

/-- The cores of the placement of such an entry, free or not, where its map can be read. -/
def State.launchCores (s : State) (e : Entry) : Option (List Nat) :=
  match s.controllerRead e (e.at 0x38) ((e.bits 0x08 51 40 + 1) * e.bits 0x08 10 0) 4 with
  | .ok l => if mapGood e l then some l else none
  | _ => none

/-- A kernel entry fails or is aborted before it has started: its package is missing from that launch, no data waits for it, and its entry counts (R347, R348, R401). Where its map or its image cannot be read, the launch is the eldest of as many cores, on its placement where that is known, that waits for the package, and else the next such launch to be placed (DESIGN CHOICE, log 63). -/
def State.missLaunch (s : State) (stack : Nat) (e : Entry) : State :=
  let pkg := stack / 4
  if !e.spans || e.issued || s.doneDrains e then s
  else
    let m : Miss := { pkg := pkg, size := (e.bits 0x08 51 40 + 1) * e.bits 0x08 10 0, cores := s.launchCores e }
    match m.cores, s.readImage e with
    | some all, .ok rs => (s.leavePlaced pkg (s.launchCount pkg (imageNums rs) all) (imageNums rs) all).countLaunch pkg (imageNums rs) all
    | _, _ =>
      match eldest (s.placed.filter (fun p => m.fits p.cores && p.due.contains pkg)) with
      | some p => (s.leavePlaced pkg p.launch p.image p.cores).countLaunch pkg p.image p.cores
      | none => { s with missed := s.missed ++ [m] }

/-- The start fails: an entry in the fault queue, and the entry ends failed (R345, R347); not while the update of DONE stalls on a drain. -/
def State.failStart (s : State) (stack : Nat) (e : Entry) (cause : Nat) (info : Word) : State :=
  if s.doneDrains e then s else ((s.missLaunch stack e).controllerFault stack e cause info).failEntry stack e

/-- The start fails with cause 0x29; the address is a free value (DESIGN CHOICE, log 49). -/
def State.failInvalid (s : State) (stack : Nat) (e : Entry) : State := s.spend.failStart stack e 0x29 (Config.freeWord s.fresh)

/-- An entry has issued, and no other does in this cycle; a start that fails has issued too (R343, R345). -/
def State.noteLaunch (s : State) (stack : Nat) : State := s.setStack stack { s.stack stack with launched := some (s.stack stack).clock }

/-- The symbols that reading the placement map of an entry corrects (R378). -/
def State.noteMap (s : State) (e : Entry) : State :=
  if e.bits 0x08 28 28 = 0 then s
  else s.noteController e 4 (units (e.at 0x38) 4 ((e.bits 0x08 51 40 + 1) * e.bits 0x08 10 0))

/-- A kernel entry that is clear and whose signals are met: it starts, fails to start, or is not yet its turn: one kernel issues in a cycle, and an entry is judged as it issues, not before (R343, R345). -/
def State.tryKernel (s : State) (stack : Nat) (e : Entry) : State :=
  if (s.stack stack).launched = some (s.stack stack).clock then s
  else
  if s.outranked stack e then s
  else
    match s.placementFor stack e with
    | .stalls => s
    | .fault c va => (s.failStart stack e c va).noteLaunch stack
    | .invalid => ((s.noteMap e).failInvalid stack e).noteLaunch stack
    | .ok none => s
    | .ok (some all) =>
      match s.readImage e with
      | .stalls => s
      | .fault c va => (((s.noteMap e).noteObject e).failStart stack e c va).noteLaunch stack
      | .invalid => (((s.noteMap e).noteObject e).failInvalid stack e).noteLaunch stack
      | .ok rs => ((s.noteMap e).noteObject e).startKernel stack e rs all

/-- A stream transfer runs, once the checks of R230 have passed (R341). -/
def State.startStream (s : State) (stack : Nat) (e : Entry) : State :=
  let src := e.at 0x00
  let dst := e.at 0x08
  if !e.resident && dst.toNat % 4 != 0 then s.failStart stack e 0x12 dst
  else if !e.resident && src.toNat % 4 != 0 then s.failStart stack e 0x12 src
  else if !e.resident && rangesMeet dst src e.copyLen then s.spend.failStart stack e 0x02 (Config.freeWord s.fresh)
  else s.setStack stack ((s.stack stack).setEntry { e with issued := true })

/-- ENTRY_ISSUE: an entry fails on a failed signal, or issues when it is eligible and ranks first (R342 to R347). -/
def execEntryIssue (stack : Nat) (entry : Nat) (s : State) : Out :=
  .next (let s := s.flushPosted stack
    match (s.stack stack).entry entry with
    | none => s
    | some e =>
      if e.issued || e.sent.isSome || !(s.pkg (stack / 4)).runs then s
      else if !e.kernel then (if (s.stack stack).clear e then s.startStream stack e else s)
      else
      let s := s.noteController e 8 e.waits
      if s.waitsFailed e then (s.missLaunch stack e).failEntry stack e
      else if s.waitsMet e && (s.stack stack).clear e then s.tryKernel stack e
      else s)

/-- ENTRY_PROMOTION: an entry that has waited for 2^20 control-clock cycles is promoted (R343). -/
def execEntryPromotion (stack : Nat) (entry : Nat) (s : State) : Out :=
  .next (let k := s.stack stack
    match k.entry entry with
    | none => s
    | some e =>
      if e.isPromoted k.clock && (s.pkg (stack / 4)).runs then s.setStack stack (k.setEntry { e with promoted := true }) else s)

/-! ## Finishing (R346) -/

/-- Cores of a package that hold a context of an entry. -/
def State.coresOf (s : State) (stack h : Nat) : List Nat :=
  (s.cores.filter (fun p => !isDcc p.1 && (match p.2.ctx with | some x => x.entry == some (stack, h) && pkgOf p.1 == stack / 4 | none => false))).map
    (fun p => p.1)

/-- Every sequencer halted, every access performed, every engine command retired. -/
def State.coreFinished (s : State) (n : Nat) : Bool :=
  let c := s.core n
  allSeqs.all (fun q => (c.seqs.get q).run == .halted && (c.seqs.get q).queue.isEmpty && (c.seqs.get q).flights.isEmpty) &&
    c.ldq.isEmpty && c.stq.isEmpty && c.nest.isNone && c.reel.isNone && c.clst.isNone && c.snap.isEmpty && c.freeze.isNone && !s.phaseUnderWay n

/-- A core's context is discarded. -/
def State.discard (s : State) (n : Nat) : State := s.modCore n Core.vacated

/-- The keys of contexts in save areas are destroyed: what CREST makes of such an area has another key, each one its own (R380, R384; DEDUCED, log 100). -/
def State.destroyKeys (s : State) (gone : Ctx → Bool) : State :=
  let renew (i : Nat) (x : Ctx) : Ctx := if gone x then { x with key := s.nextTag + 1 + i } else x
  if s.saved.isEmpty then s
  else
    { s with saved := (s.saved.zipIdx).map (fun p => { p.1 with core := { p.1.core with ctx := p.1.core.ctx.map (renew p.2) } }),
             nextTag := s.nextTag + s.saved.length }

/-- The contexts of an entry are discarded, and their keys with them, those in save areas too (R346, R348, R380). -/
def State.discardEntry (s : State) (stack h : Nat) : State := s.destroyKeys (fun x => x.entry == some (stack, h))

/-- An entry is finished: a kernel on every core of its placement in the package, a transfer with its last chunk, or one that has ended (R346). -/
def State.finished (s : State) (stack : Nat) (e : Entry) : Bool :=
  e.sent.isSome ||
    (e.issued &&
      (if e.kernel then decide ((s.coresOf stack e.handle).length = e.bits 0x08 10 0) && (s.coresOf stack e.handle).all s.coreFinished
       else !e.streaming))

/-- The posted write of an ended entry's signal has been performed. -/
def State.delivered (s : State) (stack tag : Nat) : Bool := !((s.seq (ctrlNode stack) .st).queue.any (fun st => st.tag == tag))

/-- KERNEL_FINISH: a finished kernel frees its cores and a finished transfer ends, DONE updated by success; one whose DONE has been sent leaves (R338, R346). -/
def execKernelFinish (stack : Nat) (entry : Nat) (s : State) : Out :=
  .next (match (s.stack stack).entry entry with
    | none => s
    | some e =>
      match e.sent with
      | some tag => if s.delivered stack tag then s.setStack stack ((s.stack stack).dropEntry entry) else s
      | none =>
        if !(s.pkg (stack / 4)).runs || !s.finished stack e || s.doneDrains e then s
        else
          let t := s.flushPosted stack
          (if e.kernel then ((t.coresOf stack entry).foldl State.discard t).discardEntry stack entry else t).endEntry stack e)

/-! ## KABORT and STKMAP (R348, R350) -/

/-- A PHASE drain of a core that is aborted runs to its end. -/
def State.finishDrain (s : State) (n : Nat) : State :=
  match (s.bay (bayOf n)).drain with
  | some d => if d.node = n then (s.resizeBay (bayOf n) d.size).flushFaults (pkgOf n) else s
  | none => s

/-- A core's context is aborted: accesses performed, engines stopped at their boundaries, permits given back, the context discarded (R348). -/
def State.abortCore (s : State) (n : Nat) : State := ((s.stopCore n false).finishDrain n).discard n

/-- The scoreboard of a package that holds an entry. -/
def State.boardOf (s : State) (pkg h : Nat) : Option (Nat × Entry) :=
  ((List.range 4).filterMap (fun k => (s.stack (4 * pkg + k)).entry h |>.map (fun e => (4 * pkg + k, e)))).head?

/-- KABORT: an entry that has not finished ends failed, its signal's write performed; an issued kernel's contexts are discarded, and the launch of one that has not issued goes on without its package (R348, R401). -/
def execKabort (f : Fields) (s : State) : Out :=
  issued 0xD30 f (fun s =>
    let h := (s.sreg f.a).toNat
    if h / 2 ^ 50 ≠ 0 then .trap 0x02 1
    else
      match s.boardOf (pkgOf s.node) h with
      | none => done s
      | some (stack, e) =>
        if s.finished stack e then done s
        else if s.doneDrains e then .stall s
        else
          let t := ((s.coresOf stack h).foldl State.abortCore (s.flushPosted stack)).discardEntry stack h
          done { (({ t with hold := false } : State).missLaunch stack e).failEntry stack e with hold := s.hold }) s

/-- The logical stacks that a map moves. -/
def State.moving (s : State) (pkg map : Nat) : List Nat :=
  (List.range 4).filter (fun l => s.stackFor pkg l != 4 * pkg + map / 4 ^ l % 4)

/-- An entry as another stack's scoreboard holds it: it has waited as long on that stack's clock (R343). -/
def Entry.moved (e : Entry) (old new : Stack) : Entry := { e with entered := e.entered + new.clock - old.clock }

/-- The scoreboard of a stack after the unissued entries of moving logical stacks have moved. -/
def State.remapped (s : State) (pkg map k : Nat) : List Entry :=
  let mv := s.moving pkg map
  (List.range 4).flatMap (fun j => (s.stack (4 * pkg + j)).board.filterMap (fun e =>
    if mv.contains e.lstk && !e.issued then
      (if map / 4 ^ e.lstk % 4 = k then some (e.moved (s.stack (4 * pkg + j)) (s.stack (4 * pkg + k))) else none)
    else if j = k then some e else none))

/-- STKMAP (R350). -/
def execStkmap (f : Fields) (s : State) : Out :=
  issued 0xD40 f (fun s =>
    let map := (s.sreg f.a).toNat
    let pkg := pkgOf s.node
    let gated := (List.range 4).any (fun l => s.gatedDom (4 * pkg + map / 4 ^ l % 4) 4)
    let issuedMoves := (List.range 4).any (fun j => (s.stack (4 * pkg + j)).board.any (fun e =>
      e.issued && !s.finished (4 * pkg + j) e && (s.moving pkg map).contains e.lstk))
    let full := (List.range 4).any (fun k => decide (256 < (s.remapped pkg map k).length))
    if map / 256 ≠ 0 ∨ gated ∨ issuedMoves ∨ full then .trap 0x02 1
    else
      let t := (List.range 4).foldl (fun t k => t.setStack (4 * pkg + k) { t.stack (4 * pkg + k) with board := s.remapped pkg map k }) s
      done (t.setPkg pkg ((t.pkg pkg).setSys 0x402 (BitVec.ofNat 64 map)))) s

end Sys2Proof.Machine
end

