-- ==== Sys2Proof/Machine/Boot.lean ====
section
/-! DEFINITION. The package manager (R375 to R385): cold boot, scrubbing, attestation reports, fatal errors and their dump. -/

namespace Sys2Proof.Machine

/-! ## Cold boot (R375 to R377) -/

/-- A free bit for each of 1,024 cores, in 16 words from a counter on. -/
def bootBit (fresh c : Nat) : Bool := (Config.freeWord (fresh + c / 64)).getLsbD (c % 64)

/-- The cores for which such bits are set. -/
def bootCores (fresh : Nat) : List Nat := (List.range 1024).filter (bootBit fresh)

/-- BOOTST with these stages, failures and signature bits (Table 19.4). -/
def bootst (stage fail : Nat) (rsa slh : Bool) : Word := BitVec.ofNat 64 (stage + 256 * fail + 4096 * bitNat rsa + 8192 * bitNat slh)

def Pkg.stage (p : Pkg) : Nat := (p.sysreg 0x2C0).toNat % 16
def State.setBoot (s : State) (pkg : Nat) (w : Word) : State := s.setPkg pkg ((s.pkg pkg).setSys 0x2C0 w)

/-- A byte of a package's vaults, scratchpads, and code stores, which a cold boot zeroes (Table 19.1). -/
def bootZeroes (pkg a : Nat) : Bool := paPkg a == pkg && (paSpace a == 1 || paSpace a == 2 || paSpace a == 3 || paSpace a == 14)

/-- A package that comes on knows no launch: its entries are gone, no data waits for any package of a placement that spans it, and the launches of such placements count anew in every package (R375, R401; DESIGN CHOICE, log 63). -/
def State.forgetLaunches (s : State) (pkg : Nat) : State :=
  let spans (cores : List Nat) : Bool := (pkgsOf cores).contains pkg
  { s with
    launches := s.launches.filter (fun l => !spans l.cores),
    missed := s.missed.filter (fun m => m.pkg != pkg && (match m.cores with | some l => !spans l | none => true)),
    placed := s.placed.map (fun p => { p with users := p.users.filter (fun u => u.1 / 4 != pkg), due := if spans p.cores then [] else p.due }) }

/-- Power comes on: everything of a package but its memory and its installed capacity is as at power-on, its contexts' keys are destroyed, and the next image boots (R375, R384). -/
def State.powerOn (s : State) (pkg : Nat) : State :=
  let p := s.pkg pkg
  let mine (key per : Nat) : Bool := key / per == pkg
  let cap := if Tab.has p.sys 0x1001 then Tab.put [] 0x1001 (Tab.get p.sys 0x1001 0) else []
  let t : State :=
    { s with
      cores := s.cores.filter (fun c => pkgOf c.1 != pkg), bays := s.bays.filter (fun b => !mine b.1 256),
      quads := s.quads.filter (fun k => !mine k.1 16), dies := s.dies.filter (fun k => !mine k.1 4),
      freed := s.freed.filter (fun r => paPkg (65536 * r) != pkg) }
  ((t.destroyKeys (fun x => match x.entry with | some e => e.1 / 4 == pkg | none => false)).forgetLaunches pkg).setPkg pkg
    { Pkg.reset with sys := cap, boots := p.boots + 1 }

/-- Stage 0: both signatures and the security version are verified; how that ends is a free value, FAIL 1, 2, 3 or 5 (R376; DESIGN CHOICE, log 54). -/
def State.verifyFirmware (s : State) (pkg : Nat) : State :=
  let fail := [0, 1, 2, 3, 5].getD ((Config.freeWord s.fresh).toNat % 5) 0
  (s.setBoot pkg (bootst (if fail = 0 then 1 else 15) fail (fail != 1 && fail != 3) (fail != 2 && fail != 3))).spend

/-- Errors of some of a package's vaults are logged (Table 19.3). -/
def State.logVaults (s : State) (pkg : Nat) (l : List Nat) (kind : ErrorKind) : State :=
  l.foldl (fun t c => t.logError (vaultAddr (1024 * pkg + c) 0) kind) s

/-- Stage 1: which layers retire and which cores are disabled is free, and whether a vertical bus cannot be repaired (R377; DESIGN CHOICE, log 54). -/
def State.testVaults (s : State) (pkg : Nat) : State :=
  let disabled := bootCores (s.fresh + 16)
  let retired := (bootCores s.fresh).filter (fun c => !disabled.contains c)
  let t : State := { s with fresh := s.fresh + 33 }
  if (Config.freeWord (s.fresh + 32)).getLsbD 0 then t.setBoot pkg (bootst 15 4 true true)
  else
    (({ t.setPkg pkg { t.pkg pkg with disabled := disabled, retired := retired } with fresh := s.fresh + 33 } : State).setBoot pkg
      (bootst 2 0 true true)).logVaults pkg retired .retired

/-- Stage 2: the soft repair registers are written; which vaults that repairs is free (Table 19.3; DESIGN CHOICE, log 54). -/
def State.repairVaults (s : State) (pkg : Nat) : State :=
  { (s.setBoot pkg (bootst 3 0 true true)).logVaults pkg (bootCores s.fresh) .repaired with fresh := s.fresh + 16 }

/-- Stage 3: vaults and SRAM are zeroed with valid check bytes; the boot is complete. -/
def State.zeroMemories (s : State) (pkg : Nat) : State :=
  let good (w : Nat) : Bool := !bootZeroes pkg (8 * w)
  ({ s with mem := s.mem.filter (fun c => !bootZeroes pkg c.1), bad := s.bad.filter good, weak := s.weak.filter good,
            keyed := s.keyed.filter (fun k => !bootZeroes pkg (16 * k.1)) } : State).setBoot pkg (bootst 4 0 true true)

/-- The next stage of Table 19.1; a package that has booted or failed, or that a fatal error has stopped, in whatever stage, begins anew (R375, R382). -/
def State.coldBoot (s : State) (pkg : Nat) : State :=
  if (s.pkg pkg).fatal.isSome then s.powerOn pkg else
  match (s.pkg pkg).stage with
  | 0 => s.verifyFirmware pkg
  | 1 => s.testVaults pkg
  | 2 => s.repairVaults pkg
  | 3 => s.zeroMemories pkg
  | _ => s.powerOn pkg

/-- COLD_BOOT: a stage of Table 19.1 is done, until STAGE 4 or STAGE 15; then a new cold boot begins at stage 0 (R375). -/
def execColdBoot (pkg : Nat) (s : State) : Out := .next (s.coldBoot pkg)

/-! ## Scrubbing (R378) -/

/-- VAULT_SCRUB: every single symbol in error of a vault without a retired layer is corrected and counted; an uncorrectable codeword stays as it is. -/
def execVaultScrub (pkg : Nat) (s : State) : Out :=
  .next (if (s.pkg pkg).runs then
    let hits (b : Nat) : Bool := paPkg (8 * b) == pkg && paSpace (8 * b) == 1 && !s.layerRetired (8 * b)
    let t := (s.weak.filter hits).foldl State.correct s
    { t with weak := t.weak.filter (fun b => !hits b) }
  else s)

/-! ## Attestation (R379) -/

/-- Exactly n bytes: cut, or filled up with zeros. -/
def padTo (n : Nat) (l : List Byte) : List Byte := (l ++ List.replicate n 0).take n

/-- The n bytes of a number, the lowest first. -/
def leBytes (n v : Nat) : List Byte := (List.range n).map (fun i => BitVec.ofNat 8 (v / 256 ^ i))

/-- What a partition's configuration says. -/
def partitionLists (c : VfConfig) : List (List Nat) := [c.dccs, c.quads, [c.rcLo, c.rcHi, c.budgetLo, c.budgetHi], c.points]

/-- Bytes 0x000 to 0x0FF of a report (Table 19.2). -/
def State.reportBody (s : State) (pkg : Nat) (nonce : List Byte) (dcc : Option Nat) : List Byte :=
  let boots := (s.pkg pkg).boots
  let vf := dcc.bind s.partOf
  let tdi := match vf with | some p => p.tdi | none => 0
  let part := match vf with | some p => padTo 48 (Config.digest (Config.partition (partitionLists p.config))) | none => padTo 48 []
  leBytes 4 0x54414344 ++ leBytes 4 1 ++ padTo 32 nonce ++ leBytes 2 0x4200 ++ padTo 6 [] ++ leBytes 8 1 ++ leBytes 2 (pkg % 4096) ++ padTo 6 []
    ++ padTo 32 (Config.digest256 (Config.identity pkg)) ++ padTo 48 (Config.digest (Config.firmware pkg boots))
    ++ leBytes 4 (Config.securityVersion pkg boots).toNat ++ padTo 4 [] ++ leBytes 8 (s.readPkgReg (1024 * pkg) 0x2C0).toNat
    ++ part ++ leBytes 4 tdi ++ padTo 44 []

/-- GET_MEASUREMENTS: the report with the requester's nonce, for the partition of a die control core if one is named. -/
def execGetMeasurements (pkg : Nat) (nonce : List Byte) (dcc : Option Nat) (s : State) : Out :=
  .next (let body := s.reportBody pkg nonce dcc
    s.setPkg pkg { s.pkg pkg with report := body ++ padTo 16608 (Config.signature body) })

/-! ## Fatal errors (R382 to R384) -/

/-- The words of HDR, but for COMPLETE (Table 19.3; DESIGN CHOICE, log 55). -/
def State.dumpHeader (s : State) (pkg source : Nat) : List (Nat × Word) :=
  let dis := (s.pkg pkg).disabled
  let reg (k : Nat) : Nat := (s.readPkgReg (1024 * pkg) k).toNat
  let fwmeas := padTo 48 (Config.digest (Config.firmware pkg (s.pkg pkg).boots))
  [(0x000, (0x00000001504D5544 : Word))]
    ++ (List.range 15).map (fun i => (8 + 8 * i, Config.dumpHead (reg 0x261) (reg 0x260) (pkg % 4096) fwmeas i))
    ++ [(0x080, BitVec.ofNat 64 source)]
    ++ (List.range 16).map (fun i => (0x100 + 8 * i, BitVec.ofNat 64 ((List.range 64).foldl (fun v b => v + 2 ^ b * bitNat (dis.contains (64 * i + b))) 0)))

/-- The words of STK (Table 19.3; DESIGN CHOICE, log 55). -/
def State.dumpStacks (s : State) (pkg : Nat) : List (Nat × Word) :=
  (List.range 4).flatMap (fun k =>
    let n := 1024 * pkg + 256 * k
    let regs := [s.readStackReg n 0x30A, s.readPkgReg n 0x402, s.readStackReg n 0x401, s.readStackReg n 0x2B0, s.readStackReg n 0x2B1,
                 s.readStackReg n 0x2B2, s.readStackReg n 0x2B3, s.readStackReg n 0x2B4, s.readStackReg n 0x2C1]
    (regs.zipIdx).map (fun p => (0x1000 + 4096 * k + 8 * p.2, p.1)))

/-- The kinds of permit events and of errors in the order of Table 19.3. -/
def permitNum (k : PermitKind) : Nat :=
  match k with
  | .request => 0
  | .grant => 1
  | .release => 2
  | .expiry => 3
  | .timeout => 4
def errorNum (k : ErrorKind) : Nat :=
  match k with
  | .corrected => 0
  | .uncorrected => 1
  | .repaired => 2
  | .retired => 3

/-- The four words of an entry of 32 bytes. -/
def entryWords (base i : Nat) (w : Nat → Word) : List (Nat × Word) := (List.range 4).map (fun k => (base + 32 * i + 8 * k, w k))

/-- The words of PERMIT and ERRLOG, oldest first; the place of each field in an entry is open (Table 19.3; DESIGN CHOICE, log 55). -/
def Pkg.dumpLogs (p : Pkg) : List (Nat × Word) :=
  (p.permitLog.zipIdx).flatMap (fun e => entryWords 0x5000 e.2 (Config.permitEntry e.1.time e.1.node (seqNum e.1.seq) e.1.weight (permitNum e.1.kind)))
    ++ (p.errorLog.zipIdx).flatMap (fun e => entryWords 0x8000 e.2 (Config.errorEntry e.1.time e.1.addr (errorNum e.1.kind)))

/-- The words of FQ (Table 19.3). -/
def Pkg.dumpQueue (p : Pkg) : List (Nat × Word) :=
  (p.fqLog.zipIdx).flatMap (fun e => (e.1.words.zipIdx).map (fun w => (0x100000 + 64 * e.2 + 8 * w.2, w.1)))

/-- Header words of a record that stay in the clear: ORIGIN, PC, STATE (R384). -/
def clearWord (off : Nat) : Bool := decide (0x28 ≤ off ∧ off < 0x58)

/-- A record under a context's key: AES blocks of the dump, but for the words in the clear (R384). -/
def sealRecord (key base : Nat) (l : List (Nat × Word)) : List (Nat × Word) :=
  l.map (fun p =>
    if clearWord p.1 then p
    else
      let at_ (o : Nat) : Word := match l.find? (fun q => q.1 == o) with | some q => q.2 | none => 0
      let block := p.1 / 16 * 16
      let c := (Config.xts key ((base + block) / 16)).toFun ((at_ (block + 8)) ++ (at_ block))
      (p.1, if p.1 % 16 = 0 then c.extractLsb' 0 64 else c.extractLsb' 64 64))

/-- The record of core number c (Table 19.3): save-area bytes 0x0000 to 0x4FFF with ENG zero. -/
def State.dumpCore (s : State) (pkg c : Nat) : List (Nat × Word) :=
  let n := 1024 * pkg + c
  let base := 0x200000 + 0x5000 * c
  let words := (s.areaWords n false).filter (fun p => decide (p.1 < 0x1200) || decide (0x3000 ≤ p.1 ∧ p.1 < 0x5000))
  let full := (List.range 2560).map (fun i => (8 * i, match words.find? (fun p => p.1 == 8 * i) with | some p => p.2 | none => (0 : Word)))
  let out := match (s.core n).ctx with
    | some x => if x.conf then sealRecord x.key base full else full
    | none => full
  out.map (fun p => (base + p.1, p.2))

/-- Where a package's dump goes: a host buffer, the reserved region, or nowhere (R382). -/
def State.dumpTarget (s : State) (pkg : Nat) : Option Nat :=
  let p := s.pkg pkg
  if p.dumpcfg.getLsbD 0 then some (pkg * 2 ^ 48 + 4 * 2 ^ 44 + p.dumpcfg.toNat / 4096 * 4096 % 2 ^ 46)
  else p.reserved.map (fun r => pkg * 2 ^ 48 + r)

/-- The dump, written word by word, COMPLETE last; unused bytes are zero (R383). -/
def State.writeDump (s : State) (pkg source base : Nat) : State :=
  let words := s.dumpHeader pkg source ++ s.dumpStacks pkg ++ (s.pkg pkg).dumpLogs ++ (s.pkg pkg).dumpQueue
    ++ (List.range 1024).flatMap (s.dumpCore pkg) ++ [(0xFF8, 1)]
  words.foldl (fun t p => t.physWrite none (base + p.1) 8 p.2) (s.zeroRange base (base + 0x1600000))

/-- Every core and die control core of a package stops, and receives no cycles any more. -/
def State.haltPackage (s : State) (pkg source : Nat) : State :=
  let t : State := { s with cores := s.cores.map (fun c => if pkgOf c.1 = pkg then (c.1, { c.2 with paused := some (c.2.paused.getD c.2.cycle) }) else c) }
  t.setPkg pkg { t.pkg pkg with fatal := some source }

/-- FATAL_ERROR: the package stops, and the dump is written to the target that DUMPCFG names. -/
def execFatalError (pkg : Nat) (source : Nat) (s : State) : Out :=
  .next (if (s.pkg pkg).fatal.isSome then s
    else
      match s.dumpTarget pkg with
      | none => s.haltPackage pkg source
      | some base => (s.writeDump pkg source base).haltPackage pkg source)

end Sys2Proof.Machine
end

