-- ==== Sys2Proof/Machine/Keep.lean ====
section
/-! DEFINITION. Keep operations, the negative, and erasure, opcodes 0x2C to 0x2F (R119 to R125). -/

namespace Sys2Proof.Machine

/-! ## The negative -/

/-- The deepest the negative gets (R122). -/
def negativeMax : Nat := 4096

/-- A plane from bits by lane; inactive lanes are zero (R119). -/
def planeOf (lanes : List Nat) (bit : Nat → Bool) : Plane :=
  BitVec.ofNat 128 (lanes.foldl (fun n i => n + bitNat (bit i) * 2 ^ i) 0)

/-- push_plane. -/
def Core.pushPlane (c : Core) (p : Plane) : Core := { c with neg := p :: c.neg }

/-- An instruction that pushes one plane and makes these results; cause 0x21 on a full negative (R119). -/
def keepPlane (s : State) (p : Plane) (lands : List Land) : Eff :=
  if negativeMax ≤ s.myCore.neg.length then .trap 0x21 0
  else .done { st := s.modMyCore (fun c => c.pushPlane p), lands := lands }

/-- An instruction that pops the top plane; cause 0x22 on an empty negative (R121). -/
def popPlane (s : State) (k : State → Plane → Eff) : Eff :=
  match s.myCore.neg with
  | [] => .trap 0x22 0
  | p :: rest => k (s.modMyCore (fun c => { c with neg := rest })) p

/-- A keep operation of opcode 0x2C on pairs: exchanged where y goes before x (Table 5.4). -/
def keepPair (c : Code) (f : Fields) (before : Nat → Nat → Nat → Bool) (s : State) : Out :=
  issued c f (fun s =>
    let w := wOf f
    let swaps (i : Nat) : Bool := before w (s.srcLane f.a w i) (s.srcLane f.d w i)
    keepPlane s (planeOf s.lanes swaps) (exchange s f swaps)) s

/-- VMAXK: y > x (Table 5.4). -/
def execVmaxk (f : Fields) (s : State) : Out := keepPair 0x2C0 f (fun w y x => decide (toInt w x < toInt w y)) s
/-- VMINK: y < x (Table 5.4). -/
def execVmink (f : Fields) (s : State) : Out := keepPair 0x2C1 f (fun w y x => decide (toInt w y < toInt w x)) s
/-- VMAXNK: y > x unsigned (Table 5.4). -/
def execVmaxnk (f : Fields) (s : State) : Out := keepPair 0x2C2 f (fun _ y x => decide (x < y)) s
/-- VMINNK: y < x unsigned (Table 5.4). -/
def execVminnk (f : Fields) (s : State) : Out := keepPair 0x2C3 f (fun _ y x => decide (y < x)) s

/-- −x modulo 2^w. -/
def negW (w x : Nat) : Nat := (2 ^ w - x) % 2 ^ w

/-- VABSK: −x where x < 0; the kept bit says so (Table 5.4). -/
def execVabsk (f : Fields) (s : State) : Out :=
  issued 0x2C4 f (fun s =>
    let w := wOf f
    let isNeg (i : Nat) : Bool := decide (toInt w (s.srcLane f.d w i) < 0)
    keepPlane s (planeOf s.lanes isNeg)
      [changeLanes f.d w ((s.lanes.filter isNeg).map (fun i => (i, s.srcLane f.d w i, negW w (s.srcLane f.d w i))))]) s

/-- VUNCX: exchanges where the plane says so, recomputes the bits from the restored pair, and charges the disagreement (R121). -/
def execVuncx (f : Fields) (s : State) : Out :=
  issued 0x2D0 f (fun s =>
    popPlane s (fun t p =>
      let w := wOf f
      let q := f.q.toNat
      let dAt (i : Nat) : Nat := if p.getLsbD i && !laneMeets f.d f.a i then s.srcLane f.a w i else s.srcLane f.d w i
      let aAt (i : Nat) : Nat := if p.getLsbD i && !laneMeets f.d f.a i then s.srcLane f.d w i else s.srcLane f.a w i
      let kept (i : Nat) : Bool :=
        if f.x.getLsbD 0 then decide (readInt q w (aAt i) < readInt q w (dAt i))
        else decide (readInt q w (dAt i) < readInt q w (aAt i))
      let r := planeOf s.lanes kept
      .done { st := t.charge t.node (popNat (p ^^^ r).toNat), lands := exchange s f (fun i => p.getLsbD i) })) s

/-- VUNABS (R121). -/
def execVunabs (f : Fields) (s : State) : Out :=
  issued 0x2D1 f (fun s =>
    popPlane s (fun t p =>
      let w := wOf f
      let dAt (i : Nat) : Nat := if p.getLsbD i then negW w (s.srcLane f.d w i) else s.srcLane f.d w i
      let r := planeOf s.lanes (fun i => decide (toInt w (dAt i) < 0))
      .done { st := t.charge t.node (popNat (p ^^^ r).toNat),
              lands := [changeLanes f.d w ((s.lanes.filter (fun i => p.getLsbD i)).map (fun i => (i, s.srcLane f.d w i, dAt i)))] })) s

/-! ## Moving planes -/

/-- Bit X[4:0] of the cell of operand A's lane i. -/
def State.planeBit (s : State) (f : Fields) (i : Nat) : Bool := (s.srcLane f.a 32 i).testBit (f.x.toNat % 32)

/-- NPUSH (R123). -/
def execNpush (f : Fields) (s : State) : Out :=
  issued 0x2E0 f (fun s => keepPlane s (planeOf s.lanes (s.planeBit f)) []) s
/-- NUNPUSH: charges what differs from the plane formed from A (R123). -/
def execNunpush (f : Fields) (s : State) : Out :=
  issued 0x2E1 f (fun s =>
    popPlane s (fun t p => done (t.charge t.node (popNat (p ^^^ planeOf s.lanes (s.planeBit f)).toNat)))) s
/-- NPOP: the plane XORed into bit X[4:0] of D's active lanes; all its bits are charged (R123). -/
def execNpop (f : Fields) (s : State) : Out :=
  issued 0x2E2 f (fun s =>
    popPlane s (fun t p =>
      .done { st := t.charge t.node (popNat p.toNat),
              lands := [{ field := f.d, width := 32, e := false,
                          lanes := (s.lanes.filter (fun i => p.getLsbD i)).map (fun i => (i, BitVec.ofNat 64 (2 ^ (f.x.toNat % 32)))) }] })) s
/-- NDROP: the top n planes removed, the sum of their bits charged (R123). -/
def execNdrop (f : Fields) (s : State) : Out :=
  issued 0x2E3 f (fun s =>
    let n := f.x.toNat
    let l := s.myCore.neg
    if l.length < n then .trap 0x22 0
    else done ((s.modMyCore (fun c => { c with neg := l.drop n })).charge s.node ((l.take n).foldl (fun a p => a + popNat p.toNat) 0))) s

/-- An access to 16n bytes at s[A] as 8-byte units, a multiple of 16 (R124; DEDUCED, log 22). -/
def planeRange (s : State) (want : Want) (va : Word) (n : Nat) (k : State → Eff) : Eff :=
  if va.toNat % 16 ≠ 0 then .trap 0x12 va else s.access want 8 (units va 8 (2 * n)) k

/-- The stores of planes, the oldest lowest. -/
def State.planeStores (s : State) (va : Word) (l : List Plane) : List Store :=
  (l.zipIdx).flatMap (fun p =>
    let a := va + BitVec.ofNat 64 (16 * p.2)
    s.mkStore s.node a 8 (p.1.setWidth 64) ++ s.mkStore s.node (a + 8) 8 (p.1.extractLsb' 64 64))

/-- NSPILL: the top n planes to memory (R124). -/
def execNspill (f : Fields) (s : State) : Out :=
  issued 0x2E4 f (fun s =>
    let n := f.x.toNat
    let l := s.myCore.neg
    if l.length < n then .trap 0x22 0
    else
      planeRange s Want.store (s.sreg f.a) n (fun t =>
        .done { st := t.modMyCore (fun c => { c with neg := l.drop n }), stores := t.planeStores (s.sreg f.a) (l.take n).reverse })) s

/-- NFILL: n planes from memory; it retires as it changes the negative (R124). -/
def execNfill (f : Fields) (s : State) : Out :=
  issued 0x2E5 f (fun s =>
    let n := f.x.toNat
    let va := s.sreg f.a
    if negativeMax < s.myCore.neg.length + n then .trap 0x21 0
    else
      planeRange s Want.load va n (fun t =>
        let read (j : Nat) : Plane :=
          BitVec.ofNat 128 (t.load t.node (va + BitVec.ofNat 64 (16 * j)) 8 + 2 ^ 64 * t.load t.node (va + BitVec.ofNat 64 (16 * j + 8)) 8)
        .done { st := t.modMyCore (fun c => { c with neg := ((List.range n).map read).reverse ++ c.neg }), atOnce := true })) s

/-- NDEPTH: s[D] := NTOP (R123). -/
def execNdepth (f : Fields) (s : State) : Out :=
  issued 0x2E6 f (fun s => putReg s f.d (BitVec.ofNat 64 s.myCore.neg.length)) s

/-- ERASE: every active lane of D zero, its old bits charged (R125). -/
def execErase (f : Fields) (s : State) : Out :=
  issued 0x2F0 f (fun s => .done (s.writeLanes true f.d (wOf f) (fun _ => true) (s.lanes.map (fun i => (i, 0))))) s

end Sys2Proof.Machine
end

