-- ==== Sys2Proof/Machine/Power.lean ====
section
/-! DEFINITION. The power class (R351 to R363): PERMIT, PREL, LEASE, OPSET, GATE, and the events of the power controller: grants, leases, holds, wakes, throttling, refresh. -/

namespace Sys2Proof.Machine

/-! ## Explicit permits (R356) -/

/-- PERMIT: an explicit permit in place of any older one; retires on the grant. -/
def execPermit (f : Fields) (s : State) : Out :=
  issued 0xE00 f (fun s =>
    let w := (s.sreg f.a).toNat
    if w = 0 ∨ 256 ≤ w then .trap 0x02 1
    else (s.dropExplicit s.node s.me).withPermit .explicit w (fun t => .done { st := t.modMe (fun q => q.setHold w), atOnce := true })) s

/-- PREL. -/
def execPrel (f : Fields) (s : State) : Out := issued 0xE01 f (fun s => done (s.dropExplicit s.node s.me)) s

/-! ## Grants and leases of permits (R351 to R353) -/

/-- A permit granted now, with its lease. -/
def State.granted (s : State) (p : Permit) : Permit := { p with ends := s.leaseEnd p.node p.holder }

/-- A change of the transfer of this tag in a core's queue. -/
def Core.modTransfer (c : Core) (q : SeqId) (tag : Nat) (f : Transfer → Transfer) : Core :=
  c.setTransfers q ((c.transfers q).map (fun t => if t.tag = tag then f t else t))

/-- An engine whose permit has been granted again goes on; a suspended reel may resume in this cycle (R212, R353, R354). -/
def State.wakeEngine (s : State) (p : Permit) : State :=
  match p.holder with
  | .nest => s.modCore p.node (fun c => { c with nest := c.nest.map (fun x => { x with paused := false }) })
  | .copy => s.modCore p.node (fun c => c.modTransfer p.seq p.tag (fun t => { t with paused := false }))
  | .reel => s.resumeReel p.node
  | _ => s

/-- The place of the request at the head is settled: it was made in an earlier cycle, or its core and those before it have arbitrated in this one, so that no request of this cycle comes before it any more (R352). -/
def Quad.settled (k : Quad) (a : Permit) : Bool := decide (k.late < k.asks.length) || decide (a.node < k.turn)

/-- PERMIT_GRANT: the request at the head is granted if it fits and its place is settled (R351, R352). -/
def execPermitGrant (quad : Nat) (s : State) : Out :=
  .next (let k := s.quad quad
    match k.asks with
    | [] => s
    | a :: rest =>
      if k.fits a.weight && k.settled a then
        let t := s.addGrant quad rest (s.granted a)
        if a.waiting then t else t.wakeEngine a
      else s)

/-- A permit that an operation gives back when its lease has ended: its lease is noted once, and bounds nothing more. -/
def State.noteExpiry (s : State) (quad : Nat) (p : Permit) : State :=
  let k := s.quad quad
  (s.setQuad quad { k with grants := k.grants.map (fun g => if g = p then { p with ends := none } else g) }).notePermit p .expiry

/-- What the end of a permit's lease does: a nest and a transfer pause at their next boundary, an explicit permit is released (R353). -/
def State.expire (quad : Nat) (s : State) (p : Permit) : State :=
  match p.holder with
  | .nest => (s.noteExpiry quad p).modCore p.node (fun c => { c with nest := c.nest.map (fun x => { x with pausing := true }) })
  | .copy => (s.noteExpiry quad p).modCore p.node (fun c => c.modTransfer p.seq p.tag (fun t => { t with pausing := true }))
  | .explicit =>
    ((s.notePermit p .expiry).releasePermit p.node p.seq .explicit).modSeq p.node p.seq (fun q => q.clearHold true)
  | _ => s

/-- The lease of a permit that is held has ended. -/
def Permit.over (p : Permit) (clock : Nat) : Bool :=
  !p.waiting && match p.ends with | some e => decide (e ≤ clock) | none => false

/-- Every lease of a quadrant that has ended does what it does (R353). -/
def State.expireAll (s : State) (quad : Nat) : State :=
  ((s.quad quad).grants.filter (fun p => p.over (s.stack (quad / 4)).clock)).foldl (State.expire quad) s

/-- PERMIT_LEASE_EXPIRY: every lease of the quadrant that has ended (R353); time brings it by itself (State.leasesDue). -/
def execPermitLeaseExpiry (quad : Nat) (s : State) : Out := .next (s.expireAll quad)

/-! ## Boost leases (R357) -/

/-- BOOSTMAX of a quadrant (Table 17.6). -/
def Quad.boostMax (k : Quad) : Nat := (k.sysreg 0x303).toNat / 256 % 8

/-- The context holds an active lease at a point. -/
def Core.grantLease (c : Core) (point ends : Nat) : Core :=
  { (c.setSys 0x306 ((c.sysreg 0x306 &&& 0x10) ||| BitVec.ofNat 64 (point + 8))) with lease := some ends }

/-- LEASE. -/
def execLease (f : Fields) (s : State) : Out :=
  issued 0xE10 f (fun s =>
    let v := (s.sreg f.a).toNat
    let point := v % 8
    let time := v / 65536
    if v / 8 % 8192 ≠ 0 ∨ 65536 ≤ time ∨ 4 < point ∨ time = 0 then .trap 0x02 1
    else if point < (s.quad (quadOf s.node)).boostMax then putReg s f.d 0
    else
      putReg (s.modMyCore (fun c => c.grantLease point ((s.stack (stackOf s.node)).clock + 1000 * time))) f.d (BitVec.ofNat 64 time)) s

/-- The boost lease of a core's context has ended by a moment of the control clock. -/
def Core.leaseOver (c : Core) (clock : Nat) : Bool := match c.lease with | some e => decide (e ≤ clock) | none => false

/-- BOOST_LEASE_EXPIRY: the lease of a core's context has ended (Table 17.3); time brings it by itself (State.leasesDue). -/
def execBoostLeaseExpiry (node : Nat) (s : State) : Out :=
  .next (if (s.core node).leaseOver (s.stack (stackOf node)).clock then s.modCore node Core.returnLease else s)

/-- The leases of a stack that its control clock has ended: of permits in its quadrants, and of boosts on its cores (R353, R357). -/
def State.leasesDue (s : State) (stack : Nat) : State :=
  let t := (List.range 4).foldl (fun t k => t.expireAll (4 * stack + k)) s
  (t.cores.filter (fun p => !isDcc p.1 && stackOf p.1 == stack && p.2.leaseOver (t.stack stack).clock)).foldl (fun t p => t.modCore p.1 Core.returnLease) t

/-! ## Operating points (R358, R359) -/

/-- Quadrant, stack, kind and group of a target; the bits above are to be zero. -/
def targetStack (s : State) (v : Nat) : Nat := 4 * pkgOf s.node + v / 4 % 4
def targetQuad (s : State) (v : Nat) : Nat := 4 * targetStack s v + v % 4
def targetKind (v : Nat) : Nat := v / 16 % 4
def targetGroup (v : Nat) : Nat := v / 64 % 8

/-- The partition of the issuing die control core may not act on this target (R359). -/
def State.foreign (s : State) (v : Nat) : Bool :=
  match s.partOf s.node with
  | none => false
  | some p => targetKind v != 0 || !p.config.quads.contains (targetQuad s v)

/-- The allowed point nearest to a point, the slower one on a tie. -/
def nearestPoint (points : List Nat) (x : Nat) : Nat :=
  let far (p : Nat) : Nat := max p x - min p x
  match points with
  | [] => x
  | p :: r => r.foldl (fun m q => if far q < far m ∨ (far q = far m ∧ m < q) then q else m) p

/-- A value in a range. -/
def clampTo (lo hi x : Nat) : Nat := if x < lo then lo else if hi < x then hi else x

/-- OP, BOOSTMAX, RCMIN and BUDGET of an OPSET. -/
structure Points where
  op     : Nat
  boost  : Nat
  rc     : Nat
  budget : Nat
  deriving DecidableEq, Repr

/-- The fields as a partition's ranges clamp them (R359). -/
def Points.clamp (p : Points) (part : Option Partition) : Points :=
  match part with
  | none => p
  | some x =>
    let r := x.config
    { op := nearestPoint r.points p.op, boost := nearestPoint r.points p.boost, rc := clampTo r.rcLo r.rcHi p.rc,
      budget := clampTo r.budgetLo r.budgetHi p.budget }

/-- A quadrant takes its new points, floor, budget and lease length. -/
def Quad.opset (k : Quad) (p : Points) (please : Nat) (clamped : Bool) : Quad :=
  let k1 := (((k.setSys 0x300 (BitVec.ofNat 64 (p.rc % 8))).setSys 0x301 (BitVec.ofNat 64 p.budget)).setSys 0x303
    (BitVec.ofNat 64 (p.op + 256 * p.boost))).setSys 0x307 (BitVec.ofNat 64 please)
  if clamped then k1.setSys 0x302 (k1.sysreg 0x302 + 1) else k1

/-- s[A] of an OPSET on a quadrant is in error. -/
def opsetBad (a : Nat) : Bool :=
  decide (4 < a % 8) || a / 8 % 2 != 0 || decide (4 < a / 16 % 8) || a / 128 % 2 != 0 || a / 2048 % 32 != 0 || a / 2 ^ 32 % 65536 == 0 || a / 2 ^ 48 != 0

/-- OPSET: a quadrant's points, floor, budget and lease length, or a layer group's economy; its operands are judged before its target (DESIGN CHOICE, log 86). -/
def execOpset (f : Fields) (s : State) : Out :=
  issued 0xE30 f (fun s =>
    let v := (s.sreg f.d).toNat
    let a := (s.sreg f.a).toNat
    let kind := targetKind v
    if v / 512 ≠ 0 ∨ !(kind == 0 || kind == 2) ∨ (kind = 0 ∧ targetGroup v ≠ 0) ∨ (kind = 2 ∧ 4 < targetGroup v) then .trap 0x02 0
    else if kind = 2 then
      (if a / 2 ≠ 0 then .trap 0x02 1
      else if s.foreign v then .trapOpen 0x11
      else
        let k := s.stack (targetStack s v)
        let bit : Word := BitVec.ofNat 64 (2 ^ targetGroup v)
        let map := k.sysreg 0x304
        done (s.setStack (targetStack s v) (k.setSys 0x304 (if a = 1 then map ||| bit else map &&& ~~~bit))))
    else if opsetBad a then .trap 0x02 1
    else if s.foreign v then .trapOpen 0x11
    else
      let asked : Points := { op := a % 8, boost := a / 16 % 8, rc := a / 256 % 8, budget := a / 65536 % 65536 }
      let p := asked.clamp (s.partOf s.node)
      done (s.setQuad (targetQuad s v) ((s.quad (targetQuad s v)).opset p (a / 2 ^ 32 % 65536) (p != asked)))) s

/-! ## Gating and waking (R360, R361) -/

/-- A quadrant holds a context, a permit or an active boost lease. -/
def State.quadBusy (s : State) (quad : Nat) : Bool :=
  !(s.quad quad).grants.isEmpty ||
    s.cores.any (fun p => !isDcc p.1 && quadOf p.1 == quad && (p.2.ctx.isSome || p.2.lease.isSome))

/-- A stack has a powered quadrant, or a logical stack is mapped onto it. -/
def State.stackBusy (s : State) (stack : Nat) : Bool :=
  !((List.range 4).all (fun q => (s.stack stack).gated.contains q)) || (List.range 4).any (fun l => s.stackFor (stack / 4) l == stack)

/-- A gated quadrant's core state, scratchpads and code stores are lost; a core and a bay are as after a cold boot (R24, R361; DESIGN CHOICE, log 53). Its L2 slice holds no state of its own: the lines that it held dirty are in memory (R24; DESIGN CHOICE, log 53). -/
def State.loseQuad (s : State) (quad : Nat) : State :=
  let bays := (List.range 16).map (fun b => 16 * quad + b)
  let cores := (List.range 64).map (fun c => 64 * quad + c)
  let t := bays.foldl (fun t b => t.zeroRange (spadAddr b 0) (spadAddr b (2 ^ 24))) s
  let t := cores.foldl (fun t n => t.zeroRange (codeAddr n 0) (codeAddr n 0x20000)) t
  { t with cores := t.cores.filter (fun p => isDcc p.1 || quadOf p.1 != quad), bays := t.bays.filter (fun p => p.1 / 16 != quad) }

/-- A gated stack's vaults are lost (R24; DESIGN CHOICE, log 53). -/
def State.loseVaults (s : State) (stack : Nat) : State :=
  let mine (w : Nat) : Bool := paSpace (8 * w) == 1 && vaultCore (8 * w) / 256 == stack
  ((List.range 256).map (fun c => 256 * stack + c)).foldl (fun t n => t.zeroRange (vaultAddr n 0) (vaultAddr n (2 ^ 27)))
    { s with bad := s.bad.filter (fun w => !mine w), weak := s.weak.filter (fun w => !mine w) }

/-- A domain is gated and its break-even hold begins: 120 µs for a quadrant, 250 µs for the stack. -/
def Stack.gate (k : Stack) (dom : Nat) : Stack :=
  { k with gated := k.gated ++ [dom], holds := k.holds ++ [{ dom := dom, ends := k.clock + (if dom = 4 then 250000 else 120000), ask := false }] }

/-- A domain joins the in-rush arbiter's queue at a moment of the control clock; with nothing ahead its wake begins then. -/
def Stack.enqueue (k : Stack) (dom moment : Nat) : Stack :=
  { k with wakes := k.wakes ++ [dom], wakeAt := if k.wakes.isEmpty then moment + 24000 else k.wakeAt }

/-- A request to wake a domain. -/
def Stack.wake (k : Stack) (dom : Nat) : Stack :=
  if !k.gated.contains dom || k.wakes.contains dom then k
  else if k.holds.any (fun h => h.dom == dom) then { k with holds := k.holds.map (fun h => if h.dom = dom then { h with ask := true } else h) }
  else k.enqueue dom k.clock

/-- GATE: gates or wakes a quadrant or a stack; gating what is gated has no effect (DESIGN CHOICE, log 53); its operands are judged before its target (DESIGN CHOICE, log 86). -/
def execGate (f : Fields) (s : State) : Out :=
  issued 0xE40 f (fun s =>
    let v := (s.sreg f.d).toNat
    let a := (s.sreg f.a).toNat
    let stack := targetStack s v
    let whole := targetKind v == 1
    let dom := if whole then 4 else v % 4
    let k := s.stack stack
    if v / 64 ≠ 0 ∨ 1 < targetKind v then .trap 0x02 0
    else if a / 2 ≠ 0 then .trap 0x02 1
    else if s.foreign v then .trapOpen 0x11
    else if a = 0 then done (s.setStack stack (k.wake dom))
    else if k.gated.contains dom then done s
    else if (if whole then s.stackBusy stack else s.quadBusy (targetQuad s v)) then .trap 0x02 0
    else
      let t := if whole then s.loseVaults stack else s.loseQuad (targetQuad s v)
      done (t.setStack stack ((t.stack stack).gate dom))) s

/-- A hold has ended, and a request held back joins the queue at that moment (R361). -/
def Stack.endHold (k : Stack) (h : Hold) : Stack :=
  let k1 := { k with holds := k.holds.filter (fun x => x.dom != h.dom) }
  if h.ask then k1.enqueue h.dom h.ends else k1

/-- BREAK_EVEN_HOLD_END: a hold ends, and a request held back joins the queue (R361). -/
def execBreakEvenHoldEnd (stack : Nat) (dom : Nat) (s : State) : Out :=
  .next (let k := s.stack stack
    match k.holds.find? (fun h => h.dom == dom && decide (h.ends ≤ k.clock)) with
    | none => s
    | some h => s.setStack stack (k.endHold h))

/-- What a domain comes up with: a quadrant with every core empty and a cold-boot carve-out (R361). -/
def State.wakeUp (s : State) (stack dom : Nat) : State := if dom = 4 then s else s.loseQuad (4 * stack + dom)

/-- The wake in progress, where its 24 µs are over. -/
def Stack.wakeOver (k : Stack) : Bool := !k.wakes.isEmpty && decide (k.wakeAt ≤ k.clock)

/-- The domain at the head of the queue comes up, a stack with its quadrants gated; the next wake begins as that one ends (R361). -/
def State.wakeNext (s : State) (stack : Nat) : State :=
  let k := s.stack stack
  match k.wakes with
  | [] => s
  | dom :: rest =>
    let up := k.gated.filter (fun d => d != dom)
    (s.wakeUp stack dom).setStack stack { k with gated := if dom = 4 then [0, 1, 2, 3] else up, wakes := rest, wakeAt := k.wakeAt + 24000 }

/-- DOMAIN_WAKE: the wake in progress is over (R361). -/
def execDomainWake (stack : Nat) (s : State) : Out := .next (if (s.stack stack).wakeOver then s.wakeNext stack else s)

/-- Of the holds of a stack that are over, the one that ended first. -/
def Stack.holdOver (k : Stack) : Option Hold :=
  match k.holds.filter (fun h => decide (h.ends ≤ k.clock)) with
  | [] => none
  | h :: rest => some (rest.foldl (fun a b => if b.ends < a.ends then b else a) h)

/-- Holds that are over end and wakes that are over come up, each at its moment, the earliest first, so that wakes follow one another in the order in which they joined, 24 µs each (R361). -/
def State.powerMoves (s : State) (stack fuel : Nat) : State :=
  match fuel with
  | 0 => s
  | fuel + 1 =>
    let k := s.stack stack
    match k.holdOver with
    | some h =>
      if k.wakeOver && decide (k.wakeAt < h.ends) then State.powerMoves (s.wakeNext stack) stack fuel
      else State.powerMoves (s.setStack stack (k.endHold h)) stack fuel
    | none => if k.wakeOver then State.powerMoves (s.wakeNext stack) stack fuel else s

/-- What the control clock of a stack brings by now: the ends of leases (R353, R357), and the moves of its power controller, where a hold makes at most two, its end and its wake (R361). -/
def State.powerDue (s : State) (stack : Nat) : State :=
  (s.leasesDue stack).powerMoves stack (2 * (s.stack stack).holds.length + (s.stack stack).wakes.length)

/-! ## Throttling and refresh (R362) -/

/-- CLOCK_THROTTLE: time passes on the control clock with no cycle delivered to the quadrant, and brings what is due on that clock (R361); no other effect (DEDUCED, log 16). -/
def execClockThrottle (quad : Nat) (dt : Nat) (s : State) : Out :=
  .next (let k := s.stack (quad / 4)
    (s.setStack (quad / 4) { k with clock := k.clock + dt }).powerDue (quad / 4))

/-- VAULT_REFRESH_RATE: bandwidth only; no architectural effect (DEDUCED, log 16). -/
def execVaultRefreshRate (_stack : Nat) (s : State) : Out := .next s

end Sys2Proof.Machine
end

