-- ==== Sys2Proof/Machine/Short2.lean ====
section
/-! DEFINITION. The 2-byte forms: each is the core instruction that its expansion names, in 2 bytes (R34, Table 2.6). -/

namespace Sys2Proof.Machine

/-- NOP in 2 bytes (Table 2.6). -/
def execNop2b (d a : BitVec 5) (s : State) : Out := execNop (expand1 0 d a) s
/-- ADD in 2 bytes (Table 2.6). -/
def execAdd2b (d a : BitVec 5) (s : State) : Out := execAdd (expand2 0 d a) s
/-- SUB in 2 bytes (Table 2.6). -/
def execSub2b (d a : BitVec 5) (s : State) : Out := execSub (expand2 0 d a) s
/-- AND in 2 bytes (Table 2.6). -/
def execAnd2b (d a : BitVec 5) (s : State) : Out := execAnd (expand2 0 d a) s
/-- OR in 2 bytes (Table 2.6). -/
def execOr2b (d a : BitVec 5) (s : State) : Out := execOr (expand2 0 d a) s
/-- XOR in 2 bytes (Table 2.6). -/
def execXor2b (d a : BitVec 5) (s : State) : Out := execXor (expand2 0 d a) s
/-- ANDN in 2 bytes (Table 2.6). -/
def execAndn2b (d a : BitVec 5) (s : State) : Out := execAndn (expand2 0 d a) s
/-- SHL in 2 bytes (Table 2.6). -/
def execShl2b (d a : BitVec 5) (s : State) : Out := execShl (expand2 0 d a) s
/-- SHR in 2 bytes (Table 2.6). -/
def execShr2b (d a : BitVec 5) (s : State) : Out := execShr (expand2 0 d a) s
/-- SAR in 2 bytes (Table 2.6). -/
def execSar2b (d a : BitVec 5) (s : State) : Out := execSar (expand2 0 d a) s
/-- ROL in 2 bytes (Table 2.6). -/
def execRol2b (d a : BitVec 5) (s : State) : Out := execRol (expand2 0 d a) s
/-- MIN in 2 bytes (Table 2.6). -/
def execMin2b (d a : BitVec 5) (s : State) : Out := execMin (expand2 0 d a) s
/-- MAX in 2 bytes (Table 2.6). -/
def execMax2b (d a : BitVec 5) (s : State) : Out := execMax (expand2 0 d a) s
/-- MINN in 2 bytes (Table 2.6). -/
def execMinn2b (d a : BitVec 5) (s : State) : Out := execMinn (expand2 0 d a) s
/-- MAXN in 2 bytes (Table 2.6). -/
def execMaxn2b (d a : BitVec 5) (s : State) : Out := execMaxn (expand2 0 d a) s
/-- SLT in 2 bytes (Table 2.6). -/
def execSlt2b (d a : BitVec 5) (s : State) : Out := execSlt (expand2 0 d a) s
/-- SLTN in 2 bytes (Table 2.6). -/
def execSltn2b (d a : BitVec 5) (s : State) : Out := execSltn (expand2 0 d a) s
/-- MUL in 2 bytes (Table 2.6). -/
def execMul2b (d a : BitVec 5) (s : State) : Out := execMul (expand2 0 d a) s
/-- MULH in 2 bytes (Table 2.6). -/
def execMulh2b (d a : BitVec 5) (s : State) : Out := execMulh (expand2 0 d a) s
/-- MULHN in 2 bytes (Table 2.6). -/
def execMulhn2b (d a : BitVec 5) (s : State) : Out := execMulhn (expand2 0 d a) s
/-- DIV in 2 bytes (Table 2.6). -/
def execDiv2b (d a : BitVec 5) (s : State) : Out := execDiv (expand2 0 d a) s
/-- DIVN in 2 bytes (Table 2.6). -/
def execDivn2b (d a : BitVec 5) (s : State) : Out := execDivn (expand2 0 d a) s
/-- REM in 2 bytes (Table 2.6). -/
def execRem2b (d a : BitVec 5) (s : State) : Out := execRem (expand2 0 d a) s
/-- REMN in 2 bytes (Table 2.6). -/
def execRemn2b (d a : BitVec 5) (s : State) : Out := execRemn (expand2 0 d a) s
/-- CLZ in 2 bytes (Table 2.6). -/
def execClz2b (d a : BitVec 5) (s : State) : Out := execClz (expand1 0 d a) s
/-- CTZ in 2 bytes (Table 2.6). -/
def execCtz2b (d a : BitVec 5) (s : State) : Out := execCtz (expand1 0 d a) s
/-- POPC in 2 bytes (Table 2.6). -/
def execPopc2b (d a : BitVec 5) (s : State) : Out := execPopc (expand1 0 d a) s
/-- BREV in 2 bytes (Table 2.6). -/
def execBrev2b (d a : BitVec 5) (s : State) : Out := execBrev (expand1 0 d a) s
/-- SEXT in 2 bytes (Table 2.6). -/
def execSextI82b (d a : BitVec 5) (s : State) : Out := execSext (expand1 0 d a) s
/-- SEXT in 2 bytes (Table 2.6). -/
def execSextI162b (d a : BitVec 5) (s : State) : Out := execSext (expand1 1 d a) s
/-- SEXT in 2 bytes (Table 2.6). -/
def execSextI322b (d a : BitVec 5) (s : State) : Out := execSext (expand1 2 d a) s
/-- MOV in 2 bytes (Table 2.6). -/
def execMov2b (d a : BitVec 5) (s : State) : Out := execMov (expand1 0 d a) s

end Sys2Proof.Machine
end

