-- ==== Sys2Proof/Machine/Short4.lean ====
section
/-! DEFINITION. The 4-byte forms: each is the vector instruction that its expansion names, in 4 bytes (R35, Table 2.7). -/

namespace Sys2Proof.Machine

/-- VMOV in 4 bytes (Table 2.7). -/
def execVmov4b (d a b : BitVec 8) (s : State) : Out := execVmov (expand4 (defaultQ 0x200) false (hasFourth 0x200) d a b) s
/-- VAND in 4 bytes (Table 2.7). -/
def execVand4b (d a b : BitVec 8) (s : State) : Out := execVand (expand4 (defaultQ 0x210) false (hasFourth 0x210) d a b) s
/-- VOR in 4 bytes (Table 2.7). -/
def execVor4b (d a b : BitVec 8) (s : State) : Out := execVor (expand4 (defaultQ 0x211) false (hasFourth 0x211) d a b) s
/-- VXOR in 4 bytes (Table 2.7). -/
def execVxor4b (d a b : BitVec 8) (s : State) : Out := execVxor (expand4 (defaultQ 0x212) false (hasFourth 0x212) d a b) s
/-- VANDN in 4 bytes (Table 2.7). -/
def execVandn4b (d a b : BitVec 8) (s : State) : Out := execVandn (expand4 (defaultQ 0x213) false (hasFourth 0x213) d a b) s
/-- VADD in 4 bytes (Table 2.7). -/
def execVadd4b (d a b : BitVec 8) (s : State) : Out := execVadd (expand4 (defaultQ 0x214) false (hasFourth 0x214) d a b) s
/-- VSUB in 4 bytes (Table 2.7). -/
def execVsub4b (d a b : BitVec 8) (s : State) : Out := execVsub (expand4 (defaultQ 0x215) false (hasFourth 0x215) d a b) s
/-- VMUL in 4 bytes (Table 2.7). -/
def execVmul4b (d a b : BitVec 8) (s : State) : Out := execVmul (expand4 (defaultQ 0x21A) false (hasFourth 0x21A) d a b) s
/-- VMIN in 4 bytes (Table 2.7). -/
def execVmin4b (d a b : BitVec 8) (s : State) : Out := execVmin (expand4 (defaultQ 0x216) false (hasFourth 0x216) d a b) s
/-- VMAX in 4 bytes (Table 2.7). -/
def execVmax4b (d a b : BitVec 8) (s : State) : Out := execVmax (expand4 (defaultQ 0x217) false (hasFourth 0x217) d a b) s
/-- VMINN in 4 bytes (Table 2.7). -/
def execVminn4b (d a b : BitVec 8) (s : State) : Out := execVminn (expand4 (defaultQ 0x218) false (hasFourth 0x218) d a b) s
/-- VMAXN in 4 bytes (Table 2.7). -/
def execVmaxn4b (d a b : BitVec 8) (s : State) : Out := execVmaxn (expand4 (defaultQ 0x219) false (hasFourth 0x219) d a b) s
/-- VSHL in 4 bytes (Table 2.7). -/
def execVshl4b (d a b : BitVec 8) (s : State) : Out := execVshl (expand4 (defaultQ 0x21C) false (hasFourth 0x21C) d a b) s
/-- VSHR in 4 bytes (Table 2.7). -/
def execVshr4b (d a b : BitVec 8) (s : State) : Out := execVshr (expand4 (defaultQ 0x21D) false (hasFourth 0x21D) d a b) s
/-- VSAR in 4 bytes (Table 2.7). -/
def execVsar4b (d a b : BitVec 8) (s : State) : Out := execVsar (expand4 (defaultQ 0x21E) false (hasFourth 0x21E) d a b) s
/-- VAVG in 4 bytes (Table 2.7). -/
def execVavg4b (d a b : BitVec 8) (s : State) : Out := execVavg (expand4 (defaultQ 0x21F) false (hasFourth 0x21F) d a b) s
/-- VADD in 4 bytes (Table 2.7). -/
def execVaddI164b (d a b : BitVec 8) (s : State) : Out := execVadd (expand4 (1) false (hasFourth 0x214) d a b) s
/-- VSUB in 4 bytes (Table 2.7). -/
def execVsubI164b (d a b : BitVec 8) (s : State) : Out := execVsub (expand4 (1) false (hasFourth 0x215) d a b) s
/-- VADD in 4 bytes (Table 2.7). -/
def execVaddI84b (d a b : BitVec 8) (s : State) : Out := execVadd (expand4 (0) false (hasFourth 0x214) d a b) s
/-- VSUB in 4 bytes (Table 2.7). -/
def execVsubI84b (d a b : BitVec 8) (s : State) : Out := execVsub (expand4 (0) false (hasFourth 0x215) d a b) s
/-- VMAX in 4 bytes (Table 2.7). -/
def execVmaxI164b (d a b : BitVec 8) (s : State) : Out := execVmax (expand4 (1) false (hasFourth 0x217) d a b) s
/-- VMIN in 4 bytes (Table 2.7). -/
def execVminI164b (d a b : BitVec 8) (s : State) : Out := execVmin (expand4 (1) false (hasFourth 0x216) d a b) s
/-- VMUL in 4 bytes (Table 2.7). -/
def execVmulI164b (d a b : BitVec 8) (s : State) : Out := execVmul (expand4 (1) false (hasFourth 0x21A) d a b) s
/-- VMULH in 4 bytes (Table 2.7). -/
def execVmulhI164b (d a b : BitVec 8) (s : State) : Out := execVmulh (expand4 (1) false (hasFourth 0x21B) d a b) s
/-- VADDIN in 4 bytes (Table 2.7). -/
def execVaddin4b (d a b : BitVec 8) (s : State) : Out := execVaddin (expand4 (defaultQ 0x280) false (hasFourth 0x280) d a b) s
/-- VSUBIN in 4 bytes (Table 2.7). -/
def execVsubin4b (d a b : BitVec 8) (s : State) : Out := execVsubin (expand4 (defaultQ 0x281) false (hasFourth 0x281) d a b) s
/-- VNEGIN in 4 bytes (Table 2.7). -/
def execVnegin4b (d a b : BitVec 8) (s : State) : Out := execVnegin (expand4 (defaultQ 0x282) false (hasFourth 0x282) d a b) s
/-- VNOTIN in 4 bytes (Table 2.7). -/
def execVnotin4b (d a b : BitVec 8) (s : State) : Out := execVnotin (expand4 (defaultQ 0x283) false (hasFourth 0x283) d a b) s
/-- VSWAP in 4 bytes (Table 2.7). -/
def execVswap4b (d a b : BitVec 8) (s : State) : Out := execVswap (expand4 (defaultQ 0x290) false (hasFourth 0x290) d a b) s
/-- VPOPC in 4 bytes (Table 2.7). -/
def execVpopc4b (d a b : BitVec 8) (s : State) : Out := execVpopc (expand4 (defaultQ 0x242) false (hasFourth 0x242) d a b) s
/-- VREVL in 4 bytes (Table 2.7). -/
def execVrevl4b (d a b : BitVec 8) (s : State) : Out := execVrevl (expand4 (defaultQ 0x2A0) false (hasFourth 0x2A0) d a b) s
/-- VABS in 4 bytes (Table 2.7). -/
def execVabs4b (d a b : BitVec 8) (s : State) : Out := execVabs (expand4 (defaultQ 0x240) false (hasFourth 0x240) d a b) s
/-- VMAXK in 4 bytes (Table 2.7). -/
def execVmaxk4b (d a b : BitVec 8) (s : State) : Out := execVmaxk (expand4 (defaultQ 0x2C0) false (hasFourth 0x2C0) d a b) s
/-- VMINK in 4 bytes (Table 2.7). -/
def execVmink4b (d a b : BitVec 8) (s : State) : Out := execVmink (expand4 (defaultQ 0x2C1) false (hasFourth 0x2C1) d a b) s
/-- VMAXNK in 4 bytes (Table 2.7). -/
def execVmaxnk4b (d a b : BitVec 8) (s : State) : Out := execVmaxnk (expand4 (defaultQ 0x2C2) false (hasFourth 0x2C2) d a b) s
/-- VMINNK in 4 bytes (Table 2.7). -/
def execVminnk4b (d a b : BitVec 8) (s : State) : Out := execVminnk (expand4 (defaultQ 0x2C3) false (hasFourth 0x2C3) d a b) s
/-- VABSK in 4 bytes (Table 2.7). -/
def execVabsk4b (d a b : BitVec 8) (s : State) : Out := execVabsk (expand4 (defaultQ 0x2C4) false (hasFourth 0x2C4) d a b) s
/-- VUNCX in 4 bytes (Table 2.7). -/
def execVuncx4b (d a b : BitVec 8) (s : State) : Out := execVuncx (expand4 (defaultQ 0x2D0) false (hasFourth 0x2D0) d a b) s
/-- VUNABS in 4 bytes (Table 2.7). -/
def execVunabs4b (d a b : BitVec 8) (s : State) : Out := execVunabs (expand4 (defaultQ 0x2D1) false (hasFourth 0x2D1) d a b) s
/-- ERASE in 4 bytes (Table 2.7). -/
def execErase4b (d a b : BitVec 8) (s : State) : Out := execErase (expand4 (defaultQ 0x2F0) false (hasFourth 0x2F0) d a b) s
/-- VFADD in 4 bytes (Table 2.7). -/
def execVfadd4b (d a b : BitVec 8) (s : State) : Out := execVfadd (expand4 (defaultQ 0x400) false (hasFourth 0x400) d a b) s
/-- VFSUB in 4 bytes (Table 2.7). -/
def execVfsub4b (d a b : BitVec 8) (s : State) : Out := execVfsub (expand4 (defaultQ 0x401) false (hasFourth 0x401) d a b) s
/-- VFMUL in 4 bytes (Table 2.7). -/
def execVfmul4b (d a b : BitVec 8) (s : State) : Out := execVfmul (expand4 (defaultQ 0x402) false (hasFourth 0x402) d a b) s
/-- VFMA in 4 bytes (Table 2.7). -/
def execVfma4b (d a b : BitVec 8) (s : State) : Out := execVfma (expand4 (defaultQ 0x410) false (hasFourth 0x410) d a b) s
/-- VFMS in 4 bytes (Table 2.7). -/
def execVfms4b (d a b : BitVec 8) (s : State) : Out := execVfms (expand4 (defaultQ 0x411) false (hasFourth 0x411) d a b) s
/-- VFNMA in 4 bytes (Table 2.7). -/
def execVfnma4b (d a b : BitVec 8) (s : State) : Out := execVfnma (expand4 (defaultQ 0x412) false (hasFourth 0x412) d a b) s
/-- VFMAC in 4 bytes (Table 2.7). -/
def execVfmacE4b (d a b : BitVec 8) (s : State) : Out := execVfmac (expand4 (defaultQ 0x413) true (hasFourth 0x413) d a b) s
/-- VFMIN in 4 bytes (Table 2.7). -/
def execVfmin4b (d a b : BitVec 8) (s : State) : Out := execVfmin (expand4 (defaultQ 0x403) false (hasFourth 0x403) d a b) s
/-- VFMAX in 4 bytes (Table 2.7). -/
def execVfmax4b (d a b : BitVec 8) (s : State) : Out := execVfmax (expand4 (defaultQ 0x404) false (hasFourth 0x404) d a b) s
/-- VFDIV in 4 bytes (Table 2.7). -/
def execVfdiv4b (d a b : BitVec 8) (s : State) : Out := execVfdiv (expand4 (defaultQ 0x405) false (hasFourth 0x405) d a b) s
/-- VFSQRT in 4 bytes (Table 2.7). -/
def execVfsqrt4b (d a b : BitVec 8) (s : State) : Out := execVfsqrt (expand4 (defaultQ 0x421) false (hasFourth 0x421) d a b) s
/-- VFRCP in 4 bytes (Table 2.7). -/
def execVfrcp4b (d a b : BitVec 8) (s : State) : Out := execVfrcp (expand4 (defaultQ 0x422) false (hasFourth 0x422) d a b) s
/-- VFRSQ in 4 bytes (Table 2.7). -/
def execVfrsq4b (d a b : BitVec 8) (s : State) : Out := execVfrsq (expand4 (defaultQ 0x423) false (hasFourth 0x423) d a b) s
/-- VFEXP2 in 4 bytes (Table 2.7). -/
def execVfexp24b (d a b : BitVec 8) (s : State) : Out := execVfexp2 (expand4 (defaultQ 0x424) false (hasFourth 0x424) d a b) s
/-- VFLOG2 in 4 bytes (Table 2.7). -/
def execVflog24b (d a b : BitVec 8) (s : State) : Out := execVflog2 (expand4 (defaultQ 0x425) false (hasFourth 0x425) d a b) s
/-- VFABS in 4 bytes (Table 2.7). -/
def execVfabs4b (d a b : BitVec 8) (s : State) : Out := execVfabs (expand4 (defaultQ 0x420) false (hasFourth 0x420) d a b) s
/-- VFADD in 4 bytes (Table 2.7). -/
def execVfaddBf164b (d a b : BitVec 8) (s : State) : Out := execVfadd (expand4 (1) false (hasFourth 0x400) d a b) s
/-- VFMA in 4 bytes (Table 2.7). -/
def execVfmaBf164b (d a b : BitVec 8) (s : State) : Out := execVfma (expand4 (1) false (hasFourth 0x410) d a b) s
/-- VFNEGIN in 4 bytes (Table 2.7). -/
def execVfnegin4b (d a b : BitVec 8) (s : State) : Out := execVfnegin (expand4 (defaultQ 0x450) false (hasFourth 0x450) d a b) s
/-- VMOV in 4 bytes (Table 2.7). -/
def execVmovE4b (d a b : BitVec 8) (s : State) : Out := execVmov (expand4 (defaultQ 0x200) true (hasFourth 0x200) d a b) s
/-- VADD in 4 bytes (Table 2.7). -/
def execVaddE4b (d a b : BitVec 8) (s : State) : Out := execVadd (expand4 (defaultQ 0x214) true (hasFourth 0x214) d a b) s
/-- VFADD in 4 bytes (Table 2.7). -/
def execVfaddE4b (d a b : BitVec 8) (s : State) : Out := execVfadd (expand4 (defaultQ 0x400) true (hasFourth 0x400) d a b) s
/-- VFMUL in 4 bytes (Table 2.7). -/
def execVfmulE4b (d a b : BitVec 8) (s : State) : Out := execVfmul (expand4 (defaultQ 0x402) true (hasFourth 0x402) d a b) s
/-- VFMA in 4 bytes (Table 2.7). -/
def execVfmaE4b (d a b : BitVec 8) (s : State) : Out := execVfma (expand4 (defaultQ 0x410) true (hasFourth 0x410) d a b) s

end Sys2Proof.Machine
end

