-- ==== Sys2Proof/Machine/Time.lean ====
section
/-! DEFINITION. What a delivered cycle brings by itself (R22): the moments of a reel (R200), the end of a PHASE drain (R233), of a grace (R325) and of a wait (R103), results whose time has come (R91, R329), and a HALT with nothing left before it (R82). -/

namespace Sys2Proof.Machine

/-! ## Wait timeouts (R103, R104, R245, R331) -/

/-- The meaning of an instruction that can wait for a resource other than tokens (Table 4.10, R331). -/
def waitingMeaning (c : Code) : Option (Fields → State → Out) :=
  match c with
  | 0x002 => some execWaitc
  | 0x610 => some execMgo
  | 0x700 => some execReelon
  | 0x720 => some execCuew
  | 0x850 => some execCpy
  | 0x880 => some execSmark
  | 0xA00 => some execRngclaim
  | 0xA20 => some execRngwait
  | 0xA40 => some execBacq
  | 0xA62 => some execFlagw
  | 0xB00 => some execXput
  | 0xB10 => some execXget
  | 0xB20 => some execClstFadd
  | 0xB21 => some execClstFmax
  | 0xB22 => some execClstFmin
  | 0xB23 => some execClstIadd
  | 0xB24 => some execClstImax
  | 0xC30 => some execWfe
  | 0xD22 => some execSigWait
  | 0xE00 => some execPermit
  | _ => none

/-- The resource that a state has a sequencer wait for. -/
def State.waitsFor (s : State) (n : Nat) (q : SeqId) : Option (Nat × Word) :=
  match (s.seq n q).wait with
  | none => none
  | some w => if w.counts then some (w.kind, w.id) else none

/-- What the current sequencer's next instruction, which has waited, waits for now, if it still does: it is tried with no limit, and what that does is dropped. -/
def State.stillWaits (s : State) : Option (Nat × Word) :=
  match s.nextWord with
  | none => none
  | some (c, f) =>
    let pops := s.myCore.missingPops s.me c f
    let pushes := s.myCore.shortPushes s.me (placesOf c f)
    if pops ≠ 0 then some (0x01, BitVec.ofNat 64 pops)
    else if pushes ≠ 0 then some (0x02, BitVec.ofNat 64 pushes)
    else
      match waitingMeaning c with
      | none => none
      | some m =>
        match m f (s.modMe (fun q => { q with wait := q.wait.map (fun w => { w with exp := 64 }) })) with
        | .next t => t.waitsFor s.node s.me
        | _ => none

/-- The wait of a sequencer has reached its limit: cause 0x20, naming what the instruction still lacks at this moment. -/
def State.endWaitAt (s : State) (n : Nat) (q : SeqId) : State :=
  let t : State := { s with cur := (n, q) }
  match t.mySeq.wait with
  | none => s
  | some w =>
    if t.idle || !w.counts || !w.expired t.myCore.cycle then s
    else
      match t.stillWaits with
      | none => s
      | some (kind, id) => { t.timeOut kind id with cur := s.cur }

/-- WAIT_TIMEOUT: the wait of a sequencer has reached its limit. -/
def execWaitTimeout (node : Nat) (seq : SeqId) (s : State) : Out := .next (s.endWaitAt node seq)

/-! ## What a cycle brings -/

/-- The flights of a sequencer whose results or tokens are due retire (R91, R93). -/
def State.retireDue (s : State) (n : Nat) (q : SeqId) : State :=
  ((s.seq n q).flights.filter (fun x => !x.lands.isEmpty || x.timed)).foldl (fun t x => match execInstructionRetire n q x.tag t with | .next u => u | _ => t) s

/-- The restored results of a core that are due land (R329). -/
def State.landDue (s : State) (n : Nat) : State :=
  (s.core n).snap.foldl (fun t _ => match execSnapshotLand n t with | .next u => u | _ => t) s

/-- The drain of a bay that a core has started ends when its time has come (R233). -/
def State.drainDue (s : State) (n : Nat) : State :=
  if isDcc n || (s.bay (bayOf n)).drain.isNone then s
  else match execPhaseDrainEnd (bayOf n) s with | .next u => u | _ => s

/-- Issue stops in the cycle after a YIELD, or when the grace is over (R325). -/
def State.stopDue (s : State) (n : Nat) : State :=
  match (s.core n).notice with
  | none => s
  | some k => if (k.yielded || (s.core n).graceOver) && (s.core n).paused.isNone then s.stopIssue n else s

/-- What a core meets as a cycle begins. -/
def State.beginCycle (s : State) (n : Nat) : State :=
  let t := ((s.stopDue n).landDue n).drainDue n
  allSeqs.foldl (fun t q => ((t.retireDue n q).endHalt n q).endWaitAt n q) t

/-- The nodes of a clock domain that receive cycles. -/
def State.domainOf (s : State) (n : Nat) : List Nat := (s.cores.map (fun p => p.1)).filter (fun k => ticksWith n k && s.delivers k)

/-- One delivered cycle of the domain of node n: its reels make what the old cycle still holds, and the new one begins. -/
def State.cycle (s : State) (n : Nat) : State :=
  let t := ((s.domainOf n).filter (fun k => (s.core k).reel.isSome)).foldl State.reelCycle s
  (t.domainOf n).foldl State.beginCycle (t.tick n)

/-- Delivered cycles of the domain of node n, one after the other. -/
def State.pass (s : State) (n cycles : Nat) : State :=
  match cycles with
  | 0 => s
  | k + 1 => State.pass (s.cycle n) n k

end Sys2Proof.Machine
end

