-- ==== Sys2Proof/Machine/Dispatch.lean ====
section
/-! DEFINITION. The dispatcher: one arm for each constructor of Instr, each a direct call of that instruction's meaning. -/

namespace Sys2Proof.Machine

/-- The meaning of an instruction or event in a state. -/
def exec (i : Instr) (s : State) : Host.Outcome State Fault Refusal :=
  match i with
  | .nop f => Sys2Proof.Machine.execNop f s
  | .halt f => Sys2Proof.Machine.execHalt f s
  | .waitc f => Sys2Proof.Machine.execWaitc f s
  | .br f => Sys2Proof.Machine.execBr f s
  | .brcEq f => Sys2Proof.Machine.execBrcEq f s
  | .brcNe f => Sys2Proof.Machine.execBrcNe f s
  | .brcLt f => Sys2Proof.Machine.execBrcLt f s
  | .brcGe f => Sys2Proof.Machine.execBrcGe f s
  | .brcLtn f => Sys2Proof.Machine.execBrcLtn f s
  | .brcGen f => Sys2Proof.Machine.execBrcGen f s
  | .brcBset f => Sys2Proof.Machine.execBrcBset f s
  | .brcBclr f => Sys2Proof.Machine.execBrcBclr f s
  | .brciEq f => Sys2Proof.Machine.execBrciEq f s
  | .brciNe f => Sys2Proof.Machine.execBrciNe f s
  | .brciLt f => Sys2Proof.Machine.execBrciLt f s
  | .brciGe f => Sys2Proof.Machine.execBrciGe f s
  | .brciLtn f => Sys2Proof.Machine.execBrciLtn f s
  | .brciGen f => Sys2Proof.Machine.execBrciGen f s
  | .brciBset f => Sys2Proof.Machine.execBrciBset f s
  | .brciBclr f => Sys2Proof.Machine.execBrciBclr f s
  | .loop f => Sys2Proof.Machine.execLoop f s
  | .call f => Sys2Proof.Machine.execCall f s
  | .jmpr f => Sys2Proof.Machine.execJmpr f s
  | .callr f => Sys2Proof.Machine.execCallr f s
  | .ret f => Sys2Proof.Machine.execRet f s
  | .add f => Sys2Proof.Machine.execAdd f s
  | .sub f => Sys2Proof.Machine.execSub f s
  | .and f => Sys2Proof.Machine.execAnd f s
  | .or f => Sys2Proof.Machine.execOr f s
  | .xor f => Sys2Proof.Machine.execXor f s
  | .andn f => Sys2Proof.Machine.execAndn f s
  | .shl f => Sys2Proof.Machine.execShl f s
  | .shr f => Sys2Proof.Machine.execShr f s
  | .sar f => Sys2Proof.Machine.execSar f s
  | .rol f => Sys2Proof.Machine.execRol f s
  | .min f => Sys2Proof.Machine.execMin f s
  | .max f => Sys2Proof.Machine.execMax f s
  | .minn f => Sys2Proof.Machine.execMinn f s
  | .maxn f => Sys2Proof.Machine.execMaxn f s
  | .slt f => Sys2Proof.Machine.execSlt f s
  | .sltn f => Sys2Proof.Machine.execSltn f s
  | .addi f => Sys2Proof.Machine.execAddi f s
  | .subi f => Sys2Proof.Machine.execSubi f s
  | .andi f => Sys2Proof.Machine.execAndi f s
  | .ori f => Sys2Proof.Machine.execOri f s
  | .xori f => Sys2Proof.Machine.execXori f s
  | .andni f => Sys2Proof.Machine.execAndni f s
  | .shli f => Sys2Proof.Machine.execShli f s
  | .shri f => Sys2Proof.Machine.execShri f s
  | .sari f => Sys2Proof.Machine.execSari f s
  | .roli f => Sys2Proof.Machine.execRoli f s
  | .mini f => Sys2Proof.Machine.execMini f s
  | .maxi f => Sys2Proof.Machine.execMaxi f s
  | .minni f => Sys2Proof.Machine.execMinni f s
  | .maxni f => Sys2Proof.Machine.execMaxni f s
  | .slti f => Sys2Proof.Machine.execSlti f s
  | .sltni f => Sys2Proof.Machine.execSltni f s
  | .mul f => Sys2Proof.Machine.execMul f s
  | .mulh f => Sys2Proof.Machine.execMulh f s
  | .mulhn f => Sys2Proof.Machine.execMulhn f s
  | .div f => Sys2Proof.Machine.execDiv f s
  | .divn f => Sys2Proof.Machine.execDivn f s
  | .rem f => Sys2Proof.Machine.execRem f s
  | .remn f => Sys2Proof.Machine.execRemn f s
  | .clz f => Sys2Proof.Machine.execClz f s
  | .ctz f => Sys2Proof.Machine.execCtz f s
  | .popc f => Sys2Proof.Machine.execPopc f s
  | .brev f => Sys2Proof.Machine.execBrev f s
  | .sext f => Sys2Proof.Machine.execSext f s
  | .zext f => Sys2Proof.Machine.execZext f s
  | .sel f => Sys2Proof.Machine.execSel f s
  | .li f => Sys2Proof.Machine.execLi f s
  | .lui f => Sys2Proof.Machine.execLui f s
  | .mov f => Sys2Proof.Machine.execMov f s
  | .mfs f => Sys2Proof.Machine.execMfs f s
  | .mts f => Sys2Proof.Machine.execMts f s
  | .lds f => Sys2Proof.Machine.execLds f s
  | .sts f => Sys2Proof.Machine.execSts f s
  | .tokw f => Sys2Proof.Machine.execTokw f s
  | .toks f => Sys2Proof.Machine.execToks f s
  | .nop2b d a => Sys2Proof.Machine.execNop2b d a s
  | .add2b d a => Sys2Proof.Machine.execAdd2b d a s
  | .sub2b d a => Sys2Proof.Machine.execSub2b d a s
  | .and2b d a => Sys2Proof.Machine.execAnd2b d a s
  | .or2b d a => Sys2Proof.Machine.execOr2b d a s
  | .xor2b d a => Sys2Proof.Machine.execXor2b d a s
  | .andn2b d a => Sys2Proof.Machine.execAndn2b d a s
  | .shl2b d a => Sys2Proof.Machine.execShl2b d a s
  | .shr2b d a => Sys2Proof.Machine.execShr2b d a s
  | .sar2b d a => Sys2Proof.Machine.execSar2b d a s
  | .rol2b d a => Sys2Proof.Machine.execRol2b d a s
  | .min2b d a => Sys2Proof.Machine.execMin2b d a s
  | .max2b d a => Sys2Proof.Machine.execMax2b d a s
  | .minn2b d a => Sys2Proof.Machine.execMinn2b d a s
  | .maxn2b d a => Sys2Proof.Machine.execMaxn2b d a s
  | .slt2b d a => Sys2Proof.Machine.execSlt2b d a s
  | .sltn2b d a => Sys2Proof.Machine.execSltn2b d a s
  | .mul2b d a => Sys2Proof.Machine.execMul2b d a s
  | .mulh2b d a => Sys2Proof.Machine.execMulh2b d a s
  | .mulhn2b d a => Sys2Proof.Machine.execMulhn2b d a s
  | .div2b d a => Sys2Proof.Machine.execDiv2b d a s
  | .divn2b d a => Sys2Proof.Machine.execDivn2b d a s
  | .rem2b d a => Sys2Proof.Machine.execRem2b d a s
  | .remn2b d a => Sys2Proof.Machine.execRemn2b d a s
  | .clz2b d a => Sys2Proof.Machine.execClz2b d a s
  | .ctz2b d a => Sys2Proof.Machine.execCtz2b d a s
  | .popc2b d a => Sys2Proof.Machine.execPopc2b d a s
  | .brev2b d a => Sys2Proof.Machine.execBrev2b d a s
  | .sextI82b d a => Sys2Proof.Machine.execSextI82b d a s
  | .sextI162b d a => Sys2Proof.Machine.execSextI162b d a s
  | .sextI322b d a => Sys2Proof.Machine.execSextI322b d a s
  | .mov2b d a => Sys2Proof.Machine.execMov2b d a s
  | .vmov f => Sys2Proof.Machine.execVmov f s
  | .vand f => Sys2Proof.Machine.execVand f s
  | .vor f => Sys2Proof.Machine.execVor f s
  | .vxor f => Sys2Proof.Machine.execVxor f s
  | .vandn f => Sys2Proof.Machine.execVandn f s
  | .vadd f => Sys2Proof.Machine.execVadd f s
  | .vsub f => Sys2Proof.Machine.execVsub f s
  | .vmin f => Sys2Proof.Machine.execVmin f s
  | .vmax f => Sys2Proof.Machine.execVmax f s
  | .vminn f => Sys2Proof.Machine.execVminn f s
  | .vmaxn f => Sys2Proof.Machine.execVmaxn f s
  | .vmul f => Sys2Proof.Machine.execVmul f s
  | .vmulh f => Sys2Proof.Machine.execVmulh f s
  | .vshl f => Sys2Proof.Machine.execVshl f s
  | .vshr f => Sys2Proof.Machine.execVshr f s
  | .vsar f => Sys2Proof.Machine.execVsar f s
  | .vavg f => Sys2Proof.Machine.execVavg f s
  | .vcmpEq f => Sys2Proof.Machine.execVcmpEq f s
  | .vcmpNe f => Sys2Proof.Machine.execVcmpNe f s
  | .vcmpLt f => Sys2Proof.Machine.execVcmpLt f s
  | .vcmpGe f => Sys2Proof.Machine.execVcmpGe f s
  | .vcmpLtn f => Sys2Proof.Machine.execVcmpLtn f s
  | .vcmpGen f => Sys2Proof.Machine.execVcmpGen f s
  | .vsel f => Sys2Proof.Machine.execVsel f s
  | .vabs f => Sys2Proof.Machine.execVabs f s
  | .vclz f => Sys2Proof.Machine.execVclz f s
  | .vpopc f => Sys2Proof.Machine.execVpopc f s
  | .vredAdd f => Sys2Proof.Machine.execVredAdd f s
  | .vredMin f => Sys2Proof.Machine.execVredMin f s
  | .vredMax f => Sys2Proof.Machine.execVredMax f s
  | .vredMinn f => Sys2Proof.Machine.execVredMinn f s
  | .vredMaxn f => Sys2Proof.Machine.execVredMaxn f s
  | .vredAnd f => Sys2Proof.Machine.execVredAnd f s
  | .vredOr f => Sys2Proof.Machine.execVredOr f s
  | .vredXor f => Sys2Proof.Machine.execVredXor f s
  | .vaddin f => Sys2Proof.Machine.execVaddin f s
  | .vsubin f => Sys2Proof.Machine.execVsubin f s
  | .vnegin f => Sys2Proof.Machine.execVnegin f s
  | .vnotin f => Sys2Proof.Machine.execVnotin f s
  | .vrotin f => Sys2Proof.Machine.execVrotin f s
  | .vmulin f => Sys2Proof.Machine.execVmulin f s
  | .vbrevin f => Sys2Proof.Machine.execVbrevin f s
  | .vswap f => Sys2Proof.Machine.execVswap f s
  | .vcswap f => Sys2Proof.Machine.execVcswap f s
  | .vrevl f => Sys2Proof.Machine.execVrevl f s
  | .vrotl f => Sys2Proof.Machine.execVrotl f s
  | .vbfly f => Sys2Proof.Machine.execVbfly f s
  | .vmaxk f => Sys2Proof.Machine.execVmaxk f s
  | .vmink f => Sys2Proof.Machine.execVmink f s
  | .vmaxnk f => Sys2Proof.Machine.execVmaxnk f s
  | .vminnk f => Sys2Proof.Machine.execVminnk f s
  | .vabsk f => Sys2Proof.Machine.execVabsk f s
  | .vuncx f => Sys2Proof.Machine.execVuncx f s
  | .vunabs f => Sys2Proof.Machine.execVunabs f s
  | .npush f => Sys2Proof.Machine.execNpush f s
  | .nunpush f => Sys2Proof.Machine.execNunpush f s
  | .npop f => Sys2Proof.Machine.execNpop f s
  | .ndrop f => Sys2Proof.Machine.execNdrop f s
  | .nspill f => Sys2Proof.Machine.execNspill f s
  | .nfill f => Sys2Proof.Machine.execNfill f s
  | .ndepth f => Sys2Proof.Machine.execNdepth f s
  | .erase f => Sys2Proof.Machine.execErase f s
  | .vmov4b d a b => Sys2Proof.Machine.execVmov4b d a b s
  | .vand4b d a b => Sys2Proof.Machine.execVand4b d a b s
  | .vor4b d a b => Sys2Proof.Machine.execVor4b d a b s
  | .vxor4b d a b => Sys2Proof.Machine.execVxor4b d a b s
  | .vandn4b d a b => Sys2Proof.Machine.execVandn4b d a b s
  | .vadd4b d a b => Sys2Proof.Machine.execVadd4b d a b s
  | .vsub4b d a b => Sys2Proof.Machine.execVsub4b d a b s
  | .vmul4b d a b => Sys2Proof.Machine.execVmul4b d a b s
  | .vmin4b d a b => Sys2Proof.Machine.execVmin4b d a b s
  | .vmax4b d a b => Sys2Proof.Machine.execVmax4b d a b s
  | .vminn4b d a b => Sys2Proof.Machine.execVminn4b d a b s
  | .vmaxn4b d a b => Sys2Proof.Machine.execVmaxn4b d a b s
  | .vshl4b d a b => Sys2Proof.Machine.execVshl4b d a b s
  | .vshr4b d a b => Sys2Proof.Machine.execVshr4b d a b s
  | .vsar4b d a b => Sys2Proof.Machine.execVsar4b d a b s
  | .vavg4b d a b => Sys2Proof.Machine.execVavg4b d a b s
  | .vaddI164b d a b => Sys2Proof.Machine.execVaddI164b d a b s
  | .vsubI164b d a b => Sys2Proof.Machine.execVsubI164b d a b s
  | .vaddI84b d a b => Sys2Proof.Machine.execVaddI84b d a b s
  | .vsubI84b d a b => Sys2Proof.Machine.execVsubI84b d a b s
  | .vmaxI164b d a b => Sys2Proof.Machine.execVmaxI164b d a b s
  | .vminI164b d a b => Sys2Proof.Machine.execVminI164b d a b s
  | .vmulI164b d a b => Sys2Proof.Machine.execVmulI164b d a b s
  | .vmulhI164b d a b => Sys2Proof.Machine.execVmulhI164b d a b s
  | .vaddin4b d a b => Sys2Proof.Machine.execVaddin4b d a b s
  | .vsubin4b d a b => Sys2Proof.Machine.execVsubin4b d a b s
  | .vnegin4b d a b => Sys2Proof.Machine.execVnegin4b d a b s
  | .vnotin4b d a b => Sys2Proof.Machine.execVnotin4b d a b s
  | .vswap4b d a b => Sys2Proof.Machine.execVswap4b d a b s
  | .vpopc4b d a b => Sys2Proof.Machine.execVpopc4b d a b s
  | .vrevl4b d a b => Sys2Proof.Machine.execVrevl4b d a b s
  | .vabs4b d a b => Sys2Proof.Machine.execVabs4b d a b s
  | .vmaxk4b d a b => Sys2Proof.Machine.execVmaxk4b d a b s
  | .vmink4b d a b => Sys2Proof.Machine.execVmink4b d a b s
  | .vmaxnk4b d a b => Sys2Proof.Machine.execVmaxnk4b d a b s
  | .vminnk4b d a b => Sys2Proof.Machine.execVminnk4b d a b s
  | .vabsk4b d a b => Sys2Proof.Machine.execVabsk4b d a b s
  | .vuncx4b d a b => Sys2Proof.Machine.execVuncx4b d a b s
  | .vunabs4b d a b => Sys2Proof.Machine.execVunabs4b d a b s
  | .erase4b d a b => Sys2Proof.Machine.execErase4b d a b s
  | .vfadd4b d a b => Sys2Proof.Machine.execVfadd4b d a b s
  | .vfsub4b d a b => Sys2Proof.Machine.execVfsub4b d a b s
  | .vfmul4b d a b => Sys2Proof.Machine.execVfmul4b d a b s
  | .vfma4b d a b => Sys2Proof.Machine.execVfma4b d a b s
  | .vfms4b d a b => Sys2Proof.Machine.execVfms4b d a b s
  | .vfnma4b d a b => Sys2Proof.Machine.execVfnma4b d a b s
  | .vfmacE4b d a b => Sys2Proof.Machine.execVfmacE4b d a b s
  | .vfmin4b d a b => Sys2Proof.Machine.execVfmin4b d a b s
  | .vfmax4b d a b => Sys2Proof.Machine.execVfmax4b d a b s
  | .vfdiv4b d a b => Sys2Proof.Machine.execVfdiv4b d a b s
  | .vfsqrt4b d a b => Sys2Proof.Machine.execVfsqrt4b d a b s
  | .vfrcp4b d a b => Sys2Proof.Machine.execVfrcp4b d a b s
  | .vfrsq4b d a b => Sys2Proof.Machine.execVfrsq4b d a b s
  | .vfexp24b d a b => Sys2Proof.Machine.execVfexp24b d a b s
  | .vflog24b d a b => Sys2Proof.Machine.execVflog24b d a b s
  | .vfabs4b d a b => Sys2Proof.Machine.execVfabs4b d a b s
  | .vfaddBf164b d a b => Sys2Proof.Machine.execVfaddBf164b d a b s
  | .vfmaBf164b d a b => Sys2Proof.Machine.execVfmaBf164b d a b s
  | .vfnegin4b d a b => Sys2Proof.Machine.execVfnegin4b d a b s
  | .vmovE4b d a b => Sys2Proof.Machine.execVmovE4b d a b s
  | .vaddE4b d a b => Sys2Proof.Machine.execVaddE4b d a b s
  | .vfaddE4b d a b => Sys2Proof.Machine.execVfaddE4b d a b s
  | .vfmulE4b d a b => Sys2Proof.Machine.execVfmulE4b d a b s
  | .vfmaE4b d a b => Sys2Proof.Machine.execVfmaE4b d a b s
  | .vfadd f => Sys2Proof.Machine.execVfadd f s
  | .vfsub f => Sys2Proof.Machine.execVfsub f s
  | .vfmul f => Sys2Proof.Machine.execVfmul f s
  | .vfmin f => Sys2Proof.Machine.execVfmin f s
  | .vfmax f => Sys2Proof.Machine.execVfmax f s
  | .vfdiv f => Sys2Proof.Machine.execVfdiv f s
  | .vfscale f => Sys2Proof.Machine.execVfscale f s
  | .vfcopysign f => Sys2Proof.Machine.execVfcopysign f s
  | .vfma f => Sys2Proof.Machine.execVfma f s
  | .vfms f => Sys2Proof.Machine.execVfms f s
  | .vfnma f => Sys2Proof.Machine.execVfnma f s
  | .vfmac f => Sys2Proof.Machine.execVfmac f s
  | .vfabs f => Sys2Proof.Machine.execVfabs f s
  | .vfsqrt f => Sys2Proof.Machine.execVfsqrt f s
  | .vfrcp f => Sys2Proof.Machine.execVfrcp f s
  | .vfrsq f => Sys2Proof.Machine.execVfrsq f s
  | .vfexp2 f => Sys2Proof.Machine.execVfexp2 f s
  | .vflog2 f => Sys2Proof.Machine.execVflog2 f s
  | .vffloor f => Sys2Proof.Machine.execVffloor f s
  | .vfceil f => Sys2Proof.Machine.execVfceil f s
  | .vftrunc f => Sys2Proof.Machine.execVftrunc f s
  | .vfrint f => Sys2Proof.Machine.execVfrint f s
  | .vfclass f => Sys2Proof.Machine.execVfclass f s
  | .vfcmpEq f => Sys2Proof.Machine.execVfcmpEq f s
  | .vfcmpNe f => Sys2Proof.Machine.execVfcmpNe f s
  | .vfcmpLt f => Sys2Proof.Machine.execVfcmpLt f s
  | .vfcmpLe f => Sys2Proof.Machine.execVfcmpLe f s
  | .vfcmpGt f => Sys2Proof.Machine.execVfcmpGt f s
  | .vfcmpGe f => Sys2Proof.Machine.execVfcmpGe f s
  | .vfcmpUnord f => Sys2Proof.Machine.execVfcmpUnord f s
  | .vfcmpOrd f => Sys2Proof.Machine.execVfcmpOrd f s
  | .vfredAdd f => Sys2Proof.Machine.execVfredAdd f s
  | .vfredMax f => Sys2Proof.Machine.execVfredMax f s
  | .vfredMin f => Sys2Proof.Machine.execVfredMin f s
  | .vfredAmax f => Sys2Proof.Machine.execVfredAmax f s
  | .vfnegin f => Sys2Proof.Machine.execVfnegin f s
  | .vcvt f => Sys2Proof.Machine.execVcvt f s
  | .vqnt f => Sys2Proof.Machine.execVqnt f s
  | .vdqnt f => Sys2Proof.Machine.execVdqnt f s
  | .vscl f => Sys2Proof.Machine.execVscl f s
  | .vpack f => Sys2Proof.Machine.execVpack f s
  | .vunpk f => Sys2Proof.Machine.execVunpk f s
  | .vsplit f => Sys2Proof.Machine.execVsplit f s
  | .mtt f => Sys2Proof.Machine.execMtt f s
  | .mgo f => Sys2Proof.Machine.execMgo f s
  | .mabort f => Sys2Proof.Machine.execMabort f s
  | .mma f => Sys2Proof.Machine.execMma f s
  | .mlda f => Sys2Proof.Machine.execMlda f s
  | .wswap f => Sys2Proof.Machine.execWswap f s
  | .adrn f => Sys2Proof.Machine.execAdrn f s
  | .aclr f => Sys2Proof.Machine.execAclr f s
  | .reelon f => Sys2Proof.Machine.execReelon f s
  | .reeloff f => Sys2Proof.Machine.execReeloff f s
  | .cuew f => Sys2Proof.Machine.execCuew f s
  | .cuedone f => Sys2Proof.Machine.execCuedone f s
  | .cuepoll f => Sys2Proof.Machine.execCuepoll f s
  | .hgdef f => Sys2Proof.Machine.execHgdef f s
  | .hgl f => Sys2Proof.Machine.execHgl f s
  | .hgsDet f => Sys2Proof.Machine.execHgsDet f s
  | .hgsRel f => Sys2Proof.Machine.execHgsRel f s
  | .hgw f => Sys2Proof.Machine.execHgw f s
  | .vldUnit f => Sys2Proof.Machine.execVldUnit f s
  | .vldStrd f => Sys2Proof.Machine.execVldStrd f s
  | .vldGath f => Sys2Proof.Machine.execVldGath f s
  | .vstUnit f => Sys2Proof.Machine.execVstUnit f s
  | .vstStrd f => Sys2Proof.Machine.execVstStrd f s
  | .vstScat f => Sys2Proof.Machine.execVstScat f s
  | .tld f => Sys2Proof.Machine.execTld f s
  | .tst f => Sys2Proof.Machine.execTst f s
  | .sdef f => Sys2Proof.Machine.execSdef f s
  | .cpy f => Sys2Proof.Machine.execCpy f s
  | .cpyw f => Sys2Proof.Machine.execCpyw f s
  | .pref f => Sys2Proof.Machine.execPref f s
  | .smark f => Sys2Proof.Machine.execSmark f s
  | .phase f => Sys2Proof.Machine.execPhase f s
  | .vaultf f => Sys2Proof.Machine.execVaultf f s
  | .rngclaim f => Sys2Proof.Machine.execRngclaim f s
  | .rngfill f => Sys2Proof.Machine.execRngfill f s
  | .rngwait f => Sys2Proof.Machine.execRngwait f s
  | .rngfree f => Sys2Proof.Machine.execRngfree f s
  | .bacq f => Sys2Proof.Machine.execBacq f s
  | .brel f => Sys2Proof.Machine.execBrel f s
  | .rfadd f => Sys2Proof.Machine.execRfadd f s
  | .mfset f => Sys2Proof.Machine.execMfset f s
  | .flagw f => Sys2Proof.Machine.execFlagw f s
  | .flagclr f => Sys2Proof.Machine.execFlagclr f s
  | .flagrd f => Sys2Proof.Machine.execFlagrd f s
  | .fence f => Sys2Proof.Machine.execFence f s
  | .atomAdd f => Sys2Proof.Machine.execAtomAdd f s
  | .atomAnd f => Sys2Proof.Machine.execAtomAnd f s
  | .atomOr f => Sys2Proof.Machine.execAtomOr f s
  | .atomXor f => Sys2Proof.Machine.execAtomXor f s
  | .atomMin f => Sys2Proof.Machine.execAtomMin f s
  | .atomMax f => Sys2Proof.Machine.execAtomMax f s
  | .atomMinn f => Sys2Proof.Machine.execAtomMinn f s
  | .atomMaxn f => Sys2Proof.Machine.execAtomMaxn f s
  | .atomXchg f => Sys2Proof.Machine.execAtomXchg f s
  | .atomCas f => Sys2Proof.Machine.execAtomCas f s
  | .atomFadd f => Sys2Proof.Machine.execAtomFadd f s
  | .atomFmin f => Sys2Proof.Machine.execAtomFmin f s
  | .atomFmax f => Sys2Proof.Machine.execAtomFmax f s
  | .vatomAdd f => Sys2Proof.Machine.execVatomAdd f s
  | .vatomAnd f => Sys2Proof.Machine.execVatomAnd f s
  | .vatomOr f => Sys2Proof.Machine.execVatomOr f s
  | .vatomXor f => Sys2Proof.Machine.execVatomXor f s
  | .vatomMin f => Sys2Proof.Machine.execVatomMin f s
  | .vatomMax f => Sys2Proof.Machine.execVatomMax f s
  | .vatomMinn f => Sys2Proof.Machine.execVatomMinn f s
  | .vatomMaxn f => Sys2Proof.Machine.execVatomMaxn f s
  | .vatomXchg f => Sys2Proof.Machine.execVatomXchg f s
  | .vatomCas f => Sys2Proof.Machine.execVatomCas f s
  | .vatomFadd f => Sys2Proof.Machine.execVatomFadd f s
  | .vatomFmin f => Sys2Proof.Machine.execVatomFmin f s
  | .vatomFmax f => Sys2Proof.Machine.execVatomFmax f s
  | .scopeset f => Sys2Proof.Machine.execScopeset f s
  | .xput f => Sys2Proof.Machine.execXput f s
  | .xget f => Sys2Proof.Machine.execXget f s
  | .clstFadd f => Sys2Proof.Machine.execClstFadd f s
  | .clstFmax f => Sys2Proof.Machine.execClstFmax f s
  | .clstFmin f => Sys2Proof.Machine.execClstFmin f s
  | .clstIadd f => Sys2Proof.Machine.execClstIadd f s
  | .clstImax f => Sys2Proof.Machine.execClstImax f s
  | .trap f => Sys2Proof.Machine.execTrap f s
  | .eret f => Sys2Proof.Machine.execEret f s
  | .brk f => Sys2Proof.Machine.execBrk f s
  | .wfe f => Sys2Proof.Machine.execWfe f s
  | .evsig f => Sys2Proof.Machine.execEvsig f s
  | .synci f => Sys2Proof.Machine.execSynci f s
  | .tlbi f => Sys2Proof.Machine.execTlbi f s
  | .csave f => Sys2Proof.Machine.execCsave f s
  | .crest f => Sys2Proof.Machine.execCrest f s
  | .mfp f => Sys2Proof.Machine.execMfp f s
  | .mtp f => Sys2Proof.Machine.execMtp f s
  | .yield f => Sys2Proof.Machine.execYield f s
  | .krun f => Sys2Proof.Machine.execKrun f s
  | .strm f => Sys2Proof.Machine.execStrm f s
  | .sigAdd f => Sys2Proof.Machine.execSigAdd f s
  | .sigSet f => Sys2Proof.Machine.execSigSet f s
  | .sigWait f => Sys2Proof.Machine.execSigWait f s
  | .kabort f => Sys2Proof.Machine.execKabort f s
  | .stkmap f => Sys2Proof.Machine.execStkmap f s
  | .permit f => Sys2Proof.Machine.execPermit f s
  | .prel f => Sys2Proof.Machine.execPrel f s
  | .lease f => Sys2Proof.Machine.execLease f s
  | .opset f => Sys2Proof.Machine.execOpset f s
  | .gate f => Sys2Proof.Machine.execGate f s
  | .icacheFill node pc => Sys2Proof.Machine.execIcacheFill node pc s
  | .instructionRetire node seq tag => Sys2Proof.Machine.execInstructionRetire node seq tag s
  | .waitTimeout node seq => Sys2Proof.Machine.execWaitTimeout node seq s
  | .hardwareBreakpoint node seq => Sys2Proof.Machine.execHardwareBreakpoint node seq s
  | .accessPerform node seq path => Sys2Proof.Machine.execAccessPerform node seq path s
  | .pageWalk node va => Sys2Proof.Machine.execPageWalk node va s
  | .copyChunk node seq => Sys2Proof.Machine.execCopyChunk node seq s
  | .nestPass node => Sys2Proof.Machine.execNestPass node s
  | .permitGrant quad => Sys2Proof.Machine.execPermitGrant quad s
  | .permitLeaseExpiry quad => Sys2Proof.Machine.execPermitLeaseExpiry quad s
  | .boostLeaseExpiry node => Sys2Proof.Machine.execBoostLeaseExpiry node s
  | .fillCueSend node => Sys2Proof.Machine.execFillCueSend node s
  | .drainCueSend node => Sys2Proof.Machine.execDrainCueSend node s
  | .cueDeliver node => Sys2Proof.Machine.execCueDeliver node s
  | .beatStart node => Sys2Proof.Machine.execBeatStart node s
  | .beatSlotRead node => Sys2Proof.Machine.execBeatSlotRead node s
  | .reelPromotion node => Sys2Proof.Machine.execReelPromotion node s
  | .beatMiss node => Sys2Proof.Machine.execBeatMiss node s
  | .holdCheck node => Sys2Proof.Machine.execHoldCheck node s
  | .cuedoneArrive node => Sys2Proof.Machine.execCuedoneArrive node s
  | .reeloffEffect node => Sys2Proof.Machine.execReeloffEffect node s
  | .reelEnd node => Sys2Proof.Machine.execReelEnd node s
  | .reelSuspend node => Sys2Proof.Machine.execReelSuspend node s
  | .phaseDrainEnd bay => Sys2Proof.Machine.execPhaseDrainEnd bay s
  | .clstCombine node => Sys2Proof.Machine.execClstCombine node s
  | .remoteRequestArrive node seq => Sys2Proof.Machine.execRemoteRequestArrive node seq s
  | .eventDeliver node seq => Sys2Proof.Machine.execEventDeliver node seq s
  | .preemptGraceEnd node => Sys2Proof.Machine.execPreemptGraceEnd node s
  | .snapshotLand node => Sys2Proof.Machine.execSnapshotLand node s
  | .entryIssue stack entry => Sys2Proof.Machine.execEntryIssue stack entry s
  | .entryPromotion stack entry => Sys2Proof.Machine.execEntryPromotion stack entry s
  | .kernelFinish stack entry => Sys2Proof.Machine.execKernelFinish stack entry s
  | .mboxWrite box value => Sys2Proof.Machine.execMboxWrite box value s
  | .hostTlp pkg fn addr op => Sys2Proof.Machine.execHostTlp pkg fn addr op s
  | .linkReplay pkg link => Sys2Proof.Machine.execLinkReplay pkg link s
  | .clockThrottle quad dt => Sys2Proof.Machine.execClockThrottle quad dt s
  | .vaultRefreshRate stack => Sys2Proof.Machine.execVaultRefreshRate stack s
  | .breakEvenHoldEnd stack dom => Sys2Proof.Machine.execBreakEvenHoldEnd stack dom s
  | .domainWake stack => Sys2Proof.Machine.execDomainWake stack s
  | .coldBoot pkg => Sys2Proof.Machine.execColdBoot pkg s
  | .vaultScrub pkg => Sys2Proof.Machine.execVaultScrub pkg s
  | .getMeasurements pkg nonce dcc => Sys2Proof.Machine.execGetMeasurements pkg nonce dcc s
  | .fatalError pkg source => Sys2Proof.Machine.execFatalError pkg source s
  | .fqheadWrite node value => Sys2Proof.Machine.execFqheadWrite node value s
  | .fqResetWrite node num value => Sys2Proof.Machine.execFqResetWrite node num value s
  | .rngcfgWrite node seq value => Sys2Proof.Machine.execRngcfgWrite node seq value s
  | .bufcfgWrite node seq value => Sys2Proof.Machine.execBufcfgWrite node seq value s
  | .seqctlResume node seq => Sys2Proof.Machine.execSeqctlResume node seq s
  | .seqctlKill node seq => Sys2Proof.Machine.execSeqctlKill node seq s
  | .seqctlResumeXo node seq => Sys2Proof.Machine.execSeqctlResumeXo node seq s
  | .sysregWrite node seq num value => Sys2Proof.Machine.execSysregWrite node seq num value s
  | .fabricDomainFormation pkgs => Sys2Proof.Machine.execFabricDomainFormation pkgs s

end Sys2Proof.Machine
end

