-- ==== Sys2Proof/Machine/Arbiter.lean ====
section
/-! DEFINITION. The issue of a core in one delivered cycle (R94 to R98): what a sequencer's next instruction does, when its stall hint has elapsed, which instructions are ready, and which of them the arbiter lets issue. -/

noncomputable section

namespace Sys2Proof.Machine

/-! ## One sequencer -/

/-- The current sequencer has issued, or taken a fault, in this cycle; after a trap entry issue restarts at the third cycle from now (R312). -/
def State.hasIssued (s : State) : Bool := s.mySeq.last == some s.myCore.cycle || s.mySeq.last == some (s.myCore.cycle + 3)

/-- What the fetch of an instruction from memory leaves, counted as it issues: TLBMISS, and the symbols corrected (R221, R378). -/
def State.countFetch (s t : State) : State :=
  if s.fetchesMemory && t.hasIssued then t.noteAccess s.node true 1 (s.fetchAddrs s.node s.mySeq.pc) else t

/-- What the current sequencer's next instruction does; a fetch that meets a PHASE drain stalls (R233). -/
def issueNext (s : State) : Host.Outcome State Fault Refusal :=
  if s.fetchesMemory && s.fetchDrained s.node s.mySeq.pc then .next (s.stallDrain 1)
  else
    match s.fetched with
    | .word i _ =>
      match exec i s with
      | .next t => .next (s.countFetch t)
      | o => o
    | .undefinedOp _ => .next (s.countFetch (s.takeFault 0x01 0))
    | .marked cause straddle a => .next (s.countFetch (s.takeMark cause straddle a))

/-- The current sequencer moves by itself: nothing while it is idle, a reel's moment that may abort it before CP, what comes before an instruction, or its next instruction once its hint has elapsed. -/
def runCurrent (s : State) : Host.Outcome State Fault Refusal :=
  if s.idle then .next s
  else
    let s := s.reelJudged s.node s.me
    match s.before with
    | some t => .next t
    | none => if s.hintElapsed then issueNext s else .next s

/-! ## The arbiter -/

/-- The state with another current sequencer. -/
def State.as (s : State) (n : Nat) (q : SeqId) : State := { s with cur := (n, q) }

/-- What follows an outcome. -/
def andThen (o : Host.Outcome State Fault Refusal) (k : State → Host.Outcome State Fault Refusal) : Host.Outcome State Fault Refusal :=
  match o with
  | .next s => k s
  | o => o

/-- Something for each of several sequencers, one after the other. -/
def eachSeq (l : List SeqId) (k : SeqId → State → Host.Outcome State Fault Refusal) (s : State) : Host.Outcome State Fault Refusal :=
  match l with
  | [] => .next s
  | q :: r => andThen (k q s) (eachSeq r k)

/-- The next instruction of a sequencer would issue in this cycle: the sequencer is not idle, its hint has elapsed, and the instruction waits and stalls on nothing. -/
def State.wouldIssue (s : State) (n : Nat) (q : SeqId) : Bool :=
  !(s.as n q).idle && (s.as n q).hintElapsed && !(s.as n q).hasIssued &&
    (match issueNext (s.as n q) with
     | .next t => t.hasIssued
     | _ => true)

/-- It is ready (R94): it would issue, and the scoreboard and its execution unit, which the schedule speaks for, accept it. An SMARK uses no slot of the arbiter (R244). -/
def State.isReady (s : State) (n : Nat) (accept : BitVec 4) (q : SeqId) : Bool :=
  accept.getLsbD (seqNum q) && !(s.as n q).nextIsMark && s.wouldIssue n q

/-- ROLE of a sequencer, and whether its instruction is promoted: its age has reached AGELIM (R95). -/
def State.role (s : State) (n : Nat) (q : SeqId) : Nat := (s.readSeqReg n q 0x001).toNat
def State.promoted (s : State) (n : Nat) (q : SeqId) : Bool := decide (((s.core n).sysreg 0x007).toNat ≤ (s.seq n q).age)

/-- Sequencer a ranks before b: promoted ones first, the oldest first; then by ROLE; then by number (R95). -/
def State.ranks (s : State) (n : Nat) (a b : SeqId) : Bool :=
  let number := decide (seqNum a < seqNum b)
  if s.promoted n a && s.promoted n b then decide ((s.seq n b).age < (s.seq n a).age) || ((s.seq n a).age == (s.seq n b).age && number)
  else if s.promoted n a || s.promoted n b then s.promoted n a
  else decide (s.role n a < s.role n b) || (s.role n a == s.role n b && number)

/-- The instructions that issue: the ready ones before which at most one other ranks (R94). -/
def State.picks (s : State) (n : Nat) (ready : List SeqId) : List SeqId :=
  ready.filter (fun q => decide ((ready.filter (fun p => s.ranks n p q)).length < 2))

/-- A ready instruction that does not issue is older by a cycle, and waits for nothing (R95, R103); where rings serve in order it keeps its place (R279, R281). -/
def Seq.passedOver (q : Seq) : Seq := { q with age := q.age + 1, wait := q.wait.bind Wait.passed }

/-- What an instruction waits for as a cycle begins is what it waits for in that cycle, also where a lower sequencer gives it free in the cycle: its wait begins, its request for a permit is made, with the release of the explicit permit that the request replaces (R356), and its place in a line is taken (R103, R279, R352). -/
def State.noteWait (began : State) (n : Nat) (q : SeqId) (s : State) : State :=
  match issueNext (began.as n q) with
  | .next v =>
    let asks := (v.quad (quadOf n)).asks.filter (fun p => p.mine n q && !(s.quad (quadOf n)).asks.any (fun g => g.mine n q))
    let r := if (s.seq n q).holdsPermit && !(v.seq n q).holdsPermit then s.dropExplicit n q else s
    let t := (asks.foldl (fun t p => t.addAsk (quadOf n) p) r).modSeq n q (fun k => { k with wait := (v.seq n q).wait })
    let b := t.bay (bayOf n)
    if (v.bay (bayOf n)).line.contains (n, q) && !b.line.contains (n, q) then t.setBay (bayOf n) { b with line := b.line ++ [(n, q)] } else t
  | _ => s

/-- Sequencer q moves in a cycle whose state and ready instructions, as it began, are these: it issues if it was picked, and grows older if it was only ready. One that the scoreboard or its unit does not accept waits for nothing (R103). Any other records what it waits for; only an SMARK whose set is complete may issue then (R244), and one that became ready after the cycle began waits in this cycle as it began to. -/
def State.moveSeq (began : State) (n : Nat) (accept : BitVec 4) (ready picks : List SeqId) (q : SeqId) (s : State) : Host.Outcome State Fault Refusal :=
  let t := s.as n q
  if t.idle || !t.hintElapsed then .next s
  else if picks.contains q then issueNext t
  else if ready.contains q then .next (s.modSeq n q Seq.passedOver)
  else if !accept.getLsbD (seqNum q) then .next { t.endWait with cur := s.cur }
  else andThen (issueNext t) (fun u => if u.hasIssued && !t.nextIsMark then .next (State.noteWait began n q s) else .next u)

/-- What comes before an instruction of sequencer q is taken, after a reel's moment that may abort it; it uses no slot of the arbiter. -/
def State.beforeSeq (n : Nat) (q : SeqId) (s : State) : Host.Outcome State Fault Refusal :=
  if (s.as n q).idle then .next s else .next (((s.reelJudged n q).as n q).before.getD (s.reelJudged n q))

/-- The sequencers of a node. -/
def seqsOf (n : Nat) : List SeqId := if isDcc n then [.ld] else allSeqs

/-- The instructions of a node move in a cycle, in the order of their sequencers, so that of two writes the lower sequencer's lands first (R86, R94). -/
def State.moveAll (n : Nat) (accept : BitVec 4) (s : State) : Host.Outcome State Fault Refusal :=
  let ready := (seqsOf n).filter (s.isReady n accept)
  eachSeq (seqsOf n) (State.moveSeq s n accept ready (s.picks n ready)) s

/-- The lowest node that can still arbitrate in this cycle of node n's domain, and the state in which n has done so. -/
def State.turnOf (s : State) (n : Nat) : Nat := if isDcc n then (s.stack (stackOf n)).turn else (s.quad (quadOf n)).turn
def State.turnTaken (s : State) (n : Nat) : State :=
  if isDcc n then s.setStack (stackOf n) { s.stack (stackOf n) with turn := n + 1 }
  else s.setQuad (quadOf n) { s.quad (quadOf n) with turn := n + 1 }

/-- The arbitration of a node in this cycle: once, and not after that of a higher node of its domain, so that what the cores of a quadrant do in one cycle is ordered by their numbers (R94, R279, R338, R352). -/
def arbitrate (n : Nat) (accept : BitVec 4) (s : State) : Host.Outcome State Fault Refusal :=
  if n < s.turnOf n then .next s
  else
    andThen (eachSeq (seqsOf n) (State.beforeSeq n) (s.turnTaken n)) (fun t =>
      andThen (State.moveAll n accept t) (fun u => .next { u with cur := s.cur }))

end Sys2Proof.Machine

end
end

