-- ==== Sys2Proof/Machine/Step.lean ====
section
/-! DEFINITION. One step: the schedule's next turn, or one delivered cycle and an instruction of the current sequencer where the schedule is empty. -/

noncomputable section

namespace Sys2Proof.Machine

/-- Time passes for node n: delivered cycles of its domain, and cycles of its stack's control clock, with what falls due on it (R361). -/
def State.elapse (s : State) (n cycles ctrl : Nat) : State := ((s.pass n cycles).tickControl n ctrl).powerDue (stackOf n)

/-- One step. -/
def step (s : State) : Host.Outcome State Fault Refusal :=
  match s.turns with
  | [] => runCurrent (s.elapse s.node 1 1)
  | t :: rest =>
    let u : State := { s with turns := rest, hold := t.hold }
    match t.act with
    | .run n accept => arbitrate n accept (u.elapse n t.dt t.ctrl)
    | .event i => exec i (u.elapse s.node t.dt t.ctrl)

/-- The state with an instruction of these bits, and bytes of zero after it, where the next step fetches (DEDUCED, log 3). -/
def State.withFetchWord (s : State) (nbits w : Nat) : State :=
  s.placeWord (beBytes (nbits / 8) w ++ List.replicate (12 - nbits / 8) 0)

end Sys2Proof.Machine

end
end

