-- ==== Sys2Proof/WellFormed.lean ====
section
/-! DEFINITION. Well-formed instructions: a form that carries the fields, and the encoding checks of Table 2.9 that depend on no state. Each check is a Bool of its own. -/

namespace Sys2Proof

/-- The form of a core instruction carries exactly these fields (R36, R37, R38). -/
def formCarries (c : Code) (f : Fields) : Bool :=
  match f.form with
  | .two => false
  | .four => false
  | .six => f == fields6 c (f.d.setWidth 5) (f.a.setWidth 5) (f.x.setWidth 23)
  | .eight => f == fields8 c f.pop f.push (BitVec.ofBool f.e) f.rc f.d f.a f.b
  | .twelve => true

/-- Bytes encode the instruction: a core instruction in a form that carries it, or a row of a short form. -/
def encodable (i : Instr) : Bool :=
  match codeOf i with
  | some (c, f) => formCarries c f
  | none => (op5Of i).isSome || (op6Of i).isSome

/-- Q, unused fields, E, RC and the class chapter's own conditions (check 4). -/
def legalEncoding (c : Code) (f : Fields) : Bool :=
  match Machine.opInfo c with
  | some o => !Machine.illegalStatic c o f
  | none => false

/-- The operand fields (check 6). -/
def legalOperands (c : Code) (f : Fields) : Bool :=
  match Machine.opInfo c with
  | some o => (Machine.badOperand c o f).isNone
  | none => false

/-- No pair with an odd INDEX (check 7). -/
def evenPairs (c : Code) (f : Fields) : Bool :=
  match Machine.opInfo c with
  | some o => (Machine.oddIndex c o f).isNone
  | none => false

/-- A well-formed instruction: encodable, and legal on some sequencer whatever the state. Events have no encoding and are not well-formed. -/
def wellFormed (i : Instr) : Bool :=
  encodable i &&
    match internalWord i with
    | some (c, f) => legalEncoding c f && legalOperands c f && evenPairs c f
    | none => false

end Sys2Proof
end

