-- ==== Sys2Proof/Safety.lean ====
section
/-! DEFINITION. The terms in which claims about the machine are written: when an instruction issues with its own effect (Table 2.9, R90, R97, R99), when its accesses pass (R216, R226, R233), and what a next state leaves as it was. A run of this machine is safe where memory keeps its canonical form; it never ends in a fault or a refusal. -/

namespace Sys2Proof.Machine

/-! ## Issue -/

/-- An instruction of this code and these fields comes to its execution: no encoding check fails (Table 2.9), every token it pops and the room for every token it pushes is there (R90), and no producer before it is short of its distance (R99). -/
def State.ready (s : State) (c : Code) (f : Fields) : Bool :=
  (encodingFault c f s.node s.me (s.privileged s.node)).isNone && s.myCore.missingPops s.me c f == 0 &&
    s.myCore.shortPushes s.me (placesOf c f) == 0 && (s.miss c f).isNone

/-- The state that the instruction reads: results in flight that it reads or writes have landed (R97). -/
def State.view (s : State) (c : Code) (f : Fields) : State := s.interlock (s.uses c f)

/-- The code and the fields of an instruction that is executed as a core instruction: its own, or the core instruction to which its short form expands (R27, R34, R35). -/
def Issues (i : Instr) (c : Code) (f : Fields) : Prop := internalWord i = some (c, f)

/-- Instruction i has effect d at s: it answers the next state in which d is done, its tokens are moved and PC has passed it; where its results would be the 33rd or later ones in flight, it stalls with nothing done (R327). -/
def Does (i : Instr) (c : Code) (f : Fields) (s : State) (d : Done) : Prop :=
  (s.crowded f d = false → exec i s = .next (s.commit c f d)) ∧ (s.crowded f d = true → exec i s = .next s.endWait)

/-- A floating-point instruction whose lanes raise these flags: with none of them enabled the flags join FPSTAT and w-bit results are written to D's lanes; with one enabled, cause 0x30 is raised, UFADDR naming the flags and the lowest lane of an enabled one, and nothing is done (R143, R144). -/
def FpDoes (i : Instr) (c : Code) (f : Fields) (s v : State) (w : Nat) (meets : Nat → Bool) (flags : List FpEvent) (vals : List (Nat × Nat)) : Prop :=
  (allFlags flags &&& v.fpTraps = 0 → Does i c f s ((v.addFlags (allFlags flags)).writeLanes f.e f.d w meets vals)) ∧
  (allFlags flags &&& v.fpTraps ≠ 0 →
    exec i s = .next (s.takeFault 0x30 (BitVec.ofNat 64 (allFlags flags + 256 * trapLane v.fpTraps flags))))

/-! ## Numbers and their one rounding (R135, R138 to R141) -/

/-- 2^e. -/
def twoTo (e : Int) : Rat := if 0 ≤ e then ((2 ^ e.toNat : Nat) : Rat) else 1 / ((2 ^ (-e).toNat : Nat) : Rat)

/-- |x|. -/
def magnitude (x : Rat) : Rat := if x < 0 then -x else x

/-- The number that a finite value is: (−1)^neg × m × 2^e; 0 for what is no number. -/
def Fp.number (x : Fp) : Rat :=
  match x with
  | .fin neg m e => (if neg then -(m : Rat) else (m : Rat)) * twoTo e
  | _ => 0

/-- x rounds to the integer k in a mode: to the nearest, a tie to the even one; towards zero; towards −∞; towards +∞ (R138). -/
def RoundsTo (rm : Nat) (x : Rat) (k : Int) : Prop :=
  match rm with
  | 0 => x - 1 / 2 ≤ (k : Rat) ∧ (k : Rat) ≤ x + 1 / 2 ∧ ((k : Rat) = x - 1 / 2 ∨ (k : Rat) = x + 1 / 2 → k % 2 = 0)
  | 1 => if 0 ≤ x then (k : Rat) ≤ x ∧ x < (k : Rat) + 1 else (k : Rat) - 1 < x ∧ x ≤ (k : Rat)
  | 2 => (k : Rat) ≤ x ∧ x < (k : Rat) + 1
  | _ => (k : Rat) - 1 < x ∧ x ≤ (k : Rat)

/-- The largest finite value of a format (Table 6.1). -/
def Fmt.largest (t : Fmt) : Rat :=
  if t.inf then (2 - twoTo (-(t.fw : Int))) * twoTo t.bias else (2 - twoTo (1 - (t.fw : Int))) * twoTo (t.bias + 1)

/-- A pattern of the format that holds this number with this sign. -/
def Fmt.Holds (t : Fmt) (bits : Nat) (neg : Bool) (y : Rat) : Prop :=
  bits < 2 ^ t.width ∧ ∃ m e, t.value bits = .fin neg m e ∧ (Fp.fin neg m e).number = y

/-- What an overflow delivers: an infinity, which is the canonical NaN in E4M3, where the mode rounds away from zero or to nearest, else the largest finite value (R139). -/
def Fmt.overflowed (t : Fmt) (rm : Nat) (neg : Bool) : Nat :=
  if rm = 0 ∨ (rm = 2 ∧ neg = true) ∨ (rm = 3 ∧ neg = false) then t.infinity neg else t.sgn neg + t.maxMag

/-- The number x, not zero, is rounded once to the format in the mode of env, with these bits and flags. With lead its leading exponent, y is x rounded to the format's precision with an unbounded exponent: above the largest finite value the result overflows, with OF and NX (R139); below the smallest normal value it is tiny, and is x rounded to the subnormal grid, with UF and NX where that is inexact (R140), or a zero of its sign with UF and NX where FTZ is 1 (R141); else it is y, with NX where y is not x (R138). -/
def Fmt.Rounded (t : Fmt) (env : FpEnv) (x : Rat) (o : FpOut) : Prop :=
  ∃ (lead k : Int) (y : Rat), twoTo lead ≤ magnitude x ∧ magnitude x < twoTo (lead + 1) ∧ RoundsTo env.rm (x / twoTo (lead - t.fw)) k ∧
    y = (k : Rat) * twoTo (lead - t.fw) ∧
    (t.largest < magnitude y → o = ⟨t.overflowed env.rm (decide (x < 0)), flOF ||| flNX⟩) ∧
    (magnitude y < twoTo t.emin → env.ftz = true → o = ⟨t.sgn (decide (x < 0)), flUF ||| flNX⟩) ∧
    (magnitude y < twoTo t.emin → env.ftz = false → ∃ (j : Int) (z : Rat), RoundsTo env.rm (x / twoTo (t.emin - t.fw)) j ∧ z = (j : Rat) * twoTo (t.emin - t.fw) ∧
      t.Holds o.bits (decide (x < 0)) z ∧ o.fl = if z = x then 0 else flUF ||| flNX) ∧
    (twoTo t.emin ≤ magnitude y → magnitude y ≤ t.largest → t.Holds o.bits (decide (x < 0)) y ∧ o.fl = if y = x then 0 else flNX)

/-- A pattern that is this value: a number with its sign, an infinity, the canonical NaN (R135, R136). -/
def Fmt.Shows (t : Fmt) (bits : Nat) (x : Fp) : Prop :=
  match x with
  | .nan _ => bits = t.nan
  | .inf neg => bits = t.infinity neg
  | .fin neg m e => t.Holds bits neg (Fp.fin neg m e).number

/-- x lies below y: neither is a NaN, zeros are equal, and infinities lie beyond every number (R160, R167). -/
def Fp.Below (x y : Fp) : Prop :=
  match x, y with
  | .fin p m e, .fin q n g => (Fp.fin p m e).number < (Fp.fin q n g).number
  | .fin _ _ _, .inf b => b = false
  | .inf a, .fin _ _ _ => a = true
  | .inf a, .inf b => a = true ∧ b = false
  | _, _ => False

/-- The square root of v, a number above zero, is rounded once: it is a rational number and that is rounded, or every rational number of some interval around it rounds to these bits and flags (R138, R165). -/
def Fmt.RootRounded (t : Fmt) (env : FpEnv) (v : Rat) (o : FpOut) : Prop :=
  (∃ r : Rat, 0 < r ∧ r * r = v ∧ t.Rounded env r o) ∨
  (∃ lo hi : Rat, 0 < lo ∧ lo * lo < v ∧ v < hi * hi ∧ ∀ z : Rat, lo < z → z < hi → t.Rounded env z o)

/-- The number x is rounded once to the format; where saturating, an overflow delivers the largest finite value of its sign (R145). -/
def Fmt.SatRounded (t : Fmt) (env : FpEnv) (sat : Bool) (x : Rat) (o : FpOut) : Prop :=
  ∃ r, t.Rounded env x r ∧
    o = if sat = true ∧ r.fl &&& flOF ≠ 0 then ⟨t.sgn (decide (x < 0)) + t.maxMag, flOF ||| flNX⟩ else r

/-- The number x, with the sign neg where it is zero, delivered in a destination type, a type code of R145: to a floating-point type rounded once, an overflow of the 8-bit types saturating unless ovf; to an integer type rounded to an integer, with NX where that is inexact, and to the nearer end of the range with NV where it lies outside (Table 6.6). -/
def DeliveredIn (dst : Nat) (env : FpEnv) (ovf : Bool) (x : Rat) (neg : Bool) (o : FpOut) : Prop :=
  (8 ≤ dst → (x = 0 → o = ⟨(fmtOf (dst - 8)).sgn neg, 0⟩) ∧
    (x ≠ 0 → (fmtOf (dst - 8)).SatRounded env (decide (ovf = false ∧ (dst = 12 ∨ dst = 13))) x o)) ∧
  (dst < 8 → ∃ k : Int, RoundsTo env.rm x k ∧
    o = if k < intMin dst (intWidth dst) then ⟨wrap (intWidth dst) (intMin dst (intWidth dst)), flNV⟩
      else if intMax dst (intWidth dst) < k then ⟨wrap (intWidth dst) (intMax dst (intWidth dst)), flNV⟩
      else ⟨wrap (intWidth dst) k, if (k : Rat) = x then 0 else flNX⟩)

/-- An infinity delivered in a destination type: an infinity; in E4M3 the largest finite value or, with ovf, the canonical NaN, with OF and NX; in an integer type the end of the range with NV (R145, Table 6.6). -/
def infinityIn (dst : Nat) (ovf neg : Bool) : FpOut :=
  if dst < 8 then ⟨wrap (intWidth dst) (if neg then intMin dst (intWidth dst) else intMax dst (intWidth dst)), flNV⟩
  else if dst = 12 then ⟨if ovf then Fmt.e4m3.nan else Fmt.e4m3.sgn neg + Fmt.e4m3.maxMag, flOF ||| flNX⟩
  else ⟨(fmtOf (dst - 8)).infinity neg, 0⟩

/-! ## Accesses -/

/-- Accesses of size bytes at these addresses go through: no older transfer of the queue is under way (R242), none stalls on a drain (R233), none faults (R216, R226), a word that an older write of the queue replaces whole being good by then (R240, R378). -/
def State.clear (s : State) (want : Want) (size : Nat) (vas : List Word) : Bool :=
  !s.busy && (if vas.all (fun va => va.toNat % size == 0) then s.drainStalls s.node vas else 0) == 0 &&
    (s.assured.lanesFault s.node want size vas).isNone

/-- The state in which such accesses are made: older writes to the bytes that a read wants are performed (R240), the pages that no TLB entry of the core serves are counted (R221), what a read brings into L1 is there (R13), and a read corrects single symbols in error (R378). -/
def State.passed (s : State) (want : Want) (size : Nat) (vas : List Word) : State :=
  (if want.r then s.behind s.node s.me size vas else s).noteData s.node want.r size vas

/-- size bytes at a virtual address are bytes of plain memory (R215). -/
def State.Plain (s : State) (n : Nat) (va : Word) (size : Nat) : Prop :=
  ∃ x, s.xlate n va = some x ∧ ∀ i, i < size → s.place (x.addr va + i) = .bytes

/-- cnt units of w bytes from a virtual address lie one after the other in plain memory from pa on, through one translation that stands in a TLB or in the window map, so that no write to memory changes it (R221). -/
structure State.Run (s : State) (n : Nat) (va : Word) (w cnt pa : Nat) (x : Xlat) : Prop where
  size   : w = 1 ∨ w = 2 ∨ w = 4 ∨ w = 8
  starts : pa % w = 0
  walks  : ∀ i, i < cnt → s.tableWords n (va + BitVec.ofNat 64 (w * i)) = []
  maps   : ∀ i, i < cnt → s.xlate n (va + BitVec.ofNat 64 (w * i)) = some x
  goes   : ∀ i, i < cnt → x.addr (va + BitVec.ofNat 64 (w * i)) = pa + w * i
  plain  : ∀ i, i < cnt → s.place (pa + w * i) = .bytes

/-- From s to t the cnt units of w bytes from physical address pa on have been written under the key of a translation, little-endian, with these values: under that key every other byte of plain memory reads as before, and every byte of a block of 16 that the units do not meet does so under every key. -/
structure WroteRun (s t : State) (n : Nat) (x : Xlat) (pa w cnt : Nat) (vals : Nat → Word) : Prop where
  written : ∀ i k, i < cnt → k < w → t.plainByte (s.keyFor n x) (pa + w * i + k) = valByte (vals i) k
  rest    : ∀ a, a < pa ∨ pa + w * cnt ≤ a → t.plainByte (s.keyFor n x) a = s.plainByte (s.keyFor n x) a
  others  : ∀ key a, (∀ i, i < cnt → a / 16 ≠ (pa + w * i) / 16) → t.plainByte key a = s.plainByte key a

/-! ## Permits -/

/-- A permit of this weight is granted at once: none was granted to the current sequencer before, no request stands in its quadrant's queue, and the weight fits the budget (R351, R352). -/
def State.permitFree (s : State) (weight : Nat) : Bool :=
  let k := s.quad (quadOf s.node)
  !(k.grants.any (fun p => p.mine s.node s.me)) && k.asks.isEmpty && k.fits weight

/-- The state in which the current sequencer holds such a permit. -/
def State.permitted (s : State) (h : Holder) (weight : Nat) : State :=
  let p := s.permitNow h weight
  (s.notePermit { p with ends := none, waiting := true } .request).addGrant (quadOf s.node) [] p

/-! ## What stays -/

/-- Nothing of the machine but node n differs, and every byte of plain memory reads as before. -/
structure OnlyNode (n : Nat) (s t : State) : Prop where
  turn   : t.cur = s.cur
  cores  : ∀ m, m ≠ n → t.core m = s.core m
  bays   : t.bays = s.bays
  quads  : t.quads = s.quads
  dies : t.dies = s.dies
  pkgs   : t.pkgs = s.pkgs
  domain : t.domain = s.domain
  marks  : t.bad = s.bad ∧ t.weak = s.weak ∧ t.freed = s.freed ∧ t.keyed = s.keyed
  bytes  : ∀ key pa, t.plainByte key pa = s.plainByte key pa

/-- Nothing of a core but its sequencer q and its tokens differs: not its matrix file, the negative, the array's stores, the engines, nor a register held per core. -/
def OnlySeq (q : SeqId) (c d : Core) : Prop :=
  d = { c with seqs := c.seqs.set q (d.seqs.get q), tok := d.tok, resv := d.resv }

/-- A sequencer keeps its system registers, its run state, its event latch and its queued writes. -/
structure KeptSeq (v w : Seq) : Prop where
  sys    : w.sys = v.sys
  run    : w.run = v.run
  latch  : w.latch = v.latch
  mark   : w.mark = v.mark
  queue  : w.queue = v.queue
  remote : w.remote = v.remote
  halting : w.halting = v.halting
  notice : w.notice = v.notice

/-- s[d] is v, every other scalar register is as it was, PC is pc, and nothing else differs but tokens. -/
structure WritesReg (s t : State) (d : BitVec 5) (v pc : Word) : Prop where
  value  : t.mySeq.reg d = v
  others : ∀ r, r ≠ d → t.mySeq.reg r = s.mySeq.reg r
  pc     : t.mySeq.pc = pc
  seq    : KeptSeq s.mySeq t.mySeq
  core   : OnlySeq s.me s.myCore t.myCore
  node   : OnlyNode s.node s t

/-- No scalar register differs, PC is pc, and nothing else differs but tokens. -/
structure OnlyMoves (s t : State) (pc : Word) : Prop where
  regs   : t.mySeq.regs = s.mySeq.regs
  pc     : t.mySeq.pc = pc
  seq    : KeptSeq s.mySeq t.mySeq
  core   : OnlySeq s.me s.myCore t.myCore
  node   : OnlyNode s.node s t

/-- PC of the next instruction in memory. -/
def State.nextPc (s : State) (f : Fields) : Word := s.mySeq.pc + instrLen f

end Sys2Proof.Machine
end

