-- ==== Sys2Proof/Certificates/Slice0/Obligations.lean ====
section
/-! DEFINITION. The statements about the machine, for the provers: each formalises rules of the spec, or a convention of the model where its docstring says so. "ready" means that the instruction passes the encoding checks, finds its tokens and meets no latency mismatch. -/

section

open Sys2Proof Sys2Proof.Machine

/-! ## The control class -/

/-- Tables 4.2 and 4.3 (R72, R73): every register form and every immediate form of the scalar arithmetic writes its function of a and b to s[D] and nothing else; b is s[B], or X sign-extended from bit 23; a shift count is b[5:0]; dividing by zero and −2^63 by −1 give what Table 4.3 states. R74: CLZ and CTZ count the zero bits above the highest and below the lowest one bit, 64 for 0; POPC counts the one bits; BREV reverses all 64 bits; SEXT and ZEXT extend the low 8, 16 or 32 bits. R75: SEL, LI, LUI and MOV read their sources before they write s[D]. -/
def Obligations.ScalarResults : Prop :=
  ((∀ r ∈ ([(.add, 0x080, fun a b => a + b), (.sub, 0x081, fun a b => a - b), (.and, 0x082, fun a b => a &&& b),
        (.or, 0x083, fun a b => a ||| b), (.xor, 0x084, fun a b => a ^^^ b), (.andn, 0x085, fun a b => a &&& ~~~b),
        (.shl, 0x086, fun a b => a <<< (b.toNat % 64)), (.shr, 0x087, fun a b => a >>> (b.toNat % 64)),
        (.sar, 0x088, fun a b => a.sshiftRight (b.toNat % 64)), (.rol, 0x089, fun a b => a.rotateLeft (b.toNat % 64)),
        (.min, 0x08A, fun a b => if a.toInt ≤ b.toInt then a else b), (.max, 0x08B, fun a b => if a.toInt ≤ b.toInt then b else a),
        (.minn, 0x08C, fun a b => if a.toNat ≤ b.toNat then a else b), (.maxn, 0x08D, fun a b => if a.toNat ≤ b.toNat then b else a),
        (.slt, 0x08E, fun a b => if a.toInt < b.toInt then 1 else 0), (.sltn, 0x08F, fun a b => if a.toNat < b.toNat then 1 else 0),
        (.mul, 0x0A0, fun a b => a * b), (.mulh, 0x0A1, fun a b => BitVec.ofInt 64 (a.toInt * b.toInt / 2 ^ 64)),
        (.mulhn, 0x0A2, fun a b => BitVec.ofNat 64 (a.toNat * b.toNat / 2 ^ 64)),
        (.div, 0x0A3, fun a b => if b = 0 then 0xFFFFFFFFFFFFFFFF else BitVec.ofInt 64 (a.toInt.tdiv b.toInt)),
        (.divn, 0x0A4, fun a b => if b = 0 then 0xFFFFFFFFFFFFFFFF else BitVec.ofNat 64 (a.toNat / b.toNat)),
        (.rem, 0x0A5, fun a b => if b = 0 then a else BitVec.ofInt 64 (a.toInt.tmod b.toInt)),
        (.remn, 0x0A6, fun a b => if b = 0 then a else BitVec.ofNat 64 (a.toNat % b.toNat))] :
        List ((Fields → Instr) × Code × (Word → Word → Word))),
      ∀ f s, s.ready r.2.1 f = true →
        ∃ t, exec (r.1 f) s = .next t ∧ WritesReg s t (regNum f.d) (r.2.2 (s.sreg f.a) (s.sreg f.b)) (s.nextPc f)) ∧
    (∀ r ∈ ([(.addi, 0x090, fun a b => a + b), (.subi, 0x091, fun a b => a - b), (.andi, 0x092, fun a b => a &&& b),
        (.ori, 0x093, fun a b => a ||| b), (.xori, 0x094, fun a b => a ^^^ b), (.andni, 0x095, fun a b => a &&& ~~~b),
        (.shli, 0x096, fun a b => a <<< (b.toNat % 64)), (.shri, 0x097, fun a b => a >>> (b.toNat % 64)),
        (.sari, 0x098, fun a b => a.sshiftRight (b.toNat % 64)), (.roli, 0x099, fun a b => a.rotateLeft (b.toNat % 64)),
        (.mini, 0x09A, fun a b => if a.toInt ≤ b.toInt then a else b), (.maxi, 0x09B, fun a b => if a.toInt ≤ b.toInt then b else a),
        (.minni, 0x09C, fun a b => if a.toNat ≤ b.toNat then a else b), (.maxni, 0x09D, fun a b => if a.toNat ≤ b.toNat then b else a),
        (.slti, 0x09E, fun a b => if a.toInt < b.toInt then 1 else 0), (.sltni, 0x09F, fun a b => if a.toNat < b.toNat then 1 else 0)] :
        List ((Fields → Instr) × Code × (Word → Word → Word))),
      ∀ f s, s.ready r.2.1 f = true →
        ∃ t, exec (r.1 f) s = .next t ∧ WritesReg s t (regNum f.d) (r.2.2 (s.sreg f.a) (f.x.signExtend 64)) (s.nextPc f))) ∧
  ((∀ f s, s.ready 0x0B0 f = true → ∃ n t, exec (.clz f) s = .next t ∧ WritesReg s t (regNum f.d) (BitVec.ofNat 64 n) (s.nextPc f) ∧
      n ≤ 64 ∧ (∀ i, 64 - n ≤ i → (s.sreg f.a).getLsbD i = false) ∧ (n < 64 → (s.sreg f.a).getLsbD (63 - n) = true)) ∧
    (∀ f s, s.ready 0x0B1 f = true → ∃ n t, exec (.ctz f) s = .next t ∧ WritesReg s t (regNum f.d) (BitVec.ofNat 64 n) (s.nextPc f) ∧
      n ≤ 64 ∧ (∀ i, i < n → (s.sreg f.a).getLsbD i = false) ∧ (n < 64 → (s.sreg f.a).getLsbD n = true)) ∧
    (∀ f s, s.ready 0x0B2 f = true → ∃ t, exec (.popc f) s = .next t ∧
      WritesReg s t (regNum f.d) (BitVec.ofNat 64 ((List.range 64).filter (fun i => (s.sreg f.a).getLsbD i)).length) (s.nextPc f)) ∧
    (∀ f s, s.ready 0x0B3 f = true → ∃ v t, exec (.brev f) s = .next t ∧ WritesReg s t (regNum f.d) v (s.nextPc f) ∧
      ∀ i, i < 64 → v.getLsbD i = (s.sreg f.a).getLsbD (63 - i)) ∧
    (∀ q w, (q = 0 ∧ w = 8) ∨ (q = 1 ∧ w = 16) ∨ (q = 2 ∧ w = 32) →
      (∀ f s, f.q = BitVec.ofNat 3 q → s.ready 0x0B4 f = true → ∃ t, exec (.sext f) s = .next t ∧
        WritesReg s t (regNum f.d) (((s.sreg f.a).setWidth w).signExtend 64) (s.nextPc f)) ∧
      (∀ f s, f.q = BitVec.ofNat 3 (q + 4) → s.ready 0x0B5 f = true → ∃ t, exec (.zext f) s = .next t ∧
        WritesReg s t (regNum f.d) (((s.sreg f.a).setWidth w).setWidth 64) (s.nextPc f)))) ∧
  ((∀ f s, s.ready 0x0C0 f = true → ∃ t, exec (.sel f) s = .next t ∧
      WritesReg s t (regNum f.d) (if s.mySeq.reg (f.x.setWidth 5) ≠ 0 then s.sreg f.a else s.sreg f.b) (s.nextPc f)) ∧
    (∀ f s, s.ready 0x0D0 f = true → ∃ t, exec (.li f) s = .next t ∧ WritesReg s t (regNum f.d) (f.x.signExtend 64) (s.nextPc f)) ∧
    (∀ f s, s.ready 0x0D1 f = true → ∃ t, exec (.lui f) s = .next t ∧
      WritesReg s t (regNum f.d) ((s.sreg f.d <<< 24) ||| f.x.setWidth 64) (s.nextPc f)) ∧
    (∀ f s, s.ready 0x0E0 f = true → ∃ t, exec (.mov f) s = .next t ∧ WritesReg s t (regNum f.d) (s.sreg f.a) (s.nextPc f)))

/-- R76, R77, Table 4.4: a branch whose condition holds moves PC to PC + 2 × off, and one whose condition does not moves it past the instruction; nothing else changes but tokens. BR is always taken. -/
def Obligations.BranchResults : Prop :=
  (∀ f s, s.ready 0x010 f = true → ∃ t, exec (.br f) s = .next t ∧ OnlyMoves s t (s.mySeq.pc + 2 * f.x.signExtend 64)) ∧
  (∀ r ∈ ([(.brcEq, 0x020, fun a b => a = b), (.brcNe, 0x021, fun a b => a ≠ b), (.brcLt, 0x022, fun a b => a.toInt < b.toInt),
      (.brcGe, 0x023, fun a b => b.toInt ≤ a.toInt), (.brcLtn, 0x024, fun a b => a.toNat < b.toNat),
      (.brcGen, 0x025, fun a b => b.toNat ≤ a.toNat), (.brcBset, 0x026, fun a b => a.getLsbD (b.toNat % 64) = true),
      (.brcBclr, 0x027, fun a b => a.getLsbD (b.toNat % 64) = false)] : List ((Fields → Instr) × Code × (Word → Word → Prop))),
    ∀ f s, s.ready r.2.1 f = true →
      (r.2.2 (s.sreg f.d) (s.sreg f.a) → ∃ t, exec (r.1 f) s = .next t ∧ OnlyMoves s t (s.mySeq.pc + 2 * f.x.signExtend 64)) ∧
      (¬r.2.2 (s.sreg f.d) (s.sreg f.a) → ∃ t, exec (r.1 f) s = .next t ∧ OnlyMoves s t (s.nextPc f))) ∧
  (∀ r ∈ ([(.brciEq, 0x030, fun a b => a = b), (.brciNe, 0x031, fun a b => a ≠ b), (.brciLt, 0x032, fun a b => a.toInt < b.toInt),
      (.brciGe, 0x033, fun a b => b.toInt ≤ a.toInt), (.brciLtn, 0x034, fun a b => a.toNat < b.toNat),
      (.brciGen, 0x035, fun a b => b.toNat ≤ a.toNat), (.brciBset, 0x036, fun a b => a.getLsbD (b.toNat % 64) = true),
      (.brciBclr, 0x037, fun a b => a.getLsbD (b.toNat % 64) = false)] : List ((Fields → Instr) × Code × (Word → Word → Prop))),
    ∀ f s, s.ready r.2.1 f = true →
      (r.2.2 (s.sreg f.d) ((f.x.extractLsb' 12 12).signExtend 64) →
        ∃ t, exec (r.1 f) s = .next t ∧ OnlyMoves s t (s.mySeq.pc + 2 * (f.x.extractLsb' 0 12).signExtend 64)) ∧
      (¬r.2.2 (s.sreg f.d) ((f.x.extractLsb' 12 12).signExtend 64) → ∃ t, exec (r.1 f) s = .next t ∧ OnlyMoves s t (s.nextPc f)))

/-- R78, R79: LOOP decrements s[D] and is taken while the new value is not zero; CALL and CALLR write the return address to s31 (CALLR reads s[A] first); JMPR, CALLR and RET go to the register's value. R26, R79: a JMPR, CALLR or RET whose target has bit 0 set raises the alignment fault, cause 0x12, with the target as UFADDR, and does nothing else: s31 keeps its old value. -/
def Obligations.LoopAndCallResults : Prop :=
  ((∀ f s, s.ready 0x040 f = true → ∃ t, exec (.loop f) s = .next t ∧ WritesReg s t (regNum f.d) (s.sreg f.d - 1)
      (if s.sreg f.d - 1 ≠ 0 then s.mySeq.pc + 2 * f.x.signExtend 64 else s.nextPc f)) ∧
    (∀ f s, s.ready 0x050 f = true → ∃ t, exec (.call f) s = .next t ∧
      WritesReg s t 31 (s.nextPc f) (s.mySeq.pc + 2 * f.x.signExtend 64)) ∧
    (∀ f s, s.ready 0x060 f = true → (s.sreg f.a).getLsbD 0 = false → ∃ t, exec (.jmpr f) s = .next t ∧ OnlyMoves s t (s.sreg f.a)) ∧
    (∀ f s, s.ready 0x061 f = true → (s.sreg f.a).getLsbD 0 = false → ∃ t, exec (.callr f) s = .next t ∧
      WritesReg s t 31 (s.nextPc f) (s.sreg f.a)) ∧
    (∀ f s, s.ready 0x062 f = true → (s.mySeq.reg 31).getLsbD 0 = false → ∃ t, exec (.ret f) s = .next t ∧
      OnlyMoves s t (s.mySeq.reg 31))) ∧
  ((∀ f s, s.ready 0x060 f = true → (s.sreg f.a).getLsbD 0 = true → exec (.jmpr f) s = .next (s.takeFault 0x12 (s.sreg f.a))) ∧
    (∀ f s, s.ready 0x061 f = true → (s.sreg f.a).getLsbD 0 = true → exec (.callr f) s = .next (s.takeFault 0x12 (s.sreg f.a))) ∧
    (∀ f s, s.ready 0x062 f = true → (s.mySeq.reg 31).getLsbD 0 = true →
      exec (.ret f) s = .next (s.takeFault 0x12 (s.mySeq.reg 31))))

/-! ## Tokens, waits and the order of checks -/

/-- R81, R90, R91, R93: NOP has no effect but its token pops and pushes: one token leaves each popped FIFO, and each pushed FIFO has one token more, counting the places reserved in it; where what issues is not kept in flight the push is placed at once. TOKW, which waits for the n tokens of its mask, removes none of them and does nothing but its own pops and pushes; TOKS adds n tokens beside its PUSH to each FIFO of its mask: their places are reserved as it issues, and they come one cycle later. -/
def Obligations.TokenResults : Prop :=
  ∀ r ∈ ([(.nop, 0x000, fun _ _ => 0), (.tokw, 0x110, fun _ _ => 0),
      (.toks, 0x111, fun f q => if f.x.getLsbD (seqNum q) then f.x.toNat / 16 % 16 else 0)] :
      List ((Fields → Instr) × Code × (Fields → SeqId → Nat))),
    ∀ f s, s.ready r.2.1 f = true →
      ∃ t, exec (r.1 f) s = .next t ∧ OnlyMoves s t (s.nextPc f) ∧ ∀ q, q ≠ s.me →
        t.myCore.tokens (fifo (seqNum q) (seqNum s.me)) =
          s.myCore.tokens (fifo (seqNum q) (seqNum s.me)) - bitNat (f.pop.getLsbD (seqNum q)) ∧
        t.myCore.tokens (fifo (seqNum s.me) (seqNum q)) + t.myCore.reserved (fifo (seqNum s.me) (seqNum q)) =
          s.myCore.tokens (fifo (seqNum s.me) (seqNum q)) + s.myCore.reserved (fifo (seqNum s.me) (seqNum q)) +
            bitNat (f.push.getLsbD (seqNum q)) + r.2.2 f q ∧
        (s.hold = false → r.2.1 ≠ 0x111 →
          t.myCore.reserved (fifo (seqNum s.me) (seqNum q)) = s.myCore.reserved (fifo (seqNum s.me) (seqNum q))) ∧
        (r.2.1 = 0x111 → f.x.toNat % 16 ≠ 0 →
          t.myCore.tokens (fifo (seqNum s.me) (seqNum q)) = s.myCore.tokens (fifo (seqNum s.me) (seqNum q)) ∧
          ∃ x, t.mySeq.flights = s.mySeq.flights ++ [x] ∧ x.timed = true ∧ x.lands = [] ∧ x.due = s.myCore.cycle + 1 ∧
            ((x.pushes.filter (fun p => p.1 == q)).map (fun p => p.2)).sum = bitNat (f.push.getLsbD (seqNum q)) + r.2.2 f q)

/-- R90, Table 4.10: an instruction that passes the encoding checks but finds a FIFO short of the tokens it pops, or without room for those it pushes, waits (kinds 1 and 2) with the mask of those FIFOs, whatever the instruction is. That one which lacks both a token and room waits for the token, and is told so, is the model's choice (DESIGN CHOICE, log 70). -/
def Obligations.MissingTokensWait : Prop :=
  ∀ i c f s, codeOf i = some (c, f) → encodingFault c f s.node s.me (s.privileged s.node) = none →
    (s.myCore.missingPops s.me c f ≠ 0 → exec i s = .next (s.waitFor 0x01 (BitVec.ofNat 64 (s.myCore.missingPops s.me c f)))) ∧
    (s.myCore.missingPops s.me c f = 0 → s.myCore.shortPushes s.me (placesOf c f) ≠ 0 →
      exec i s = .next (s.waitFor 0x02 (BitVec.ofNat 64 (s.myCore.shortPushes s.me (placesOf c f)))))

/-- R49, R66, Table 2.9: whatever instruction fails an encoding check, in its own form or in the 2-byte or 4-byte form that expands to it, takes that check's fault, with nothing else of it done. R43, R49, Table 2.9: the order of the encoding checks: an opcode that may not issue on the sequencer is cause 0x03 whatever else is wrong; then a field that the instruction does not use, a wrong E or RC, or a Q that is not allowed is cause 0x01; then a privileged instruction in an unprivileged context is cause 0x04; an operand field is judged last, and of its two checks a field that names no operand (cause 0x02, the lowest field named) comes before a pair at an odd index (cause 0x12). R43, R46, R93, R224: cause 0x01 is raised by any bit of POP or PUSH on a die control core, by the issuing sequencer's own bit in POP or PUSH on a core, by its own bit in the mask of a TOKW or TOKS, and by an SMARK whose mask lacks it. R86: an MFS or MTS of a number that no register has, of one for MFP and MTP alone (R324), or of one of a die control core's own on a core is cause 0x01, but cause 0x04 where it is from 0x280 to 0x2FF in an unprivileged context; an MTS to a register all of whose fields are RO is cause 0x04. -/
def Obligations.EncodingFaultsAreTaken : Prop :=
  (∀ i c f s cause a, Issues i c f → encodingFault c f s.node s.me (s.privileged s.node) = some (cause, a) →
      exec i s = .next (s.takeFault cause a)) ∧
  (∀ c f n q priv i, opInfo c = some i →
      (i.runs.allows n q = false → encodingFault c f n q priv = some (0x03, 0)) ∧
      (i.runs.allows n q = true → illegalStatic c i f = true → encodingFault c f n q priv = some (0x01, 0)) ∧
      (i.runs.allows n q = true → illegalStatic c i f = false → illegalHere c f n q = false → sregIllegal c n priv (f.x.toNat % 4096) = false →
        i.priv = true → priv = false → encodingFault c f n q priv = some (0x04, 0)) ∧
      (i.runs.allows n q = true → illegalStatic c i f = false → illegalHere c f n q = false → sregIllegal c n priv (f.x.toNat % 4096) = false →
        (i.priv = true → priv = true) → sregPrivileged c priv (f.x.toNat % 4096) = false →
        (∀ k, badOperand c i f = some k → encodingFault c f n q priv = some (0x02, BitVec.ofNat 64 k)) ∧
        (∀ k, badOperand c i f = none → oddIndex c i f = some k → encodingFault c f n q priv = some (0x12, BitVec.ofNat 64 k)) ∧
        (badOperand c i f = none → oddIndex c i f = none → encodingFault c f n q priv = none)) ∧
      (encodingFault c f n q priv = none → (badOperand c i f).isNone = true ∧ (oddIndex c i f).isNone = true)) ∧
  (∀ c f n q priv i, opInfo c = some i → i.runs.allows n q = true →
      (isDcc n = true → f.pop ≠ 0 ∨ f.push ≠ 0 → encodingFault c f n q priv = some (0x01, 0)) ∧
      (isDcc n = false → f.pop.getLsbD (seqNum q) = true ∨ f.push.getLsbD (seqNum q) = true → encodingFault c f n q priv = some (0x01, 0)) ∧
      (c = 0x110 ∨ c = 0x111 → f.x.getLsbD (seqNum q) = true → encodingFault c f n q priv = some (0x01, 0)) ∧
      (c = 0x880 → f.x.getLsbD (16 + seqNum q) = false → encodingFault c f n q priv = some (0x01, 0))) ∧
  (∀ c f n q priv num i, (c = 0x0E1 ∨ c = 0x0E2) → num = f.x.toNat % 4096 → opInfo c = some i →
      (priv = true ∨ num < 0x280 ∨ 0x2FF < num → regInfo num = none ∨ regRemoteOnly num = true ∨ (isDcc n = false ∧ 0x400 ≤ num ∧ num ≤ 0x43F) →
        encodingFault c f n q priv = some (0x01, 0)) ∧
      (illegalStatic c i f = false → illegalHere c f n q = false → priv = false → 0x280 ≤ num → num ≤ 0x2FF → encodingFault c f n q priv = some (0x04, 0)) ∧
      (∀ r, c = 0x0E2 → illegalStatic c i f = false → illegalHere c f n q = false → regInfo num = some r → regReadOnly r = true →
        regRemoteOnly num = false → (isDcc n = true ∨ num < 0x400 ∨ 0x43F < num) → encodingFault c f n q priv = some (0x04, 0)))

/-- R100: an instruction that would go on, its tokens there, but that meets a producer short of its distance takes cause 0x05 with the producer's PC under STRICT; otherwise LATMISS counts it first, and it goes on in the state with the new count. R66, R407: one that then faults leaves no count. That the mismatch is judged when the instruction becomes ready, before a fault of its execution and before its effect, is the model's reading (DEDUCED, log 18). -/
def Obligations.LatencyMismatches : Prop :=
  ∀ c f body s pc, encodingFault c f s.node s.me (s.privileged s.node) = none → s.myCore.missingPops s.me c f = 0 →
    s.myCore.shortPushes s.me (placesOf c f) = 0 → s.miss c f = some pc → s.goes f (body (s.view c f)) = true →
    (s.mySeq.strict = true → issued c f body s = .next (s.takeFault 0x05 pc)) ∧
    (∀ t d, s.mySeq.strict = false → t = s.modSeq s.node s.me (fun q => q.setSys 0x009 (q.sysreg 0x009 + 1)) →
      body (t.view c f) = .done d → t.crowded f d = false → issued c f body s = .next (t.commit c f d)) ∧
    (∀ cause a, s.mySeq.strict = false → body (s.view c f) = .trap cause a →
      (∀ t : State, t = s.modSeq s.node s.me (fun q => q.setSys 0x009 (q.sysreg 0x009 + 1)) → body (t.view c f) = .trap cause a) →
      issued c f body s = .next (s.takeFault cause a))

/-- R103, Table 4.10: a wait begins with the first cycle in which the instruction would issue but for its resource and keeps its place and its beginning; once 2^EXP delivered cycles have passed it raises cause 0x20 with the kind and the resource in UFADDR, a request for a permit noted as timed out in the log of permit events. What is left of a wait after the arbiter passed its instruction over, or of a stall, counts nothing: a wait begins afresh. That a wait which passes to another resource keeps its beginning is the model's choice (DESIGN CHOICE, log 67). -/
def Obligations.WaitsAreBounded : Prop :=
  ∀ (s : State) kind id, kind < 0x80 →
    (s.mySeq.wait = none ∨ (∃ w, s.mySeq.wait = some w ∧ w.counts = false) → s.waitFor kind id = s.modSeq s.node s.me (fun q => { q with
      wait := some { kind := kind, id := id, start := s.myCore.cycle, exp := (s.mySeq.sysreg 0x006).toNat } })) ∧
    (∀ w, s.mySeq.wait = some w → w.counts = true →
      ((s.myCore.cycle - w.start).toNat < 2 ^ w.exp → s.waitFor kind id = s.modSeq s.node s.me (fun q => { q with
        wait := some { kind := kind, id := id, start := w.start, exp := w.exp } })) ∧
      (2 ^ w.exp ≤ (s.myCore.cycle - w.start).toNat → ∃ asks, (kind ≠ 0x08 → asks = []) ∧
        s.waitFor kind id = (s.notePermits asks .timeout).takeFault 0x20 (BitVec.ofNat 64 (kind * 2 ^ 56 + id.toNat % 2 ^ 56))))

/-- R82, R83, R356: HALT takes effect once every earlier instruction of its sequencer has retired: it stops the sequencer and gives back its explicit permit, its tokens moved then; until then it has issued and waits, and the cycle in which the last of them has retired ends it (when it issues and when it retires: DEDUCED, log 73). WAITC waits (kind 3) while CYCLE, unsigned, is below s[A] + X. -/
def Obligations.HaltAndWaitcResults : Prop :=
  (∀ f s, s.ready 0x001 f = true → s.allRetired = true →
    Does (.halt f) 0x001 f s { st := (s.dropExplicit s.node s.me).modMe (fun q => { q with run := .halted, halting := none }) }) ∧
  (∀ f s, s.ready 0x001 f = true → s.allRetired = false →
    exec (.halt f) s = .next (s.modMe (fun q => { q.issuedAt s.myCore.cycle 1 with wait := none, halting := some f }))) ∧
  (∀ (s t : State) n q f, t = { s with cur := (n, q), hold := false } → t.mySeq.halting = some f →
    (t.allRetired = false → s.endHalt n q = s) ∧
    (t.allRetired = true → s.endHalt n q = { t.commit 0x001 f
      { st := (t.dropExplicit n q).modMe (fun q => { q with run := .halted, halting := none }) } with cur := s.cur, hold := s.hold })) ∧
  (∀ f s, s.ready 0x002 f = true → (s.sreg f.a + f.x.signExtend 64).toNat ≤ s.myCore.cycle.toNat →
    ∃ t, exec (.waitc f) s = .next t ∧ OnlyMoves s t (s.nextPc f)) ∧
  (∀ f s, s.ready 0x002 f = true → s.myCore.cycle.toNat < (s.sreg f.a + f.x.signExtend 64).toNat →
    exec (.waitc f) s = .next (s.waitFor 0x03 (s.sreg f.a + f.x.signExtend 64)))

/-! ## Traps -/

/-- R312: a cause that DELEG delegates, outside a handler, is taken by trap entry: UEPC := the given PC with bit 0 clear, UCAUSE := the cause with STRADDLE and INH set, UFADDR := the fault's address, PC := UTVEC, and issue restarts at the third cycle after the fault; every scalar register, every other system register of the sequencer and the rest of the machine are unchanged. R312, R315: a cause that is not delegated, or one raised in a handler, stops the sequencer; SEQPC reads where it resumes, its registers are kept, a stopped CP suspends its reel (R212), and the entry of Table 15.3 goes to the stack's fault queue; that its CORE is 0 for a die control core is the model's reading (DEDUCED, log 59). -/
def Obligations.TrapEntry : Prop :=
  (∀ (s : State) n q cause ufaddr epc straddle, (s.seq n q).delegates cause = true →
      ∃ t, s.faultAt n q cause ufaddr epc straddle = t ∧ OnlyNode n s t ∧
        t.core n = (s.core n).setSeq q (t.seq n q) ∧ (t.seq n q).regs = (s.seq n q).regs ∧
        (t.seq n q).sysreg 0x00E = epc &&& 0xFFFFFFFFFFFFFFFE ∧
        (t.seq n q).sysreg 0x00F = BitVec.ofNat 64 (cause + 256 * bitNat straddle + 65536) ∧
        (t.seq n q).sysreg 0x010 = ufaddr ∧ (t.seq n q).pc = (s.seq n q).sysreg 0x00D ∧ (t.seq n q).inh = true ∧ (t.seq n q).last = some ((s.core n).cycle + 3) ∧
        (∀ k, k ≠ 0x00E → k ≠ 0x00F → k ≠ 0x010 → (t.seq n q).sysreg k = (s.seq n q).sysreg k)) ∧
  (∀ (s : State) n q cause ufaddr epc straddle, (s.seq n q).delegates cause = false →
      s.faultAt n q cause ufaddr epc straddle =
        (if q = .cp then (s.setSeq n q (((s.seq n q).stopOn epc).restart (s.core n).cycle)).modCore n (fun c =>
            { c with reel := c.reel.map (fun r => { r with suspending := true }) })
          else s.setSeq n q (((s.seq n q).stopOn epc).restart (s.core n).cycle)).postFault n
          { cause := cause, seq := seqNum q, freeze := false, straddle := straddle, nest := (s.seq n q).inh, ctx := (s.core n).ctxTag,
            core := if isDcc n then 0 else n, ipc := (s.seq n q).pc, rpc := epc, info := ufaddr, chunk := 0, cycle := (s.core n).cycle } ∧
      ((s.seq n q).stopOn epc).run = .stopped ∧ ((s.seq n q).stopOn epc).regs = (s.seq n q).regs ∧
      ((s.seq n q).stopOn epc).sysreg 0x280 = epc)

/-- R233, R315, R380, Table 15.3: with room in the ring, a slot that translates to plain memory takes the eight words of the entry, little-endian, under the key of the context that last wrote FQBASE where its page is PRIV: CAUSE, SEQ, FREEZE, STRADDLE, NEST, CTX and CORE in the first, then IPC, RPC, INFO, CHUNK and CYCLE, the last two zero; TAIL goes up by one modulo the ring's size, HEAD and FQOVF stay, and both die control cores of the stack get the event. An entry whose slot a PHASE drain moves waits in its core. With no room the entry waits in its core and FQOVF goes up by one; where the slot does not translate the same happens, and the event latches are set as for a written entry. In both cases TAIL and memory stay. -/
def Obligations.FaultQueueEntries : Prop :=
  ∀ (s : State) n k e size, stackOf n = k → size = 2 ^ ((s.stack k).sysreg 0x2B1).toNat →
    (∀ pa t, (s.stack k).fqUsed + 1 ≠ size → s.fqSlot k = some pa → s.drainHit pa = false → pa % 64 = 0 → s.postFault n e = t →
      (∀ w ∈ ([(0, BitVec.ofNat 64 (e.cause % 256 + 2 ^ 8 * (e.seq % 4) + 2 ^ 10 * bitNat e.freeze + 2 ^ 11 * bitNat e.straddle +
            2 ^ 12 * bitNat e.nest + 2 ^ 16 * (e.ctx % 2 ^ 16) + 2 ^ 32 * (e.core % 2 ^ 22))),
          (1, e.ipc), (2, e.rpc), (3, e.info), (4, BitVec.ofNat 64 e.chunk), (5, e.cycle), (6, 0), (7, 0)] : List (Nat × Word)),
        ∀ j, j < 8 → t.plainByte (s.fqSlotKey k) (pa + 8 * w.1 + j) = valByte w.2 j ∧
          (s.fqSlotKey k = none → Memory.get t.mem (pa + 8 * w.1 + j) = valByte w.2 j)) ∧
      (t.stack k).sysreg 0x2B3 = BitVec.ofNat 64 ((((s.stack k).sysreg 0x2B3).toNat % size + 1) % size) ∧
      (t.stack k).sysreg 0x2B2 = (s.stack k).sysreg 0x2B2 ∧ (t.stack k).sysreg 0x2B4 = (s.stack k).sysreg 0x2B4 ∧
      (t.core n).fqWait = (s.core n).fqWait ∧ ∀ d, d < 2 → (t.seq (dccKey (k / 4) (k % 4) d) .ld).latch = true) ∧
    (∀ pa, (s.stack k).fqUsed + 1 ≠ size → s.fqSlot k = some pa → s.drainHit pa = true →
      s.postFault n e = s.modCore n (fun c => { c with fqWait := c.fqWait ++ [e] })) ∧
    (∀ t, (s.stack k).fqUsed + 1 = size ∨ s.fqSlot k = none → s.postFault n e = t →
      (t.core n).fqWait = (s.core n).fqWait ++ [e] ∧ (t.stack k).sysreg 0x2B4 = (s.stack k).sysreg 0x2B4 + 1 ∧
      (t.stack k).sysreg 0x2B3 = (s.stack k).sysreg 0x2B3 ∧ t.mem = s.mem ∧
      ((s.stack k).fqUsed + 1 ≠ size → ∀ d, d < 2 → (t.seq (dccKey (k / 4) (k % 4) d) .ld).latch = true))

/-- R313: ERET in a handler returns to UEPC and clears INH; with its X[0] set no breakpoint matches the next instruction; the instruction cache keeps no fault mark there (R28); outside a handler it is cause 0x01. R318, R319: TRAP raises cause 0x38, and BRK cause 0x39 in a context that is debugged, with their number as UFADDR and the address behind them as the return address; BRK in any other context is cause 0x3A. -/
def Obligations.TrapBrkAndEretResults : Prop :=
  ((∀ f s, s.ready 0xC10 f = true → s.mySeq.inh = true →
      ∃ t, exec (.eret f) s = .next t ∧ OnlyNode s.node s t ∧ t.myCore = { s.myCore.setSeq s.me t.mySeq with icache := t.myCore.icache } ∧ t.mySeq.regs = s.mySeq.regs ∧
        t.mySeq.pc = s.mySeq.sysreg 0x00E ∧ t.mySeq.inh = false ∧ t.mySeq.skipBp = f.x.getLsbD 0 ∧
        (∀ k, k ≠ 0x00F → t.mySeq.sysreg k = s.mySeq.sysreg k) ∧
        ∀ cause straddle a, Tab.get t.myCore.icache (s.mySeq.sysreg 0x00E).toNat (.bytes []) ≠ .marked cause straddle a) ∧
    (∀ f s, s.ready 0xC10 f = true → s.mySeq.inh = false → exec (.eret f) s = .next (s.takeFault 0x01 0))) ∧
  ((∀ f s, s.ready 0xC00 f = true → exec (.trap f) s =
      .next ((s.withdraw s.node s.me).faultAt s.node s.me 0x38 (BitVec.ofNat 64 (f.x.toNat % 65536)) (s.nextPc f) false)) ∧
    (∀ f s, s.ready 0xC20 f = true → (s.myCore.sysreg 0x298).getLsbD 0 = true → exec (.brk f) s =
      .next ((s.withdraw s.node s.me).faultAt s.node s.me 0x39 (BitVec.ofNat 64 (f.x.toNat % 65536)) (s.nextPc f) false)) ∧
    (∀ f s, s.ready 0xC20 f = true → (s.myCore.sysreg 0x298).getLsbD 0 = false → exec (.brk f) s =
      .next (s.takeFault 0x3A (BitVec.ofNat 64 (f.x.toNat % 65536)))))

/-! ## The 2-byte forms, system registers, scalar loads and stores -/

/-- R34, Table 2.6: every row of the 2-byte form: the two-operand rows write op(s[d], s[a]) to s[d], the one-operand rows op(s[a]); PC moves by 2, and nothing else changes. -/
def Obligations.TwoByteForms : Prop :=
  (∀ d a s, s.ready 0x000 (expand1 0 d a) = true → ∃ t, exec (.nop2b d a) s = .next t ∧ OnlyMoves s t (s.mySeq.pc + 2)) ∧
  (∀ r ∈ ([(.add2b, 0x080, fun a b => a + b), (.sub2b, 0x081, fun a b => a - b), (.and2b, 0x082, fun a b => a &&& b),
      (.or2b, 0x083, fun a b => a ||| b), (.xor2b, 0x084, fun a b => a ^^^ b), (.andn2b, 0x085, fun a b => a &&& ~~~b),
      (.shl2b, 0x086, fun a b => a <<< (b.toNat % 64)), (.shr2b, 0x087, fun a b => a >>> (b.toNat % 64)),
      (.sar2b, 0x088, fun a b => a.sshiftRight (b.toNat % 64)), (.rol2b, 0x089, fun a b => a.rotateLeft (b.toNat % 64)),
      (.min2b, 0x08A, fun a b => if a.toInt ≤ b.toInt then a else b), (.max2b, 0x08B, fun a b => if a.toInt ≤ b.toInt then b else a),
      (.minn2b, 0x08C, fun a b => if a.toNat ≤ b.toNat then a else b), (.maxn2b, 0x08D, fun a b => if a.toNat ≤ b.toNat then b else a),
      (.slt2b, 0x08E, fun a b => if a.toInt < b.toInt then 1 else 0), (.sltn2b, 0x08F, fun a b => if a.toNat < b.toNat then 1 else 0),
      (.mul2b, 0x0A0, fun a b => a * b), (.mulh2b, 0x0A1, fun a b => BitVec.ofInt 64 (a.toInt * b.toInt / 2 ^ 64)),
      (.mulhn2b, 0x0A2, fun a b => BitVec.ofNat 64 (a.toNat * b.toNat / 2 ^ 64)),
      (.div2b, 0x0A3, fun a b => if b = 0 then 0xFFFFFFFFFFFFFFFF else BitVec.ofInt 64 (a.toInt.tdiv b.toInt)),
      (.divn2b, 0x0A4, fun a b => if b = 0 then 0xFFFFFFFFFFFFFFFF else BitVec.ofNat 64 (a.toNat / b.toNat)),
      (.rem2b, 0x0A5, fun a b => if b = 0 then a else BitVec.ofInt 64 (a.toInt.tmod b.toInt)),
      (.remn2b, 0x0A6, fun a b => if b = 0 then a else BitVec.ofNat 64 (a.toNat % b.toNat))] :
      List ((BitVec 5 → BitVec 5 → Instr) × Code × (Word → Word → Word))),
    ∀ d a s, s.ready r.2.1 (expand2 0 d a) = true →
      ∃ t, exec (r.1 d a) s = .next t ∧ WritesReg s t d (r.2.2 (s.mySeq.reg d) (s.mySeq.reg a)) (s.mySeq.pc + 2)) ∧
  (∀ r ∈ ([(.clz2b, 0x0B0, 0, aluClz), (.ctz2b, 0x0B1, 0, aluCtz),
      (.popc2b, 0x0B2, 0, fun a => BitVec.ofNat 64 ((List.range 64).filter (fun i => a.getLsbD i)).length), (.brev2b, 0x0B3, 0, aluBrev),
      (.sextI82b, 0x0B4, 0, fun a => (a.setWidth 8).signExtend 64), (.sextI162b, 0x0B4, 1, fun a => (a.setWidth 16).signExtend 64),
      (.sextI322b, 0x0B4, 2, fun a => (a.setWidth 32).signExtend 64), (.mov2b, 0x0E0, 0, fun a => a)] :
      List ((BitVec 5 → BitVec 5 → Instr) × Code × BitVec 3 × (Word → Word))),
    ∀ d a s, s.ready r.2.1 (expand1 r.2.2.1 d a) = true →
      ∃ t, exec (r.1 d a) s = .next t ∧ WritesReg s t d (r.2.2.2 (s.mySeq.reg a)) (s.mySeq.pc + 2))

/-- R86: MFS writes the system register numbered X[11:0] to s[D] and nothing else; MTS writes s[A] to it, but a write of RNGBASE or RNGCFG by a context that does not hold the whole bay is cause 0x04 (R280). Table 4.6 and Table 1.4: what the identity registers of a core read: SEQID, CYCLE, the core's place in its bay, quadrant and stack, its stack and package, LCORE, and NTOP. -/
def Obligations.SystemRegisterMoves : Prop :=
  ((∀ f s, s.ready 0x0E1 f = true → ∃ t, exec (.mfs f) s = .next t ∧
      WritesReg s t (regNum f.d) (s.readReg s.node s.me (f.x.toNat % 4096)) (s.nextPc f)) ∧
    (∀ f s, s.ready 0x0E2 f = true → ((f.x.toNat % 4096 = 0x202 ∨ f.x.toNat % 4096 = 0x203) → s.holdsBay s.node = true) →
      Does (.mts f) 0x0E2 f s { st := s.writeReg s.node s.node s.me (f.x.toNat % 4096) (s.sreg f.a) }) ∧
    (∀ f s, s.ready 0x0E2 f = true → (f.x.toNat % 4096 = 0x202 ∨ f.x.toNat % 4096 = 0x203) → s.holdsBay s.node = false →
      exec (.mts f) s = .next (s.takeFault 0x04 0))) ∧
  (∀ (s : State) n q, isDcc n = false →
      s.readReg n q 0x000 = BitVec.ofNat 64 (seqNum q) ∧ s.readReg n q 0x00A = (s.core n).cycle ∧
      s.readReg n q 0x011 = BitVec.ofNat 64 (n % 4) ∧ s.readReg n q 0x012 = BitVec.ofNat 64 (n / 4 % 16) ∧
      s.readReg n q 0x013 = BitVec.ofNat 64 (n / 64 % 4) ∧ s.readReg n q 0x014 = BitVec.ofNat 64 (n / 256 % 4) ∧
      s.readReg n q 0x015 = BitVec.ofNat 64 (n / 1024) ∧
      (∀ x, (s.core n).ctx = some x → s.readReg n q 0x016 = BitVec.ofNat 64 x.lcore) ∧
      s.readReg n q 0x040 = BitVec.ofNat 64 (s.core n).neg.length)

/-- R86, R405, R6, R7: what a write leaves in a register held per sequencer: VLEN, ROWS and COLS saturate at 1 and 128, KLEN at 1 and 256, WAITLIM at 10 and 40, judged on the whole written value; FPSTAT clears exactly the sticky bits written 1; the DELEG bits of causes that cannot be delegated stay 0; SEQID is read only. -/
def Obligations.SequencerRegisterWrites : Prop :=
  ∀ (s : State) w n q v,
    (∀ r ∈ [(0x002, 1, 128), (0x003, 1, 128), (0x004, 1, 128), (0x005, 1, 256), (0x006, 10, 40)],
      (s.seq n q).sysreg r.1 ≤ BitVec.ofNat 64 r.2.2 →
      (((s.writeReg w n q r.1 v).seq n q).sysreg r.1).toNat = max r.2.1 (min r.2.2 v.toNat)) ∧
    ((s.writeReg w n q 0x061 v).seq n q).sysreg 0x061 = (s.seq n q).sysreg 0x061 &&& ~~~(v &&& 0x1F) ∧
    ((s.seq n q).sysreg 0x00C &&& 0x0400000001000800 = 0 →
      ((s.writeReg w n q 0x00C v).seq n q).sysreg 0x00C &&& 0x0400000001000800 = 0) ∧
    s.writeReg w n q 0x000 v = s

/-- R84: LDS reads the bytes at s[A] + X sign-extended, little-endian, and sign-extends an i type and zero-extends an n type into s[D]; with no older write to these bytes queued, the page in the core's TLB, the sector, if it is cached, in its L1, and no single error to correct nothing else changes. R84, R239, R380: STS stores the low bytes of s[D] at s[A] + X sign-extended. Performed at once (nothing kept in flight, no older write queued) into plain bytes, those bytes then read so under the access's key; every other byte of their 16-byte block reads as before under that key, every byte of every other block reads as before under every key, and no register changes. That a read is performed, and the older writes that it meets, as it issues is the model's choice (DESIGN CHOICE, log 7). -/
def Obligations.LdsAndStsResults : Prop :=
  (∀ f s, s.ready 0x0F0 f = true → s.clear Want.load (intWidth f.q.toNat / 8) [s.sreg f.a + f.x.signExtend 64] = true →
      Does (.lds f) 0x0F0 f s
        { st := (s.passed Want.load (intWidth f.q.toNat / 8) [s.sreg f.a + f.x.signExtend 64]).setReg (regNum f.d)
            (extend f.q.toNat (intWidth f.q.toNat)
              ((s.passed Want.load (intWidth f.q.toNat / 8) [s.sreg f.a + f.x.signExtend 64]).load s.node (s.sreg f.a + f.x.signExtend 64)
                (intWidth f.q.toNat / 8))) } ∧
      (s.meetsQueue s.node s.me (intWidth f.q.toNat / 8) [s.sreg f.a + f.x.signExtend 64] = false →
        s.misses s.node [s.sreg f.a + f.x.signExtend 64] = 0 → s.l1Misses s.node [s.sreg f.a + f.x.signExtend 64] = [] →
        s.wordsRead s.node (intWidth f.q.toNat / 8) [s.sreg f.a + f.x.signExtend 64] = [] →
        ∃ t, exec (.lds f) s = .next t ∧ WritesReg s t (regNum f.d)
          (if 4 ≤ f.q.toNat then BitVec.ofNat 64 (s.load s.node (s.sreg f.a + f.x.signExtend 64) (intWidth f.q.toNat / 8))
           else (BitVec.ofNat (intWidth f.q.toNat) (s.load s.node (s.sreg f.a + f.x.signExtend 64) (intWidth f.q.toNat / 8))).signExtend 64)
          (s.nextPc f))) ∧
  (∀ f s va w, va = s.sreg f.a + f.x.signExtend 64 → w = intWidth f.q.toNat / 8 →
      s.ready 0x100 f = true → s.clear Want.store w [va] = true →
      Does (.sts f) 0x100 f s { st := s.passed Want.store w [va], stores := (s.passed Want.store w [va]).mkStore s.node va w (s.sreg f.d) } ∧
      ∀ x, s.hold = false → s.mySeq.queue = [] → s.misses s.node [va] = 0 → s.xlate s.node va = some x → x.addr va % w = 0 → s.place (x.addr va) = .bytes →
        ∃ t, exec (.sts f) s = .next t ∧ t.mySeq.regs = s.mySeq.regs ∧ t.mySeq.pc = s.nextPc f ∧
          (∀ m, m ≠ s.node → t.core m = s.core m) ∧ OnlySeq s.me s.myCore t.myCore ∧
          (∀ i, i < w → t.plainByte (s.keyFor s.node x) (x.addr va + i) = valByte (s.sreg f.d) i) ∧
          (∀ a, a / 16 = x.addr va / 16 → (a < x.addr va ∨ x.addr va + w ≤ a) →
            t.plainByte (s.keyFor s.node x) a = s.plainByte (s.keyFor s.node x) a) ∧
          (∀ key a, a / 16 ≠ x.addr va / 16 → t.plainByte key a = s.plainByte key a))

/-- R85, R216: the order in which one access is judged: an address that is not naturally aligned is cause 0x12 whatever else is wrong; then one that does not translate, or translates to a bad physical address of its own domain, is cause 0x10, but where a table entry of its walk answers an uncorrectable error it is cause 0x18 (R378); then a page that does not allow it is cause 0x11; UFADDR is the address. LDS and STS raise them with nothing done, a word that an older write of the queue replaces whole being good by then (R240, R378). -/
def Obligations.AccessChecksInOrder : Prop :=
  (∀ s : State, s.assured.mem = s.mem ∧ s.assured.cores = s.cores ∧ s.assured.freed = s.freed ∧
    ∀ b, b ∈ s.assured.bad ↔ b ∈ s.bad ∧ ∀ st ∈ s.mySeq.queue, st.size = 8 → st.addr ≠ 8 * b) ∧
  (∀ (s : State) n want va size, va.toNat % size ≠ 0 → s.lanesFault n want size [va] = some (0x12, va)) ∧
  (∀ (s : State) n want va size, va.toNat % size = 0 → s.xlate n va = none →
    (s.tableLost n va = none → s.lanesFault n want size [va] = some (0x10, va)) ∧
    ((s.tableLost n va).isSome = true → s.lanesFault n want size [va] = some (0x18, va))) ∧
  (∀ (s : State) n want va size x, va.toNat % size = 0 → s.xlate n va = some x → s.place (x.addr va) = .bad →
    paPkg (x.addr va) = pkgOf n → s.lanesFault n want size [va] = some (0x10, va)) ∧
  (∀ (s : State) n want va size x, va.toNat % size = 0 → s.xlate n va = some x → s.place (x.addr va) ≠ .bad →
    ((want.r = true ∧ x.r = false) ∨ (want.w = true ∧ x.w = false) ∨ (want.x = true ∧ x.x = false)) →
    s.lanesFault n want size [va] = some (0x11, va)) ∧
  (∀ f s cause a, s.ready 0x0F0 f = true → s.busy = false →
    (((s.sreg f.a + f.x.signExtend 64).toNat % (intWidth f.q.toNat / 8) = 0) → s.drainStalls s.node [s.sreg f.a + f.x.signExtend 64] = 0) →
    s.assured.lanesFault s.node Want.load (intWidth f.q.toNat / 8) [s.sreg f.a + f.x.signExtend 64] = some (cause, a) →
    exec (.lds f) s = .next (s.takeFault cause a)) ∧
  (∀ f s cause a, s.ready 0x100 f = true → s.busy = false →
    (((s.sreg f.a + f.x.signExtend 64).toNat % (intWidth f.q.toNat / 8) = 0) → s.drainStalls s.node [s.sreg f.a + f.x.signExtend 64] = 0) →
    s.assured.lanesFault s.node Want.store (intWidth f.q.toNat / 8) [s.sreg f.a + f.x.signExtend 64] = some (cause, a) →
    exec (.sts f) s = .next (s.takeFault cause a))

/-! ## The reversible vector class -/

/-- R105 to R109 in the machine: what an instruction does that writes w-bit results to lanes of D and is not kept in flight: under overwrite each active lane's cell or pair becomes its result zero-extended; under XOR its low w bits are XORed with the result; every cell that is no cell of an active lane keeps its value. R108, R109: an in-place operation gives each active lane its new value in the low w bits, the upper bits and every other cell stay, and nothing is charged. R117: an exchange of D and A gives each lane that takes part the low w bits of the other, a lane of which both name the same cells keeping its value, where no lane of D shares a cell with another lane of A. -/
def Obligations.WriteFormsLand : Prop :=
  (∀ (s v : State) c f i e o w meets (val : Nat → Nat) (n : Nat), opInfo c = some i → v.cur = s.cur → s.hold = false → n ≤ 128 →
    opBcast o = false → (opPair o = true → opDir o < 2) → (opPair o = true ∨ w ≤ 32) → w ≤ 64 →
    ∃ t, s.commit c f (v.writeLanes e o w meets ((List.range n).map (fun j => (j, val j)))) = t ∧
      (∀ j, j < n → t.myCore.laneWord o j =
        if e then BitVec.ofNat 64 (val j % 2 ^ 64 % 2 ^ w) else v.myCore.laneWord o j ^^^ BitVec.ofNat 64 (val j % 2 ^ 64 % 2 ^ w)) ∧
      (∀ k, (∀ j, j < n → k ∉ laneCells o j) → t.myCore.cell k = v.myCore.cell k)) ∧
  (∀ (s v : State) c f i o w (new : Nat → Nat) (n : Nat), opInfo c = some i → v.cur = s.cur → s.hold = false → n ≤ 128 →
    opBcast o = false → (opPair o = true → opDir o < 2) → (opPair o = true ∨ w ≤ 32) → w ≤ 64 →
    ∃ t, s.commit c f { st := v, lands := [changeLanes o w ((List.range n).map (fun j => (j, v.srcLane o w j, new j)))] } = t ∧
      (∀ j, j < n → (t.myCore.laneWord o j).toNat % 2 ^ w = new j % 2 ^ w ∧
        (t.myCore.laneWord o j).toNat / 2 ^ w = (v.myCore.laneWord o j).toNat / 2 ^ w) ∧
      (∀ k, (∀ j, j < n → k ∉ laneCells o j) → t.myCore.cell k = v.myCore.cell k) ∧ t.myCore.sysreg 0x041 = v.myCore.sysreg 0x041) ∧
  (∀ (s v : State) c f i w (takes : Nat → Bool) n, opInfo c = some i → v.cur = s.cur → s.hold = false → v.mySeq.vlen = n → n ≤ 128 →
    wOf f = w → w ≤ 64 → (∀ o ∈ [f.d, f.a], opBcast o = false ∧ (opPair o = true → opDir o < 2) ∧ (opPair o = true ∨ w ≤ 32)) →
    (∀ j k, j < n → k < n → (∀ x ∈ laneCells f.d j, x ∉ laneCells f.a k) ∨ (j = k ∧ laneCells f.d j = laneCells f.a j)) →
    ∃ t, s.commit c f { st := v, lands := exchange v f takes } = t ∧
      (∀ j, j < n → takes j = true →
        (t.myCore.laneWord f.d j).toNat % 2 ^ w = v.srcLane f.a w j ∧ (t.myCore.laneWord f.a j).toNat % 2 ^ w = v.srcLane f.d w j) ∧
      (∀ j, j < n → ∀ o ∈ [f.d, f.a], (t.myCore.laneWord o j).toNat / 2 ^ w = (v.myCore.laneWord o j).toNat / 2 ^ w ∧
        (takes j = false → t.myCore.laneWord o j = v.myCore.laneWord o j)) ∧
      (∀ k, (∀ j, j < n → k ∉ laneCells f.d j ∧ k ∉ laneCells f.a j) → t.myCore.cell k = v.myCore.cell k) ∧
      t.myCore.sysreg 0x041 = v.myCore.sysreg 0x041)

/-- R106, R107, R127, R129: the charge of a write: all old bits of every written lane under overwrite, the old bits of the lanes that overlap themselves under XOR, none for an XOR write without overlap; a charge adds to ERASEC, and sets ERASELIM.HIT exactly where it carries ERASEC from below LIMIT to LIMIT or above. -/
def Obligations.ChargesOfWrites : Prop :=
  (∀ (v : State) o w meets vals, (v.writeLanes true o w meets vals).st =
    v.charge v.node ((vals.map (fun p => v.myCore.laneBits o p.1)).foldl (· + ·) 0)) ∧
  (∀ (v : State) o w meets vals, (v.writeLanes false o w meets vals).st =
    v.charge v.node (((vals.filter (fun p => meets p.1)).map (fun p => v.myCore.laneBits o p.1)).foldl (· + ·) 0)) ∧
  (∀ (v : State) o w vals, (v.writeLanes false o w (fun _ => false) vals).st = v) ∧
  (∀ (v : State) n bits, 0 < bits → ((v.charge n bits).core n).sysreg 0x041 = (v.core n).sysreg 0x041 + BitVec.ofNat 64 bits) ∧
  (∀ (v : State) n bits limit, 0 < bits → (v.core n).sysreg 0x042 = BitVec.ofNat 64 limit → limit < 2 ^ 63 →
    (((v.charge n bits).core n).sysreg 0x042).getLsbD 63 =
      decide (((v.core n).sysreg 0x041).toNat < limit ∧ limit ≤ ((v.core n).sysreg 0x041).toNat + bits))

/-- R112, R113, Table 5.2: the lane results of VAND, VOR, VXOR, VANDN, VADD, VSUB, VMIN, VMAX, VMINN, VMAXN, VMUL, VMULH, VSHL, VSHR, VSAR, VAVG and the six VCMP, in their own forms and in every 4-byte form that expands to them, written to D under R105 with the charge of R107. R112, R113, R114: VMOV, VABS, VCLZ, VPOPC and VSEL, in every form that expands to them; VABS wraps, and VSEL takes A where its mask lane is not zero. R115: VRED combines the active lanes of A into lane 0 of D and writes no other lane: VRED.ADD their sum modulo 2^w, the others the fold of their operation over the lanes in order. -/
def Obligations.VectorIntegerResults : Prop :=
  (∀ r ∈ ([(0x210, fun _ _ a b => a &&& b), (0x211, fun _ _ a b => a ||| b), (0x212, fun _ _ a b => a ^^^ b),
        (0x213, fun _ w a b => a &&& ((2 ^ w - 1) ^^^ b)), (0x214, fun _ w a b => (a + b) % 2 ^ w), (0x215, fun _ w a b => (a + 2 ^ w - b) % 2 ^ w),
        (0x216, fun _ w a b => if toInt w a ≤ toInt w b then a else b), (0x217, fun _ w a b => if toInt w a ≤ toInt w b then b else a),
        (0x218, fun _ _ a b => min a b), (0x219, fun _ _ a b => max a b), (0x21A, fun _ w a b => a * b % 2 ^ w),
        (0x21B, fun q w a b => wrap w (readInt q w a * readInt q w b / 2 ^ w)), (0x21C, fun _ w a b => (a <<< (b % w)) % 2 ^ w),
        (0x21D, fun _ w a b => a >>> (b % w)), (0x21E, fun _ w a b => wrap w (toInt w a / 2 ^ (b % w))),
        (0x21F, fun q w a b => wrap w ((readInt q w a + readInt q w b + 1) / 2)),
        (0x220, fun _ w a b => if a = b then 2 ^ w - 1 else 0), (0x221, fun _ w a b => if a ≠ b then 2 ^ w - 1 else 0),
        (0x222, fun _ w a b => if toInt w a < toInt w b then 2 ^ w - 1 else 0),
        (0x223, fun _ w a b => if toInt w b ≤ toInt w a then 2 ^ w - 1 else 0), (0x224, fun _ w a b => if a < b then 2 ^ w - 1 else 0),
        (0x225, fun _ w a b => if b ≤ a then 2 ^ w - 1 else 0)] : List (Nat × (Nat → Nat → Nat → Nat → Nat))),
      ∀ i f s v, Issues i r.1 f → s.ready r.1 f = true → s.view r.1 f = v →
        Does i r.1 f s (v.writeLanes f.e f.d (intWidth f.q.toNat) (overlapsIn f.d [f.a, f.b]) (v.lanes.map (fun j =>
          (j, r.2 f.q.toNat (intWidth f.q.toNat) (v.srcLane f.a (intWidth f.q.toNat) j) (v.srcLane f.b (intWidth f.q.toNat) j)))))) ∧
  ((∀ r ∈ ([(0x200, fun _ a => a), (0x240, fun w a => if toInt w a < 0 then (2 ^ w - a) % 2 ^ w else a), (0x241, clzNat), (0x242, fun _ a => popNat a)] :
        List (Nat × (Nat → Nat → Nat))),
      ∀ i f s v, Issues i r.1 f → s.ready r.1 f = true → s.view r.1 f = v →
        Does i r.1 f s (v.writeLanes f.e f.d (intWidth f.q.toNat) (overlapsIn f.d [f.a]) (v.lanes.map (fun j =>
          (j, r.2 (intWidth f.q.toNat) (v.srcLane f.a (intWidth f.q.toNat) j)))))) ∧
    (∀ f s v, s.ready 0x230 f = true → s.view 0x230 f = v →
      Does (.vsel f) 0x230 f s (v.writeLanes f.e f.d (intWidth f.q.toNat) (overlapsIn f.d [f.a, f.b, f.x.setWidth 12]) (v.lanes.map (fun j =>
        (j, if v.srcLane (f.x.setWidth 12) (intWidth f.q.toNat) j ≠ 0 then v.srcLane f.a (intWidth f.q.toNat) j
            else v.srcLane f.b (intWidth f.q.toNat) j)))))) ∧
  ((∀ f s v, s.ready 0x250 f = true → s.view 0x250 f = v → 0 < v.mySeq.vlen →
      Does (.vredAdd f) 0x250 f s (v.writeLanes f.e f.d (intWidth f.q.toNat) (reduceMeets f.d f.a v.mySeq.vlen)
        [(0, (v.lanes.map (fun j => v.srcLane f.a (intWidth f.q.toNat) j)).sum % 2 ^ intWidth f.q.toNat)])) ∧
    (∀ r ∈ ([(.vredMin, 0x251, fun w a b => if toInt w a ≤ toInt w b then a else b), (.vredMax, 0x252, fun w a b => if toInt w a ≤ toInt w b then b else a),
        (.vredMinn, 0x253, fun _ a b => min a b), (.vredMaxn, 0x254, fun _ a b => max a b), (.vredAnd, 0x255, fun _ a b => a &&& b),
        (.vredOr, 0x256, fun _ a b => a ||| b), (.vredXor, 0x257, fun _ a b => a ^^^ b)] : List ((Fields → Instr) × Nat × (Nat → Nat → Nat → Nat))),
      ∀ f s v, s.ready r.2.1 f = true → s.view r.2.1 f = v →
        Does (r.1 f) r.2.1 f s (v.writeLanes f.e f.d (intWidth f.q.toNat) (reduceMeets f.d f.a v.mySeq.vlen)
          [(0, (v.lanes.drop 1).foldl (fun x j => r.2.2 (intWidth f.q.toNat) x (v.srcLane f.a (intWidth f.q.toNat) j))
            (v.srcLane f.a (intWidth f.q.toNat) 0))])))

/-- R116, Table 5.3: VADDIN, VSUBIN, VNEGIN, VNOTIN, VROTIN, VBREVIN and VMULIN change D's active lanes in place, without charge, in every form that expands to them; VMULIN with an even multiplier is the illegal-operand fault naming A. R117, R118: VSWAP exchanges D and A on every active lane, VCSWAP on those whose control is not zero; VREVL reverses the active lanes, VROTL rotates them by s[A] modulo VLEN, VBFLY exchanges each lane with lane i XOR s[A][6:0] where that is active. -/
def Obligations.VectorInPlaceResults : Prop :=
  ((∀ r ∈ ([(0x280, fun w d a => (d + a) % 2 ^ w), (0x281, fun w d a => (d + 2 ^ w - a) % 2 ^ w), (0x282, fun w d _ => (2 ^ w - d) % 2 ^ w),
        (0x283, fun w d _ => (2 ^ w - 1) ^^^ d), (0x284, fun w d a => (d <<< (a % w)) % 2 ^ w ||| d >>> (w - a % w)),
        (0x286, fun w d _ => revNat w d)] : List (Nat × (Nat → Nat → Nat → Nat))),
      ∀ i f s v, Issues i r.1 f → s.ready r.1 f = true → s.view r.1 f = v →
        Does i r.1 f s { st := v, lands := [changeLanes f.d (intWidth f.q.toNat) (v.lanes.map (fun j => (j, v.srcLane f.d (intWidth f.q.toNat) j,
          r.2 (intWidth f.q.toNat) (v.srcLane f.d (intWidth f.q.toNat) j) (v.srcLane f.a (intWidth f.q.toNat) j))))] }) ∧
    (∀ f s v, s.ready 0x285 f = true → s.view 0x285 f = v → (v.sreg f.a).toNat % 2 = 1 →
      Does (.vmulin f) 0x285 f s { st := v, lands := [changeLanes f.d (intWidth f.q.toNat) (v.lanes.map (fun j =>
        (j, v.srcLane f.d (intWidth f.q.toNat) j, v.srcLane f.d (intWidth f.q.toNat) j * ((v.sreg f.a).toNat % 2 ^ intWidth f.q.toNat) % 2 ^ intWidth f.q.toNat)))] }) ∧
    (∀ f s v, s.ready 0x285 f = true → s.view 0x285 f = v → (v.sreg f.a).toNat % 2 = 0 → exec (.vmulin f) s = .next (s.takeFault 0x02 1))) ∧
  ((∀ i f s v, Issues i 0x290 f → s.ready 0x290 f = true → s.view 0x290 f = v →
      Does i 0x290 f s { st := v, lands := exchange v f (fun _ => true) }) ∧
    (∀ f s v, s.ready 0x291 f = true → s.view 0x291 f = v →
      Does (.vcswap f) 0x291 f s { st := v, lands := exchange v f (fun j => v.srcLane f.b (intWidth f.q.toNat) j != 0) }) ∧
    (∀ i f s v, Issues i 0x2A0 f → s.ready 0x2A0 f = true → s.view 0x2A0 f = v →
      Does i 0x2A0 f s { st := v, lands := [changeLanes f.d (intWidth f.q.toNat) (v.lanes.map (fun j =>
        (j, v.srcLane f.d (intWidth f.q.toNat) j, v.srcLane f.d (intWidth f.q.toNat) (v.mySeq.vlen - 1 - j))))] }) ∧
    (∀ f s v, s.ready 0x2A1 f = true → s.view 0x2A1 f = v →
      Does (.vrotl f) 0x2A1 f s { st := v, lands := [changeLanes f.d (intWidth f.q.toNat) (v.lanes.map (fun j =>
        (j, v.srcLane f.d (intWidth f.q.toNat) j,
          v.srcLane f.d (intWidth f.q.toNat) ((j + (v.sreg f.a).toNat % v.mySeq.vlen) % v.mySeq.vlen))))] }) ∧
    (∀ f s v, s.ready 0x2A2 f = true → s.view 0x2A2 f = v →
      Does (.vbfly f) 0x2A2 f s { st := v, lands := [changeLanes f.d (intWidth f.q.toNat) (v.lanes.map (fun j =>
        (j, v.srcLane f.d (intWidth f.q.toNat) j, v.srcLane f.d (intWidth f.q.toNat)
          (if j ^^^ ((v.sreg f.a).toNat % 128) < v.mySeq.vlen then j ^^^ ((v.sreg f.a).toNat % 128) else j))))] }))

/-- R119, R120, Table 5.4: the keep operations push the plane of their kept bits and exchange D and A where it says so (VABSK: negate D), in every form that expands to them; on a full negative they are cause 0x21 with nothing changed. -/
def Obligations.KeepResults : Prop :=
  (∀ r ∈ ([(0x2C0, fun w y x => decide (toInt w x < toInt w y)), (0x2C1, fun w y x => decide (toInt w y < toInt w x)),
      (0x2C2, fun _ y x => decide (x < y)), (0x2C3, fun _ y x => decide (y < x))] : List (Nat × (Nat → Nat → Nat → Bool))),
    ∀ i f s v swaps, Issues i r.1 f → s.ready r.1 f = true → s.view r.1 f = v →
      (swaps = fun j => r.2 (intWidth f.q.toNat) (v.srcLane f.a (intWidth f.q.toNat) j) (v.srcLane f.d (intWidth f.q.toNat) j)) →
      (v.myCore.neg.length < 4096 → Does i r.1 f s
        { st := v.modCore v.node (fun k => { k with neg := planeOf v.lanes swaps :: k.neg }), lands := exchange v f swaps }) ∧
      (4096 ≤ v.myCore.neg.length → exec i s = .next (s.takeFault 0x21 0))) ∧
  (∀ i f s v isNeg, Issues i 0x2C4 f → s.ready 0x2C4 f = true → s.view 0x2C4 f = v →
    (isNeg = fun j => decide (toInt (intWidth f.q.toNat) (v.srcLane f.d (intWidth f.q.toNat) j) < 0)) →
    (v.myCore.neg.length < 4096 → Does i 0x2C4 f s
      { st := v.modCore v.node (fun k => { k with neg := planeOf v.lanes isNeg :: k.neg }),
        lands := [changeLanes f.d (intWidth f.q.toNat) ((v.lanes.filter isNeg).map (fun j => (j, v.srcLane f.d (intWidth f.q.toNat) j,
          negW (intWidth f.q.toNat) (v.srcLane f.d (intWidth f.q.toNat) j))))] }) ∧
    (4096 ≤ v.myCore.neg.length → exec i s = .next (s.takeFault 0x21 0)))

/-- R121, R119: VUNCX undoes VMAXK: after VMAXK of D and A, VUNCX of the same operands and type (kind MAX) restores every cell of the matrix file and the negative, and charges nothing. -/
def Obligations.VuncxUndoesVmaxk : Prop :=
  ∀ f g s t, s.hold = false → s.ready 0x2C0 f = true → s.myCore.neg.length < 4096 → s.mySeq.vlen ≤ 128 →
    exec (.vmaxk f) s = .next t → t.ready 0x2D0 g = true → g.d = f.d → g.a = f.a → g.q = f.q → g.x = 0 →
    ∃ u, exec (.vuncx g) t = .next u ∧ (∀ k, u.myCore.cell k = (s.view 0x2C0 f).myCore.cell k) ∧ u.myCore.neg = s.myCore.neg ∧
      u.myCore.sysreg 0x041 = s.myCore.sysreg 0x041

/-- R121, R123: the inverses pop the top plane, undo what it says, and are charged the bits in which it differs from the plane rebuilt from the restored operands; NPUSH pushes the plane of bit X[4:0] of A, NUNPUSH pops it and is charged the difference, NPOP XORs it into D and is charged all its bits, NDROP drops planes and is charged all their bits, NDEPTH reads NTOP; an empty or too shallow negative is cause 0x22, and NPUSH onto a full one is cause 0x21. -/
def Obligations.NegativeResults : Prop :=
  (∀ i f s v p rest, Issues i 0x2D1 f → s.ready 0x2D1 f = true → s.view 0x2D1 f = v → v.myCore.neg = p :: rest →
    Does i 0x2D1 f s
      { st := (v.modCore v.node (fun k => { k with neg := rest })).charge v.node (popNat (p ^^^ planeOf v.lanes (fun j => decide (toInt (intWidth f.q.toNat)
            (if p.getLsbD j then negW (intWidth f.q.toNat) (v.srcLane f.d (intWidth f.q.toNat) j) else v.srcLane f.d (intWidth f.q.toNat) j) < 0))).toNat),
        lands := [changeLanes f.d (intWidth f.q.toNat) ((v.lanes.filter (fun j => p.getLsbD j)).map (fun j => (j, v.srcLane f.d (intWidth f.q.toNat) j,
          if p.getLsbD j then negW (intWidth f.q.toNat) (v.srcLane f.d (intWidth f.q.toNat) j) else v.srcLane f.d (intWidth f.q.toNat) j)))] }) ∧
  (∀ i f s v p rest dAt aAt, Issues i 0x2D0 f → s.ready 0x2D0 f = true → s.view 0x2D0 f = v → v.myCore.neg = p :: rest →
    (dAt = fun j => if p.getLsbD j && !laneMeets f.d f.a j then v.srcLane f.a (intWidth f.q.toNat) j else v.srcLane f.d (intWidth f.q.toNat) j) →
    (aAt = fun j => if p.getLsbD j && !laneMeets f.d f.a j then v.srcLane f.d (intWidth f.q.toNat) j else v.srcLane f.a (intWidth f.q.toNat) j) →
    Does i 0x2D0 f s
      { st := (v.modCore v.node (fun k => { k with neg := rest })).charge v.node (popNat (p ^^^ planeOf v.lanes (fun j =>
          if f.x.getLsbD 0 then decide (readInt f.q.toNat (intWidth f.q.toNat) (aAt j) < readInt f.q.toNat (intWidth f.q.toNat) (dAt j))
          else decide (readInt f.q.toNat (intWidth f.q.toNat) (dAt j) < readInt f.q.toNat (intWidth f.q.toNat) (aAt j)))).toNat),
        lands := exchange v f (fun j => p.getLsbD j) }) ∧
  (∀ i f s v, (Issues i 0x2D0 f ∧ s.ready 0x2D0 f = true ∧ s.view 0x2D0 f = v) ∨ (Issues i 0x2D1 f ∧ s.ready 0x2D1 f = true ∧ s.view 0x2D1 f = v) →
    v.myCore.neg = [] → exec i s = .next (s.takeFault 0x22 0)) ∧
  (∀ f s v, s.ready 0x2E0 f = true → s.view 0x2E0 f = v → v.myCore.neg.length < 4096 →
    Does (.npush f) 0x2E0 f s
      { st := v.modCore v.node (fun k => { k with neg := planeOf v.lanes (fun j => (v.srcLane f.a 32 j).testBit (f.x.toNat % 32)) :: k.neg }) }) ∧
  (∀ f s v, s.ready 0x2E0 f = true → s.view 0x2E0 f = v → 4096 ≤ v.myCore.neg.length → exec (.npush f) s = .next (s.takeFault 0x21 0)) ∧
  (∀ r ∈ ([(.nunpush, 0x2E1), (.npop, 0x2E2)] : List ((Fields → Instr) × Code)), ∀ f s v, s.ready r.2 f = true → s.view r.2 f = v →
    v.myCore.neg = [] → exec (r.1 f) s = .next (s.takeFault 0x22 0)) ∧
  (∀ f s v p rest, s.ready 0x2E1 f = true → s.view 0x2E1 f = v → v.myCore.neg = p :: rest →
    Does (.nunpush f) 0x2E1 f s
      { st := (v.modCore v.node (fun k => { k with neg := rest })).charge v.node
          (popNat (p ^^^ planeOf v.lanes (fun j => (v.srcLane f.a 32 j).testBit (f.x.toNat % 32))).toNat) }) ∧
  (∀ f s v p rest, s.ready 0x2E2 f = true → s.view 0x2E2 f = v → v.myCore.neg = p :: rest →
    Does (.npop f) 0x2E2 f s
      { st := (v.modCore v.node (fun k => { k with neg := rest })).charge v.node (popNat p.toNat),
        lands := [{ field := f.d, width := 32, e := false,
                    lanes := (v.lanes.filter (fun j => p.getLsbD j)).map (fun j => (j, BitVec.ofNat 64 (2 ^ (f.x.toNat % 32)))) }] }) ∧
  (∀ f s v, s.ready 0x2E3 f = true → s.view 0x2E3 f = v → f.x.toNat ≤ v.myCore.neg.length →
    Does (.ndrop f) 0x2E3 f s
      { st := (v.modCore v.node (fun k => { k with neg := v.myCore.neg.drop f.x.toNat })).charge v.node
          ((v.myCore.neg.take f.x.toNat).foldl (fun a p => a + popNat p.toNat) 0) }) ∧
  (∀ f s v, s.ready 0x2E3 f = true → s.view 0x2E3 f = v → v.myCore.neg.length < f.x.toNat → exec (.ndrop f) s = .next (s.takeFault 0x22 0)) ∧
  (∀ f s v, s.ready 0x2E6 f = true → s.view 0x2E6 f = v →
    Does (.ndepth f) 0x2E6 f s { st := v.setReg (regNum f.d) (BitVec.ofNat 64 v.myCore.neg.length) })

/-- R124, R125: NSPILL stores the top n planes at s[A], the oldest lowest, and drops them; NFILL loads n planes from s[A], the oldest lowest, and retires as it does so; ERASE writes zero to D's active lanes and is charged their old bits. -/
def Obligations.SpillFillAndErase : Prop :=
  (∀ f s v, s.ready 0x2E4 f = true → s.view 0x2E4 f = v → f.x.toNat ≤ v.myCore.neg.length → (v.sreg f.a).toNat % 16 = 0 →
    v.clear Want.store 8 (units (v.sreg f.a) 8 (2 * f.x.toNat)) = true →
    Does (.nspill f) 0x2E4 f s
      { st := (v.passed Want.store 8 (units (v.sreg f.a) 8 (2 * f.x.toNat))).modMyCore (fun k => { k with neg := v.myCore.neg.drop f.x.toNat }),
        stores := (v.passed Want.store 8 (units (v.sreg f.a) 8 (2 * f.x.toNat))).planeStores (v.sreg f.a) (v.myCore.neg.take f.x.toNat).reverse }) ∧
  (∀ f s v, s.ready 0x2E5 f = true → s.view 0x2E5 f = v → v.myCore.neg.length + f.x.toNat ≤ 4096 → (v.sreg f.a).toNat % 16 = 0 →
    v.clear Want.load 8 (units (v.sreg f.a) 8 (2 * f.x.toNat)) = true →
    ∃ t l, Does (.nfill f) 0x2E5 f s { st := t.modMyCore (fun k => { k with neg := l ++ v.myCore.neg }), atOnce := true } ∧
      t = v.passed Want.load 8 (units (v.sreg f.a) 8 (2 * f.x.toNat)) ∧ l.length = f.x.toNat ∧
      ∀ j, j < f.x.toNat → l.getD (f.x.toNat - 1 - j) 0 = BitVec.ofNat 128 (t.load t.node (v.sreg f.a + BitVec.ofNat 64 (16 * j)) 8 +
        2 ^ 64 * t.load t.node (v.sreg f.a + BitVec.ofNat 64 (16 * j + 8)) 8)) ∧
  (∀ i f s v, Issues i 0x2F0 f → s.ready 0x2F0 f = true → s.view 0x2F0 f = v →
    Does i 0x2F0 f s (v.writeLanes true f.d (intWidth f.q.toNat) (fun _ => true) (v.lanes.map (fun j => (j, 0)))))

/-! ## Floating point and conversion -/

/-- R156 to R162, R167, Tables 7.2 and 7.6: the lane results of VFADD, VFSUB, VFMUL, VFMIN, VFMAX, VFDIV, VFSCALE, VFCOPYSIGN and the eight VFCMP, in their own forms and in every 4-byte form that expands to them, with their flags, traps and write form. R138 to R141: on finite operands VFADD, VFSUB, VFMUL, VFDIV by a number that is not zero, and VFSCALE deliver the exact sum, difference, product, quotient or a × 2^n, rounded once; a zero result has the sign of the exact result, and an exact zero sum of unlike signs is +0, or −0 under RDN. An infinity and a number that the operation admits give an infinity or a zero of the right sign without a flag. R161: VFSCALE of a NaN is the canonical NaN, of an infinity that infinity. R160: VFMIN and VFMAX give one of their operands, −0 below +0; a lone NaN gives way to the other operand, and only a signalling NaN raises a flag. R162: VFCOPYSIGN is a with the sign bit of b, a NaN in a being the canonical NaN. R167: a compare gives all ones where its condition holds and 0 elsewhere, zeros being equal; LT, LE, GT and GE raise NV for any NaN, the others for a signalling one. -/
def Obligations.VectorFloatTwoSourceResults : Prop :=
  (∀ r ∈ ([(0x400, fpAdd), (0x401, fpSub), (0x402, fpMul), (0x403, fpMin), (0x404, fpMax), (0x405, fpDiv), (0x406, fpScale), (0x407, fpCopysign),
      (0x430, fun t env a b => fpCmp t env true false Fp.eq a b), (0x431, fun t env a b => fpCmp t env true true (fun x y => !x.eq y) a b),
      (0x432, fun t env a b => fpCmp t env false false Fp.lt a b), (0x433, fun t env a b => fpCmp t env false false (fun x y => !y.lt x) a b),
      (0x434, fun t env a b => fpCmp t env false false (fun x y => y.lt x) a b), (0x435, fun t env a b => fpCmp t env false false (fun x y => !x.lt y) a b),
      (0x436, fun t env a b => fpCmp t env true true (fun _ _ => false) a b), (0x437, fun t env a b => fpCmp t env true false (fun _ _ => true) a b)] :
      List (Nat × (Fmt → FpEnv → Nat → Nat → FpOut))),
    ∀ i f s v outs, Issues i r.1 f → s.ready r.1 f = true → s.view r.1 f = v →
      (outs = v.lanes.map (fun j => (j, r.2 (fmtOf f.q.toNat) v.fpEnv (v.srcLane f.a (fmtOf f.q.toNat).width j) (v.srcLane f.b (fmtOf f.q.toNat).width j)))) →
      FpDoes i r.1 f s v (fmtOf f.q.toNat).width (overlapsIn f.d [f.a, f.b]) (outs.map (fun p => (p.1, p.2.fl))) (outs.map (fun p => (p.1, p.2.bits)))) ∧
  (∀ t ∈ [Fmt.f64, Fmt.f32, Fmt.f16, Fmt.bf16], ∀ (env : FpEnv) a b p m e q n g x y, env.rm < 4 →
    t.operand env.ftz a = .fin p m e → t.operand env.ftz b = .fin q n g → (Fp.fin p m e).number = x → (Fp.fin q n g).number = y →
    (x + y ≠ 0 → t.Rounded env (x + y) (fpAdd t env a b)) ∧
    (x + y = 0 → fpAdd t env a b = ⟨t.sgn (if p = q then p else env.rm == 2), 0⟩) ∧
    (x - y ≠ 0 → t.Rounded env (x - y) (fpSub t env a b)) ∧
    (x - y = 0 → fpSub t env a b = ⟨t.sgn (if p ≠ q then p else env.rm == 2), 0⟩) ∧
    (x * y ≠ 0 → t.Rounded env (x * y) (fpMul t env a b)) ∧
    (x * y = 0 → fpMul t env a b = ⟨t.sgn (p != q), 0⟩) ∧
    (y ≠ 0 → x ≠ 0 → t.Rounded env (x / y) (fpDiv t env a b)) ∧
    (y ≠ 0 → x = 0 → fpDiv t env a b = ⟨t.sgn (p != q), 0⟩)) ∧
  (∀ t ∈ [Fmt.f64, Fmt.f32, Fmt.f16, Fmt.bf16], ∀ (env : FpEnv) a b p m e x, env.rm < 4 → t.operand env.ftz a = .fin p m e → (Fp.fin p m e).number = x →
    (x ≠ 0 → t.Rounded env (x * twoTo (toInt t.width b)) (fpScale t env a b)) ∧ (x = 0 → fpScale t env a b = ⟨t.sgn p, 0⟩)) ∧
  (∀ t ∈ [Fmt.f64, Fmt.f32, Fmt.f16, Fmt.bf16], ∀ (env : FpEnv) a b x y, t.operand env.ftz a = x → t.operand env.ftz b = y →
    (x.isNan = true → fpScale t env a b = ⟨t.nan, x.sigFlag⟩) ∧ (∀ p, x = .inf p → fpScale t env a b = ⟨t.infinity p, 0⟩) ∧
    (∀ p q n g, x = .inf p → y = .fin q n g → fpAdd t env a b = ⟨t.infinity p, 0⟩ ∧ fpSub t env a b = ⟨t.infinity p, 0⟩ ∧
      fpDiv t env a b = ⟨t.infinity (p != q), 0⟩ ∧ (n ≠ 0 → fpMul t env a b = ⟨t.infinity (p != q), 0⟩)) ∧
    (∀ p q m e, x = .fin p m e → y = .inf q → fpAdd t env a b = ⟨t.infinity q, 0⟩ ∧ fpSub t env a b = ⟨t.infinity (!q), 0⟩ ∧
      fpDiv t env a b = ⟨t.sgn (p != q), 0⟩ ∧ (m ≠ 0 → fpMul t env a b = ⟨t.infinity (p != q), 0⟩)) ∧
    (∀ p q, x = .inf p → y = .inf q → (p = q → fpAdd t env a b = ⟨t.infinity p, 0⟩) ∧ (p ≠ q → fpSub t env a b = ⟨t.infinity p, 0⟩) ∧
      fpMul t env a b = ⟨t.infinity (p != q), 0⟩) ∧
    (∀ r ∈ ([(fpMin, x.Below y, y.Below x, x.neg || y.neg), (fpMax, y.Below x, x.Below y, x.neg && y.neg)] :
        List ((Fmt → FpEnv → Nat → Nat → FpOut) × Prop × Prop × Bool)), ∀ o, r.1 t env a b = o →
      o.fl = x.sigFlag ||| y.sigFlag ∧ (x.isNan = true → t.Shows o.bits y) ∧ (y.isNan = true → t.Shows o.bits x) ∧
      (r.2.1 → t.Shows o.bits x) ∧ (r.2.2.1 → t.Shows o.bits y) ∧
      (x.isNan = false → y.isNan = false → ¬ r.2.1 → ¬ r.2.2.1 → t.Shows o.bits (x.withSign r.2.2.2))) ∧
    (∀ o, fpCopysign t env a b = o → t.Shows o.bits (x.withSign (b / t.signBit % 2 == 1)) ∧ o.fl = x.sigFlag ||| (t.value b).sigFlag) ∧
    (∀ r ∈ ([(true, false, Fp.eq, x.isNan = false ∧ y.isNan = false ∧ ¬ x.Below y ∧ ¬ y.Below x),
        (true, true, fun x y => !x.eq y, x.isNan = true ∨ y.isNan = true ∨ x.Below y ∨ y.Below x),
        (false, false, Fp.lt, x.Below y), (false, false, fun x y => !y.lt x, x.isNan = false ∧ y.isNan = false ∧ ¬ y.Below x),
        (false, false, fun x y => y.lt x, y.Below x), (false, false, fun x y => !x.lt y, x.isNan = false ∧ y.isNan = false ∧ ¬ x.Below y),
        (true, true, fun _ _ => false, x.isNan = true ∨ y.isNan = true), (true, false, fun _ _ => true, x.isNan = false ∧ y.isNan = false)] :
        List (Bool × Bool × (Fp → Fp → Bool) × Prop)), ∀ o, fpCmp t env r.1 r.2.1 r.2.2.1 a b = o →
      (r.2.2.2 → o.bits = 2 ^ t.width - 1) ∧ (¬ r.2.2.2 → o.bits = 0) ∧
      o.fl = if r.1 then x.sigFlag ||| y.sigFlag else if x.isNan || y.isNan then 16 else 0))

/-- R162, R165, R166, Tables 7.4 and 7.5: the lane results of VFABS, VFSQRT, VFRCP, VFRSQ, VFEXP2, VFLOG2, VFFLOOR, VFCEIL, VFTRUNC, VFRINT and VFCLASS, in every form that expands to them, with their flags, traps and write form. A NaN gives the canonical NaN, with NV where it is signalling, in all but VFCLASS. VFABS is the operand without its sign, with no flag. The square root, the reciprocal and the reciprocal of the root are the exact values, rounded once in FPCTL.RM. 2^a of an integer a and the logarithm of a power of two are exact, and rounded where the format does not hold them; elsewhere the result is the rounding of a number strictly between the two powers, or the two integers, that the exact value lies between: how near that number comes is the model's reading of correct rounding (DEDUCED, log 39), of which this states no more. VFFLOOR, VFCEIL and VFTRUNC round to an integral value towards −∞, +∞ and 0 with no flag, VFRINT in FPCTL.RM with NX where it differs from a; a zero keeps the sign of a. VFCLASS sets the one bit of Table 7.5 and raises no flag. The special operands of Table 7.4 give what it states. -/
def Obligations.VectorFloatOneSourceResults : Prop :=
  (∀ r ∈ ([(0x420, fpAbs), (0x421, fpSqrt), (0x422, fpRcp), (0x423, fpRsq), (0x424, fpExp2), (0x425, fpLog2),
      (0x426, fun t env a => fpIntegral t env 2 false a), (0x427, fun t env a => fpIntegral t env 3 false a),
      (0x428, fun t env a => fpIntegral t env 1 false a), (0x429, fun t env a => fpIntegral t env env.rm true a), (0x42A, fpClass)] :
      List (Nat × (Fmt → FpEnv → Nat → FpOut))),
    ∀ i f s v outs, Issues i r.1 f → s.ready r.1 f = true → s.view r.1 f = v →
      (outs = v.lanes.map (fun j => (j, r.2 (fmtOf f.q.toNat) v.fpEnv (v.srcLane f.a (fmtOf f.q.toNat).width j)))) →
      FpDoes i r.1 f s v (fmtOf f.q.toNat).width (overlapsIn f.d [f.a]) (outs.map (fun p => (p.1, p.2.fl))) (outs.map (fun p => (p.1, p.2.bits)))) ∧
  (∀ t ∈ [Fmt.f64, Fmt.f32, Fmt.f16, Fmt.bf16], ∀ (env : FpEnv) a x, env.rm < 4 → t.operand env.ftz a = x →
    (x.isNan = true → ∀ op ∈ [fpAbs, fpSqrt, fpRcp, fpRsq, fpExp2, fpLog2, fun t env a => fpIntegral t env 2 false a,
      fun t env a => fpIntegral t env 3 false a, fun t env a => fpIntegral t env 1 false a,
      fun t env a => fpIntegral t env env.rm true a], op t env a = ⟨t.nan, x.sigFlag⟩) ∧
    (x.isNan = false → ∀ o, fpAbs t env a = o → t.Shows o.bits (x.withSign false) ∧ o.fl = 0) ∧
    (∀ p, x = .inf p → fpRcp t env a = ⟨t.sgn p, 0⟩ ∧ fpExp2 t env a = ⟨if p then t.sgn false else t.infinity false, 0⟩ ∧
      (p = false → fpSqrt t env a = ⟨t.infinity false, 0⟩ ∧ fpRsq t env a = ⟨t.sgn false, 0⟩ ∧ fpLog2 t env a = ⟨t.infinity false, 0⟩) ∧
      (p = true → ∀ op ∈ [fpSqrt, fpRsq, fpLog2], op t env a = ⟨t.nan, 16⟩) ∧
      ∀ rm exact, fpIntegral t env rm exact a = ⟨t.infinity p, 0⟩) ∧
    (∀ p m e y, x = .fin p m e → (Fp.fin p m e).number = y →
      (y = 0 → fpSqrt t env a = ⟨t.sgn p, 0⟩ ∧ fpRcp t env a = ⟨t.infinity p, 8⟩ ∧ fpRsq t env a = ⟨t.infinity p, 8⟩ ∧
        fpLog2 t env a = ⟨t.infinity true, 8⟩) ∧
      (y < 0 → ∀ op ∈ [fpSqrt, fpRsq, fpLog2], op t env a = ⟨t.nan, 16⟩) ∧
      (0 < y → t.RootRounded env y (fpSqrt t env a) ∧ t.RootRounded env (1 / y) (fpRsq t env a)) ∧
      (y ≠ 0 → t.Rounded env (1 / y) (fpRcp t env a)) ∧
      (∀ n : Int, ((n : Rat) = y → t.Rounded env (twoTo n) (fpExp2 t env a)) ∧
        ((n : Rat) < y → y < (n : Rat) + 1 → ∃ z : Rat, twoTo n < z ∧ z < twoTo (n + 1) ∧ t.Rounded env z (fpExp2 t env a)) ∧
        (twoTo n = y → n = 0 → fpLog2 t env a = ⟨t.sgn false, 0⟩) ∧
        (twoTo n = y → n ≠ 0 → t.Rounded env (n : Rat) (fpLog2 t env a)) ∧
        (twoTo n < y → y < twoTo (n + 1) → ∃ z : Rat, (n : Rat) < z ∧ z < (n : Rat) + 1 ∧ t.Rounded env z (fpLog2 t env a))) ∧
      (∀ r ∈ [(2, false), (3, false), (1, false), (env.rm, true)], ∃ k : Int, RoundsTo r.1 y k ∧ t.Holds (fpIntegral t env r.1 r.2 a).bits p k ∧
        (fpIntegral t env r.1 r.2 a).fl = if r.2 = true ∧ (k : Rat) ≠ y then 1 else 0)) ∧
    (fpClass t env a).fl = 0 ∧ (x = .nan true → (fpClass t env a).bits = 2 ^ 8) ∧ (x = .nan false → (fpClass t env a).bits = 2 ^ 9) ∧
    (∀ p, x = .inf p → (fpClass t env a).bits = 2 ^ (if p then 0 else 7)) ∧
    (∀ p m e y, x = .fin p m e → (Fp.fin p m e).number = y →
      (y = 0 → (fpClass t env a).bits = 2 ^ (if p then 3 else 4)) ∧
      (y ≠ 0 → magnitude y < twoTo t.emin → (fpClass t env a).bits = 2 ^ (if p then 2 else 5)) ∧
      (twoTo t.emin ≤ magnitude y → (fpClass t env a).bits = 2 ^ (if p then 1 else 6))))

/-- R163, R164, R168, R169: VFMA, VFMS, VFNMA (in the type of Q) and VFMAC (in its wide type), rounded once; VFRED's tree of seven levels over the active lanes into lane 0; VFNEGIN inverts the sign bits in place; each in every form that expands to it. R138 to R141: on finite operands the fused operations deliver the exact value of Table 7.3, the product unrounded, rounded once to the type of the result; where it is zero, the sign that its product and its addend share, else +0, or −0 under RDN. -/
def Obligations.VectorFloatFusedAndReductions : Prop :=
  (∀ r ∈ ([(0x410, false, false), (0x411, false, true), (0x412, true, false), (0x413, false, false)] : List (Nat × Bool × Bool)),
    ∀ i f s v wide outs, Issues i r.1 f → s.ready r.1 f = true → s.view r.1 f = v →
      (wide = if r.1 = 0x413 ∧ (f.q = 1 ∨ f.q = 2) then Fmt.f32 else fmtOf f.q.toNat) →
      (outs = v.lanes.map (fun j => (j, fpFma (fmtOf f.q.toNat) wide v.fpEnv r.2.1 r.2.2 (v.srcLane f.a (fmtOf f.q.toNat).width j)
        (v.srcLane f.b (fmtOf f.q.toNat).width j) (v.srcLane (f.x.setWidth 12) wide.width j)))) →
      FpDoes i r.1 f s v wide.width (overlapsIn f.d [f.a, f.b, f.x.setWidth 12]) (outs.map (fun p => (p.1, p.2.fl)))
        (outs.map (fun p => (p.1, p.2.bits)))) ∧
  (∀ t ∈ [Fmt.f64, Fmt.f32, Fmt.f16, Fmt.bf16], ∀ wide ∈ [t, Fmt.f32], ∀ (env : FpEnv) negP negC a b c p m e q n g r k h prod add, env.rm < 4 →
    t.operand env.ftz a = .fin p m e → t.operand env.ftz b = .fin q n g → wide.operand env.ftz c = .fin r k h →
    (if negP then -1 else 1) * ((Fp.fin p m e).number * (Fp.fin q n g).number) = prod → (if negC then -1 else 1) * (Fp.fin r k h).number = add →
    (prod + add ≠ 0 → wide.Rounded env (prod + add) (fpFma t wide env negP negC a b c)) ∧
    (prod + add = 0 → fpFma t wide env negP negC a b c = ⟨wide.sgn (if ((p != q) != negP) = (r != negC) then r != negC else env.rm == 2), 0⟩)) ∧
  (∀ r ∈ ([(.vfredAdd, 0x440, false, fpAdd), (.vfredMax, 0x441, false, fpMax), (.vfredMin, 0x442, false, fpMin), (.vfredAmax, 0x443, true, fpMax)] :
      List ((Fields → Instr) × Nat × Bool × (Fmt → FpEnv → Nat → Nat → FpOut))),
    ∀ f s v reads tree, s.ready r.2.1 f = true → s.view r.2.1 f = v →
      (reads = v.lanes.map (fun j => (j, fpRead (fmtOf f.q.toNat) v.fpEnv r.2.2.1 (v.srcLane f.a (fmtOf f.q.toNat).width j)))) →
      (tree = fpTree (r.2.2.2 (fmtOf f.q.toNat) v.fpEnv) 7 (reads.map (fun p => (p.1, p.2.bits)))) →
      FpDoes (r.1 f) r.2.1 f s v (fmtOf f.q.toNat).width (reduceMeets f.d f.a v.mySeq.vlen) (reads.map (fun p => (p.1, p.2.fl)) ++ tree.2)
        [(0, match tree.1 with | p :: _ => p.2 | [] => 0)]) ∧
  (∀ i f s v, Issues i 0x450 f → s.ready 0x450 f = true → s.view 0x450 f = v →
    Does i 0x450 f s { st := v, lands := [changeLanes f.d (fmtOf f.q.toNat).width (v.lanes.map (fun j => (j, 0, 2 ^ ((fmtOf f.q.toNat).width - 1))))] })

/-- R138, R140: rounding a value that the format holds delivers that value and raises no flag, in each of the six formats and each rounding mode, where subnormals are not flushed. R138 to R141, Table 6.1: any number that is not zero is rounded once: in the mode to the format's precision, with NX where that is inexact; above the largest finite value to an infinity, the canonical NaN in E4M3, or to the largest finite value, as the mode says, with OF and NX; below the smallest normal value to the subnormal grid, with UF and NX where that is inexact, or to a zero of its sign with UF and NX where results are flushed. -/
def Obligations.RepresentableValuesRoundToThemselves : Prop :=
  ∀ t ∈ [Fmt.f64, Fmt.f32, Fmt.f16, Fmt.bf16, Fmt.e4m3, Fmt.e5m2],
    (∀ rm v, v < 2 ^ t.width → (t.value v).isNan = false → t.round ⟨rm, false⟩ (t.value v).exact = ⟨v, 0⟩) ∧
    (∀ (env : FpEnv) neg m e, env.rm < 4 → m ≠ 0 → t.Rounded env (Fp.fin neg m e).number (t.round env (.num neg m e false)))

/-- R136, R158, R159: an operation with a NaN operand delivers the canonical NaN of its format and raises NV exactly where an operand is a signalling NaN; 0 × ∞ and ∞ × 0, ∞ − ∞ and the sum of unlike infinities, 0 ÷ 0 and ∞ ÷ ∞ of any signs deliver it with NV, and a finite non-zero number over zero an infinity with DZ. -/
def Obligations.FloatSpecialCases : Prop :=
  ∀ t ∈ [Fmt.f64, Fmt.f32, Fmt.f16, Fmt.bf16], ∀ env a b x y, t.operand env.ftz a = x → t.operand env.ftz b = y →
    (x.isNan = true ∨ y.isNan = true → ∀ op ∈ [fpAdd, fpSub, fpMul, fpDiv], op t env a b = ⟨t.nan, x.sigFlag ||| y.sigFlag⟩) ∧
    (∀ m n, x = .inf m → y = .inf n → fpDiv t env a b = ⟨t.nan, 16⟩ ∧ (m ≠ n → fpAdd t env a b = ⟨t.nan, 16⟩) ∧
      (m = n → fpSub t env a b = ⟨t.nan, 16⟩)) ∧
    ((x.isZero = true ∧ y.isInf = true) ∨ (x.isInf = true ∧ y.isZero = true) → fpMul t env a b = ⟨t.nan, 16⟩) ∧
    (x.isZero = true → y.isZero = true → fpDiv t env a b = ⟨t.nan, 16⟩) ∧
    (∀ m k e n e2, x = .fin m k e → k ≠ 0 → y = .fin n 0 e2 → fpDiv t env a b = ⟨t.infinity (m != n), 8⟩)

/-- R145 to R154, Table 6.6: VCVT, VQNT, VDQNT, VSCL, VPACK, VUNPK and VSPLIT over the active lanes, with their flags, traps and write form. R148: VCVT delivers its source as Table 6.6 states: a number rounded once, saturating or overflowing as OVF says, to an integer rounded and held in the range; a NaN as the canonical NaN or 0; an integer to an integer saturated, with no flag. R149: VQNT delivers the exact quotient rounded once, the scale judged first. R150: VDQNT delivers the exact product rounded once. R151: VSCL forms the scale of the largest magnitude over the largest value of the destination, rounded up, or the least power of two not below it that FP32 holds. R153: VSPLIT delivers the head as VCVT does, and the exact rest rounded once as the tail. -/
def Obligations.ConversionResults : Prop :=
  (∀ f s v outs, s.ready 0x500 f = true → s.view 0x500 f = v →
    (outs = v.lanes.map (fun j => (j, convLane (f.x.toNat % 16) (dstCode f) (v.convEnv f) (f.x.getLsbD 8) (v.srcLane f.a (codeWidth (f.x.toNat % 16)) j)))) →
    FpDoes (.vcvt f) 0x500 f s v (codeWidth (dstCode f)) (overlapsIn f.d [f.a]) (outs.map (fun p => (p.1, p.2.fl))) (outs.map (fun p => (p.1, p.2.bits)))) ∧
  (∀ f s v outs, s.ready 0x510 f = true → s.view 0x510 f = v →
    (outs = v.lanes.map (fun j => (j, quantLane (dstCode f) (v.convEnv f) (f.x.getLsbD 8) (v.srcLane f.a 32 j) (v.srcLane f.b 32 j)))) →
    FpDoes (.vqnt f) 0x510 f s v (codeWidth (dstCode f)) (overlapsIn f.d [f.a, f.b]) (outs.map (fun p => (p.1, p.2.fl)))
      (outs.map (fun p => (p.1, p.2.bits)))) ∧
  (∀ f s v outs, s.ready 0x520 f = true → s.view 0x520 f = v →
    (outs = v.lanes.map (fun j => (j, dequantLane (f.x.toNat % 16) (dstCode f) (v.convEnv f) (v.srcLane f.a (codeWidth (f.x.toNat % 16)) j)
      (v.srcLane f.b 32 j)))) →
    FpDoes (.vdqnt f) 0x520 f s v (codeWidth (dstCode f)) (overlapsIn f.d [f.a, f.b]) (outs.map (fun p => (p.1, p.2.fl)))
      (outs.map (fun p => (p.1, p.2.bits)))) ∧
  (∀ f s v vals o, s.ready 0x530 f = true → s.view 0x530 f = v →
    (vals = v.lanes.map (fun j => (j, Fmt.f32.operand v.fpEnv.ftz (v.srcLane f.a 32 j)))) →
    (o = blockScale (dstCode f) (f.x.getLsbD 9) v.fpEnv.ftz (vals.map (fun p => p.2))) →
    FpDoes (.vscl f) 0x530 f s v 32 (reduceMeets f.d f.a v.mySeq.vlen) ((0, o.fl) :: vals.map (fun p => (p.1, p.2.sigFlag)))
      (v.lanes.map (fun j => (j, o.bits)))) ∧
  (∀ f s v, s.ready 0x540 f = true → s.view 0x540 f = v →
    Does (.vpack f) 0x540 f s (v.writeLanes f.e f.d 32 (fun _ => false)
      ((packedLanes v.mySeq.vlen (32 / codeWidth (dstCode f))).map (fun j => (j,
        (List.range (32 / codeWidth (dstCode f))).foldl (fun x k => if 32 / codeWidth (dstCode f) * j + k < v.mySeq.vlen then
          x + v.srcLane f.a (codeWidth (dstCode f)) (32 / codeWidth (dstCode f) * j + k) * 2 ^ (codeWidth (dstCode f) * k) else x) 0))))) ∧
  (∀ f s v, s.ready 0x541 f = true → s.view 0x541 f = v →
    Does (.vunpk f) 0x541 f s (v.writeLanes f.e f.d (codeWidth (dstCode f)) (fun _ => false) (v.lanes.map (fun j =>
      (j, v.srcLane f.a 32 (j / (32 / codeWidth (dstCode f))) / 2 ^ (codeWidth (dstCode f) * (j % (32 / codeWidth (dstCode f)))) %
        2 ^ codeWidth (dstCode f)))))) ∧
  (∀ f s v outs, s.ready 0x550 f = true → s.view 0x550 f = v →
    (outs = v.lanes.map (fun j => (j, splitLane (dstCode f) (v.convEnv f) (v.srcLane f.a 32 j)))) →
    FpDoes (.vsplit f) 0x550 f s v 64 (overlapsIn f.d [f.a]) (outs.map (fun p => (p.1, p.2.fl))) (outs.map (fun p => (p.1, p.2.bits)))) ∧
  (∀ src dst, src < 14 → dst < 14 → ∀ (env : FpEnv) ovf v o, env.rm < 4 → v < 2 ^ codeWidth src → convLane src dst env ovf v = o →
    (8 ≤ src → ∀ x, (fmtOf (src - 8)).operand env.ftz v = x →
      (x.isNan = true → o = if dst < 8 then ⟨0, 16⟩ else ⟨(fmtOf (dst - 8)).nan, x.sigFlag⟩) ∧
      (∀ p, x = .inf p → o = infinityIn dst ovf p) ∧
      (∀ p m e, x = .fin p m e → DeliveredIn dst env ovf (Fp.fin p m e).number p o)) ∧
    (src < 8 → ∀ z : Int, (z = if src < 4 ∧ 2 ^ (intWidth src - 1) ≤ v then (v : Int) - 2 ^ intWidth src else (v : Int)) →
      (8 ≤ dst → DeliveredIn dst env ovf (z : Rat) (decide (z < 0)) o) ∧
      (dst < 8 → o = ⟨wrap (intWidth dst) (max (intMin dst (intWidth dst)) (min (intMax dst (intWidth dst)) z)), 0⟩))) ∧
  (∀ dst, dst < 14 → ∀ (env : FpEnv) ovf a sc x y o nan, env.rm < 4 → sc < 2 ^ 32 → Fmt.f32.operand env.ftz a = x → Fmt.f32.operand env.ftz sc = y →
    quantLane dst env ovf a sc = o → (nan = if dst < 8 then 0 else (fmtOf (dst - 8)).nan) →
    (y.isNan = true ∨ y.isInf = true ∨ y.isZero = true ∨ 2 ^ 31 ≤ sc → o = ⟨nan, 16⟩) ∧
    (∀ n g, y = .fin false n g → n ≠ 0 →
      (x.isNan = true → o = ⟨nan, x.sigFlag⟩) ∧ (∀ p, x = .inf p → o = infinityIn dst ovf p) ∧
      (∀ p m e, x = .fin p m e → DeliveredIn dst env ovf ((Fp.fin p m e).number / (Fp.fin false n g).number) p o))) ∧
  (∀ src dst, src < 14 → dst ∈ [8, 9, 10] → ∀ (env : FpEnv) a sc x y o, env.rm < 4 → sourceOf src env.ftz a = x → Fmt.f32.operand env.ftz sc = y →
    dequantLane src dst env a sc = o →
    (x.isNan = true ∨ y.isNan = true → o = ⟨(fmtOf (dst - 8)).nan, x.sigFlag ||| y.sigFlag⟩) ∧
    ((x.isZero = true ∧ y.isInf = true) ∨ (x.isInf = true ∧ y.isZero = true) → o = ⟨(fmtOf (dst - 8)).nan, 16⟩) ∧
    (x.isNan = false → y.isNan = false → x.isZero = false → y.isZero = false → x.isInf = true ∨ y.isInf = true →
      o = ⟨(fmtOf (dst - 8)).infinity (x.neg != y.neg), 0⟩) ∧
    (∀ p m e q n g, x = .fin p m e → y = .fin q n g →
      DeliveredIn dst env true ((Fp.fin p m e).number * (Fp.fin q n g).number) (p != q) o)) ∧
  (∀ src, 8 ≤ src → src < 14 → ∀ ftz a, sourceOf src ftz a = (fmtOf (src - 8)).operand ftz a) ∧
  (∀ src, src < 8 → ∀ ftz (a : Nat) (z : Int), a < 2 ^ intWidth src → (z = if src < 4 ∧ 2 ^ (intWidth src - 1) ≤ a then (a : Int) - 2 ^ intWidth src else (a : Int)) →
    ∃ m e, sourceOf src ftz a = .fin (decide (z < 0)) m e ∧ (Fp.fin (decide (z < 0)) m e).number = (z : Rat)) ∧
  (∀ r ∈ [(12, 448), (13, 57344), (10, 65504), (0, 127), (4, 255), (1, 32767), (5, 65535)], ∀ pow2 ftz (vals : List Nat) (l : List Fp) o,
    l = vals.map (Fmt.f32.operand ftz) → blockScale r.1 pow2 ftz l = o →
    ((∃ x ∈ l, x.isNan = true) → o = ⟨0x7FC00000, 0⟩) ∧
    ((∀ x ∈ l, x.isNan = false) → (∃ x ∈ l, x.isInf = true) → o = ⟨0x7F800000, 0⟩) ∧
    ((∀ x ∈ l, x.isZero = true) → o = ⟨0x3F800000, 0⟩) ∧
    (∀ m : Rat, (∀ x ∈ l, x.isNan = false ∧ x.isInf = false ∧ magnitude x.number ≤ m) → (∃ x ∈ l, magnitude x.number = m) → m ≠ 0 →
      ∃ u : FpOut, o = (if ftz = true ∧ u.bits < 0x00800000 then ⟨0x00800000, u.fl⟩ else u) ∧
        (pow2 = false → ∃ w : FpOut, Fmt.f32.Rounded ⟨3, false⟩ (m / (r.2 : Rat)) w ∧ u.bits = w.bits ∧ u.fl = w.fl &&& 1) ∧
        (pow2 = true → ∃ k : Int, -149 ≤ k ∧ m / (r.2 : Rat) ≤ twoTo k ∧ (k = -149 ∨ twoTo (k - 1) < m / (r.2 : Rat)) ∧
          Fmt.f32.Holds u.bits false (twoTo k) ∧ u.fl = if twoTo k = m / (r.2 : Rat) then 0 else 1))) ∧
  (∀ dst ∈ [9, 10, 12], ∀ (env : FpEnv) a x o h tail, env.rm < 4 → Fmt.f32.operand env.ftz a = x → splitLane dst env a = o →
    o.bits % 2 ^ 32 = h → o.bits / 2 ^ 32 = tail →
    h = (convLane 8 dst env false a).bits ∧
    (x.isNan = true → tail = 0x7FC00000 ∧ o.fl = x.sigFlag) ∧
    (∀ p, x = .inf p → (dst ≠ 12 → tail = 0 ∧ o.fl = 0) ∧ (dst = 12 → tail = Fmt.f32.infinity p ∧ o.fl = 0)) ∧
    (∀ p m e, x = .fin p m e →
      (∀ q, (fmtOf (dst - 8)).value h = .inf q → tail = Fmt.f32.infinity (!q) ∧ o.fl = 0) ∧
      (∀ q n g d, (fmtOf (dst - 8)).value h = .fin q n g → d = (Fp.fin p m e).number - (Fp.fin q n g).number →
        (d ≠ 0 → Fmt.f32.Rounded env d ⟨tail, o.fl⟩) ∧ (d = 0 → tail = Fmt.f32.sgn (env.rm == 2) ∧ o.fl = 0))))

/-! ## The matrix array -/

/-- R174, R175, R180, Table 8.1: a dense MMA promotes, for each column below COLS, the products of the K elements of a row-buffer slot and of the active weight bank into the accumulator cell of row AROW, X[12:6], and leaves every other accumulator cell; MSTAT only gains bits. -/
def Obligations.MmaPromotesOneRow : Prop :=
  ∀ f s v slot row acc, s.ready 0x630 f = true → s.view 0x630 f = v → v.myCore.arrayHeld = false → v.myCore.arrayBusy = false → f.x.getLsbD 16 = false →
    slot = f.x.toNat % 64 → row = f.x.toNat / 64 % 128 → acc = f.x.toNat / 8192 % 2 → v.mySeq.cols ≤ 128 →
    ∃ t, exec (.mma f) s = .next t ∧
      (∀ n, n < v.mySeq.cols → t.myCore.accCell acc row n =
        BitVec.ofNat 32 (promote (elemMode (f.x.toNat / 16384 % 4))
          ((List.range (min v.mySeq.klen 128)).map (fun k =>
            (v.myCore.slotElem slot k, v.myCore.bankElem (bitNat v.myCore.mx.active) k n)))
          (Tab.get v.myCore.mx.scales slot 0).toNat (Tab.get v.myCore.mx.tile (bitNat v.myCore.mx.active) 0).toNat
          (v.myCore.accCell acc row n).toNat).1) ∧
      (∀ a r n, a < 2 → r < 128 → n < 128 → (a, r) ≠ (acc, row) ∨ v.mySeq.cols ≤ n → t.myCore.accCell a r n = v.myCore.accCell a r n) ∧
      t.myCore.sysreg 0x080 &&& v.myCore.sysreg 0x080 = v.myCore.sysreg 0x080

/-- R180 to R184, R186, R192: what MMA (in every form), MLDA, WSWAP, ADRN, ACLR and MTT do: where the array is not held by a nest or a reel, no earlier pass occupies it (MMA: a pass does for 4 × stretch cycles with E4M3 elements, and else for 8 × stretch; R172, R185), no copy into the weight bank has begun (WSWAP), and the first row is not reserved (ADRN, ACLR), each answers the next state that its rule gives. MLDA fills all 128 elements of its slot, from four elements a word where PK is 1, zero from KLEN on; WSWAP exchanges the banks; ACLR clears whole rows below ROWS; MTT writes a word of the shadow table after CT's queued writes. ADRN drains rows below ROWS, scaled by B and rounded to Q with their flags and traps, or raw and without B where FROM is 2; where its results would be too many in flight it stalls with nothing done (R327). While the array is held MMA, MLDA and WSWAP stall, and so do MMA while a pass occupies it, WSWAP while a fill of the bank has begun, and ADRN and ACLR on a reserved row; a stall is no wait of R103. That a fill of the bank begins with the issue of its CPYW (DEDUCED, log 85), and that the rows of one ADRN above 32 land at once (DEDUCED, log 68), are the model's readings. -/
def Obligations.MatrixInstructionResults : Prop :=
  (∀ f s v elem, s.ready 0x630 f = true → s.view 0x630 f = v → v.myCore.arrayHeld = false → elem = f.x.toNat / 16384 % 4 →
    (v.myCore.arrayBusy = false → exec (.mma f) s = .next (s.commit 0x630 f { st := v.modMyCore (fun c =>
      let d := c.pass (elemMode elem) (f.x.getLsbD 16) false (f.x.toNat % 64) (f.x.toNat / 8192 % 2) (f.x.toNat / 64 % 128) v.mySeq.klen v.mySeq.cols
      { d with arrayAt := some (d.cycle + BitVec.ofNat 64 ((if elem = 0 then 4 else 8) * stretch (v.effRc v.node f.rc))) }) })) ∧
    (v.myCore.arrayBusy = true → exec (.mma f) s = .next v.endWait)) ∧
  (∀ c : Core, c.arrayBusy = true ↔ ∃ m, c.arrayAt = some m ∧ reached c.cycle m = false) ∧
  (∀ f s v (elem : Nat → Nat), s.ready 0x640 f = true → s.view 0x640 f = v → v.myCore.arrayHeld = false →
    (∀ k, elem k = if v.mySeq.klen ≤ k then 0 else if f.x.getLsbD 6 then v.srcLane f.a 32 (k / 4) / 256 ^ (k % 4) % 256 else v.srcLane f.a 8 k) →
    exec (.mlda f) s = .next (s.commit 0x640 f { st := v.modMyCore (fun c =>
      ({ c with mx := { c.mx with
          elems := (List.range 128).foldl (fun t k => Tab.put0 0 t (128 * (f.x.toNat % 64) + k) (BitVec.ofNat 8 (elem k))) c.mx.elems,
          scales := Tab.put0 0 c.mx.scales (f.x.toNat % 64) (BitVec.ofNat 32 (v.srcLane f.b 32 0)) } }).setFill (f.x.toNat % 64) true) })) ∧
  (∀ f s v, s.ready 0x650 f = true → s.view 0x650 f = v → v.myCore.arrayHeld = false → v.myCore.fillsBank = false →
    exec (.wswap f) s = .next (s.commit 0x650 f { st := v.modMyCore (fun c => { c with mx := { c.mx with active := !c.mx.active } }) })) ∧
  (∀ f s v, s.ready 0x670 f = true → s.view 0x670 f = v → v.myCore.rowReserved (f.x.toNat / 128 % 2) (f.x.toNat % 128) = false →
    exec (.aclr f) s = .next (s.commit 0x670 f { st := v.modMyCore (fun c => (drainRows v f).foldl (fun c j =>
      (List.range 128).foldl (fun c n => c.setAcc (f.x.toNat / 128 % 2) (f.x.toNat % 128 + j) n 0) c) c) })) ∧
  (∀ f s v, s.ready 0x600 f = true → s.view 0x600 f = v →
    exec (.mtt f) s = .next (s.commit 0x600 f { st := (v.drainQueue v.node v.me).modMyCore (fun c =>
      { c with nestTab := Tab.put0 0 c.nestTab (f.x.toNat % 32) ((v.sreg f.a).setWidth 32) }) })) ∧
  (∀ f s v raw w (val : Nat → Nat → FpOut) fl d, s.ready 0x660 f = true → s.view 0x660 f = v →
    v.myCore.rowReserved (f.x.toNat / 128 % 2) (f.x.toNat % 128) = false →
    (raw = true ∧ f.x.toNat / 32768 % 4 = 2 ∧ w = 32 ∧
        (∀ j i, val j i = ⟨(v.myCore.accCell (f.x.toNat / 128 % 2) (f.x.toNat % 128 + j) i).toNat, 0⟩)) ∨
      (raw = false ∧ f.x.toNat / 32768 % 4 ≠ 2 ∧ w = (fmtIn f).width ∧
        (∀ j i, val j i = drainValue (f.x.toNat / 32768 % 4 == 1) (fmtIn f) v.fpEnv (f.q == 4 && !f.x.getLsbD 17)
          (v.myCore.accCell (f.x.toNat / 128 % 2) (f.x.toNat % 128 + j) i).toNat (v.srcLane f.b 32 i))) →
    fl = (drainRows v f).flatMap (fun j => v.lanes.map (fun i => (i, (val j i).fl))) →
    d = (drainRows v f).foldl (fun (d : Done) j =>
      let e := d.st.writeLanes f.e (f.d + BitVec.ofNat 12 j) w (overlapsIn (f.d + BitVec.ofNat 12 j) (if raw then [] else [f.b]))
        (v.lanes.map (fun i => (i, (val j i).bits)))
      { e with lands := d.lands ++ e.lands }) { st := v.addFlags (allFlags fl) } →
    (allFlags fl &&& v.fpTraps ≠ 0 → exec (.adrn f) s = .next (s.takeFault 0x30
      (BitVec.ofNat 64 (allFlags fl + 256 * trapLane v.fpTraps fl)))) ∧
    (allFlags fl &&& v.fpTraps = 0 → s.crowded f d = false → exec (.adrn f) s = .next (s.commit 0x660 f d)) ∧
    (allFlags fl &&& v.fpTraps = 0 → s.crowded f d = true → exec (.adrn f) s = .next s.endWait)) ∧
  (∀ r ∈ ([(.mma, 0x630), (.mlda, 0x640), (.wswap, 0x650)] : List ((Fields → Instr) × Code)), ∀ f s v,
    s.ready r.2 f = true → s.view r.2 f = v → v.myCore.arrayHeld = true → exec (r.1 f) s = .next v.endWait) ∧
  (∀ f s v, s.ready 0x650 f = true → s.view 0x650 f = v → v.myCore.fillsBank = true → exec (.wswap f) s = .next v.endWait) ∧
  (∀ r ∈ ([(.adrn, 0x660), (.aclr, 0x670)] : List ((Fields → Instr) × Code)), ∀ f s v, s.ready r.2 f = true → s.view r.2 f = v →
    v.myCore.rowReserved (f.x.toNat / 128 % 2) (f.x.toNat % 128) = true → exec (r.1 f) s = .next v.endWait)

/-- R189, R190, R193, R194, R249: an MGO whose table and streams pass every check, with the array free and a permit that fits, has its nest live: table and streams latched behind CT's queued writes, indices 0, MNPASS (0x082) 0, the scale cache empty, its pushes waiting for the nest's end; a request that does not fit waits (kind 8). R223: a table that breaks a condition is cause 0x29 with the offset of its first offending word; then a descriptor of QA, QB or QC that fails its check is cause 0x29 with 0x1000 + 64q and that offset; then a scale index outside its stream is cause 0x28 with the stream's number (their order: DESIGN CHOICE, log 89); then a held array stalls. MABORT sets MNSTAT.ABORTED (0x081[2]), places MGO's pushes, gives the permit back and ends the nest; without one it does nothing. R235: the event of a live nest that is neither paused nor to pause, where no access stalls or faults, makes its next pass or drains its next row, and goes on to the next row, the next tuple or its end; a fault freezes the core; no pass is made while an earlier one occupies the array (R172, R185), and none by a core with no context, frozen or pre-empted; a nest whose lease has ended gives its permit back and asks again, before its core and those after it arbitrate in a cycle (R352). The next tuple raises the lowest level below its last, those below it at 0; a pass fills the next slot from its row of QA, zero from klen on, after the bank where the tuple is the first or off(B) has changed, then swapped, and after the rows of ACC have started at +0 or C where K's index is 0; it adds the product to row m of ACC, its occupancy to RSTEP, and 1 to MNPASS; a drained row writes its columns of C, each ACC × OSCALE rounded to nearest once (R188). The model's choices: rotation from slot 0 (log 74), the grain of accesses (DEDUCED, log 29), a pass reading slot and bank as the nest filled them (R186; log 103). -/
def Obligations.NestResults : Prop :=
  ((∀ f s v c t qa qb qc w, s.ready 0x610 f = true → s.view 0x610 f = v → (v.drainQueue v.node v.me).myCore = c → c.table = t →
      c.stream (tabBits t 0 0 4) = qa → c.stream (tabBits t 0 4 4) = qb → c.stream (tabBits t 0 8 4) = qc →
      tableFault t (streamFmt qa) (streamFmt qb) (streamFmt qc) = none → streamFault qa = none → streamFault qb = none → streamFault qc = none →
      (streamScaled qa = true → nestTopA t qa < word qa 7) → (streamScaled qb = true → nestTopB t qb < word qb 7) → c.arrayHeld = false →
      w = classWeight (v.effRc v.node (tabRc t)) →
      (∀ u x, v.permitFree w = true → u = (v.permitted .nest w).drainQueue v.node v.me →
        x = { table := t, qa := qa, qb := qb, qc := qc, idx := [0, 0, 0, 0, 0, 0], row := 0, slot := 0, lastB := none, rc := u.effRc u.node (tabRc t),
              paused := false, pausing := false, stalled := false, pc := u.mySeq.pc, pushes := pushList f.push } →
        Does (.mgo f) 0x610 f s { st := u.modMyCore (fun c => { c.setSys 0x082 0 with nest := some x, scales := [] }), engine := true }) ∧
      ((v.quad (quadOf v.node)).grants.any (fun p => p.mine v.node v.me) = false → (v.quad (quadOf v.node)).asks = [] →
        (v.quad (quadOf v.node)).fits w = false → v.mySeq.wait = none →
        ∃ u k, exec (.mgo f) s = .next u ∧ u.mySeq.wait = some k ∧ k.kind = 0x08 ∧ u.myCore.nest = v.myCore.nest)) ∧
    (∀ f s v c t na nb nc qa qb qc, s.ready 0x610 f = true → s.view 0x610 f = v → (v.drainQueue v.node v.me).myCore = c → c.table = t →
      tabBits t 0 0 4 = na → tabBits t 0 4 4 = nb → tabBits t 0 8 4 = nc → c.stream na = qa → c.stream nb = qb → c.stream nc = qc →
      (∀ off, tableFault t (streamFmt qa) (streamFmt qb) (streamFmt qc) = some off →
        exec (.mgo f) s = .next (s.takeFault 0x29 (BitVec.ofNat 64 off))) ∧
      (tableFault t (streamFmt qa) (streamFmt qb) (streamFmt qc) = none →
        (∀ off, streamFault qa = some off → exec (.mgo f) s = .next (s.takeFault 0x29 (BitVec.ofNat 64 (0x1000 + 64 * na + off)))) ∧
        (∀ off, streamFault qa = none → streamFault qb = some off →
          exec (.mgo f) s = .next (s.takeFault 0x29 (BitVec.ofNat 64 (0x1000 + 64 * nb + off)))) ∧
        (∀ off, streamFault qa = none → streamFault qb = none → streamFault qc = some off →
          exec (.mgo f) s = .next (s.takeFault 0x29 (BitVec.ofNat 64 (0x1000 + 64 * nc + off)))) ∧
        (streamFault qa = none → streamFault qb = none → streamFault qc = none →
          (streamScaled qa = true → word qa 7 ≤ nestTopA t qa → exec (.mgo f) s = .next (s.takeFault 0x28 (BitVec.ofNat 64 na))) ∧
          ((streamScaled qa = true → nestTopA t qa < word qa 7) → streamScaled qb = true → word qb 7 ≤ nestTopB t qb →
            exec (.mgo f) s = .next (s.takeFault 0x28 (BitVec.ofNat 64 nb))) ∧
          ((streamScaled qa = true → nestTopA t qa < word qa 7) → (streamScaled qb = true → nestTopB t qb < word qb 7) → c.arrayHeld = true →
            exec (.mgo f) s = .next v.endWait)))) ∧
    (∀ f s v, s.ready 0x620 f = true → s.view 0x620 f = v →
      (v.myCore.nest = none → Does (.mabort f) 0x620 f s { st := v }) ∧
      (∀ x, v.myCore.nest = some x → Does (.mabort f) 0x620 f s
        { st := (v.modMyCore (fun c => c.setSys 0x081 (c.sysreg 0x081 ||| 4))).endNest v.node x }))) ∧
  (∀ n s,
      ((s.core n).live = false → exec (.nestPass n) s = .next s) ∧
      (∀ x, (s.core n).live = true → (s.core n).nest = some x → x.paused = false →
        (x.pausing = true → (s.quad (quadOf n)).turn ≤ n → exec (.nestPass n) s = .next ((s.reaskPermit n .ct .nest (classWeight x.rc)).setNest n
          { x with pausing := false, paused := true })) ∧
        (x.pausing = true → n < (s.quad (quadOf n)).turn → exec (.nestPass n) s = .next s) ∧
        (x.pausing = false → x.row < x.rowsM → (s.core n).arrayBusy = true → exec (.nestPass n) s = .next s) ∧
        (∀ l, x.touches (s.core n).scales = l → x.pausing = false → x.rowsM ≤ x.row ∨ (s.core n).arrayBusy = false → s.judge n l = .allowed →
          (x.row < x.rowsM → exec (.nestPass n) s = .next (((s.noteAccs n l).nestPass n x).advanceNest n x)) ∧
          (x.rowsM ≤ x.row → exec (.nestPass n) s = .next (((s.noteAccs n l).nestDrainRow n x).advanceNest n x))) ∧
        (∀ cause va, x.pausing = false → x.rowsM ≤ x.row ∨ (s.core n).arrayBusy = false → s.judge n (x.touches (s.core n).scales) = .fault cause va →
          exec (.nestPass n) s = .next (s.freezeCore n .ct .nest cause va x.pc 0)))) ∧
  (∀ t idx, idx.length = 6 →
    (∀ l, l < 6 → idx.getD l 0 + 1 < levelCount t l → (∀ j, j < l → levelCount t j ≤ idx.getD j 0 + 1) →
      ∃ next, nextTuple t idx levels = some next ∧ next.getD l 0 = idx.getD l 0 + 1 ∧ (∀ j, j < l → next.getD j 0 = 0) ∧
        ∀ j, l < j → next.getD j 0 = idx.getD j 0) ∧
    ((∀ l, l < 6 → levelCount t l ≤ idx.getD l 0 + 1) → nextTuple t idx levels = none)) ∧
  (∀ (s : State) n x y, y = { x with slot := (x.slot + if x.rowsM ≤ x.row then 0 else if tabSparse x.table then 2 else 1) % 64, stalled := false, lastB := some (x.off 2) } →
    (x.row + 1 < x.rowsM + (if x.lastOf 3 && !tabNodrain x.table then x.rowsM else 0) → s.advanceNest n x = s.setNest n { y with row := x.row + 1 }) ∧
    (x.rowsM + (if x.lastOf 3 && !tabNodrain x.table then x.rowsM else 0) ≤ x.row + 1 →
      (∀ idx, nextTuple x.table x.idx levels = some idx → s.advanceNest n x = s.setNest n { y with row := 0, idx := idx }) ∧
      (nextTuple x.table x.idx levels = none → s.advanceNest n x = s.endNest n y))) ∧
  (∀ (s : State) n x row first bk, x.slot < 64 → row = streamBase x.qa + x.off 1 + BitVec.ofNat 64 x.row * streamPitch x.qa → (∀ k, k < x.klen → s.Plain n (row + BitVec.ofNat 64 k) 1) →
    first = (x.row == 0 && x.roleIndex 3 == 0) → bk = bitNat (!(s.core n).mx.active) →
    (x.fills = true → ∀ k j, k < 128 → j < bankCols x.extents k → s.Plain n (streamBase x.qb + x.off 2 + BitVec.ofNat 64 k * streamPitch x.qb + BitVec.ofNat 64 j) 1) →
    (first = true → tabAccm x.table = true → ∀ m j, m < x.rowsM → j < x.cols → s.Plain n (x.cAddr m j) (cWidth x.table)) →
    ∃ u : State, s.nestPass n x = u.modCore n (fun c =>
        let d := c.pass (elemMode (tabElem x.table)) (tabSparse x.table) false x.slot (tabAcc x.table) x.row x.klen x.cols
        ((d.addSteps x.rc (if tabElem x.table = 0 then 4 else 8)).setSys 0x082 (d.sysreg 0x082 + 1)).takeArray (tabElem x.table) (stretch x.rc)) ∧
      (∀ k, k < 128 → (u.core n).slotElem x.slot k = if k < x.klen then s.load n (row + BitVec.ofNat 64 k) 1 else 0) ∧
      (tabSparse x.table = true → ∀ k, k < 128 → (u.core n).slotElem ((x.slot + 1) % 64) k =
        if k + 128 < x.klen then s.load n (row + 128 + BitVec.ofNat 64 k) 1 else 0) ∧
      (x.fills = false → (u.core n).mx.bank = (s.core n).mx.bank ∧ (u.core n).mx.active = (s.core n).mx.active ∧
        (first = false → Tab.get (u.core n).mx.scales x.slot 0 = s.nestScaleWord n (x.aScale x.row))) ∧
      (x.fills = true → (u.core n).mx.active = !(s.core n).mx.active ∧ ∀ k j, k < 128 → j < 128 → (u.core n).bankElem bk k j =
        if j < bankCols x.extents k then s.load n (streamBase x.qb + x.off 2 + BitVec.ofNat 64 k * streamPitch x.qb + BitVec.ofNat 64 j) 1 else 0) ∧
      (first = false → ∀ a m j, (u.core n).accCell a m j = (s.core n).accCell a m j) ∧
      (first = true → tabAccm x.table = false → ∀ m j, m < x.rowsM → j < 128 → (u.core n).accCell (tabAcc x.table) m j = 0) ∧
      (first = true → tabAccm x.table = true → ∀ m j, m < x.rowsM → j < x.cols → (u.core n).accCell (tabAcc x.table) m j =
        BitVec.ofNat 32 (cToAcc (cCode x.table) (s.load n (x.cAddr m j) (cWidth x.table))))) ∧
  (∀ (s : State) n x y pd m, x.rowsM ≤ x.row → m = x.row - x.rowsM → s.Run n (x.cAddr m 0) (cWidth x.table) x.cols pd y →
    WroteRun s (s.nestDrainRow n x) n y pd (cWidth x.table) x.cols
      (fun j => BitVec.ofNat 64 (nestDrain x.table ((s.core n).accCell (tabAcc x.table) m j).toNat).1)) ∧
  (∀ t v p m e q k g, tabElem t ≠ 2 → tabOfmt t ≠ 3 ∨ tabOvf t = true → Fmt.f32.value v = .fin p m e → Fmt.f32.value (word t 2) = .fin q k g → m ≠ 0 → k ≠ 0 →
    ∃ fl, (cFmt (cCode t)).Rounded ⟨0, false⟩ ((Fp.fin p m e).number * (Fp.fin q k g).number) ⟨(nestDrain t v).1, fl⟩)

/-! ## Reel mode -/

/-- R198, R199, R205, R206, R210, Table 9.3: a REELON whose configuration is legal, whose feeders and drain core lie in the placement, while the array is free and its permit fits, starts a reel, CP's queued writes being in its registers (R199, R249): GEN goes up, BEAT, HEAD, SLIP and FIRSTMISS are 0, every FILL is clear, the configuration is latched and the first beat's nominal start lies LA periods ahead. A REELON in error names its register (cause 0x29) or its core (0x13). REELOFF stops the reel at its next nominal start, and without one does nothing. CUEW takes the oldest record of the core's cue queue, or waits (kind 7); CUEPOLL takes it, or reads all ones; CUEDONE sends the record back once CT's earlier writes are performed. -/
def Obligations.ReelInstructionResults : Prop :=
  (∀ f s v c rc k t, s.ready 0x700 f = true → s.view 0x700 f = v → (v.drainQueue v.node v.me).myCore = c → rc = v.effRc v.node f.rc →
    reelConfigFault c (stretch rc) = none →
    (∀ m ∈ reelFeeders c ++ [(c.sysreg 0x0C6).toNat % 1024], c.placement.contains (globalCore v.node m) = true) →
    c.arrayHeld = false → v.permitFree (classWeight rc) = true →
    k = ((v.permitted .reel (classWeight rc)).drainQueue v.node v.me) → t = k.modMyCore Core.reelBegin →
    Does (.reelon f) 0x700 f s
      { st := t.setReel t.node ((newReel c k.mySeq rc (pushList f.push)).dueFills t.node t.myCore.reelGen 0 64), engine := true }) ∧
  (∀ (c : Core) i, i < 64 → c.reelBegin.sysreg 0x0D0 = 0 ∧ c.reelBegin.sysreg 0x0D1 = 0 ∧ c.reelBegin.sysreg 0x0D2 = 0 ∧
    c.reelBegin.sysreg 0x0D3 = 0 ∧ c.reelBegin.reelGen = (c.reelGen + 1) % 256 ∧ c.reelBegin.fill i = false) ∧
  (∀ f s v c, s.ready 0x700 f = true → s.view 0x700 f = v → (v.drainQueue v.node v.me).myCore = c →
    (∀ num, reelConfigFault c (stretch (v.effRc v.node f.rc)) = some num → exec (.reelon f) s = .next (s.takeFault 0x29 (BitVec.ofNat 64 num))) ∧
    (∀ m, reelConfigFault c (stretch (v.effRc v.node f.rc)) = none →
      (reelFeeders c ++ [(c.sysreg 0x0C6).toNat % 1024]).find? (fun m => !c.placement.contains (globalCore v.node m)) = some m →
      exec (.reelon f) s = .next (s.takeFault 0x13 (BitVec.ofNat 64 m)))) ∧
  (∀ f s v, s.ready 0x710 f = true → s.view 0x710 f = v →
    (v.myCore.reel = none → Does (.reeloff f) 0x710 f s { st := v }) ∧
    (∀ r, v.myCore.reel = some r → r.closed = true → Does (.reeloff f) 0x710 f s { st := v }) ∧
    (∀ r r1, v.myCore.reel = some r → r.closed = false → r1 = { r with off := true, offPushes := r.offPushes ++ pushList f.push } →
      Does (.reeloff f) 0x710 f s { st := v.modMyCore (fun c => { c with reel := some r1 }), engine := true })) ∧
  (∀ f s v, s.ready 0x720 f = true → s.view 0x720 f = v →
    (v.myCore.cueq = [] → exec (.cuew f) s = .next (s.waitFor 0x07 0)) ∧
    (∀ w rest, v.myCore.cueq = w :: rest →
      Does (.cuew f) 0x720 f s { st := (v.modMyCore (fun c => { c with cueq := c.cueq.drop 1 })).setReg (regNum f.d) w })) ∧
  (∀ f s v, s.ready 0x740 f = true → s.view 0x740 f = v →
    (v.myCore.cueq = [] → Does (.cuepoll f) 0x740 f s { st := v.setReg (regNum f.d) 0xFFFFFFFFFFFFFFFF }) ∧
    (∀ w rest, v.myCore.cueq = w :: rest →
      Does (.cuepoll f) 0x740 f s { st := (v.modMyCore (fun c => { c with cueq := c.cueq.drop 1 })).setReg (regNum f.d) w })) ∧
  (∀ f s v, s.ready 0x730 f = true → s.view 0x730 f = v →
    Does (.cuedone f) 0x730 f s
      { st := (v.drainQueue v.node v.me).modCore (globalCore v.node ((v.sreg f.a).toNat % 1024))
          (fun c => { c with cueBack := c.cueBack ++ [{ record := v.sreg f.a, target := v.node }] }) })

/-- R200, R202 to R204, R206, R208 to R210, R212: the moments of the reel of a core that receives cycles. A ready beat starts at its nominal start and at no other cycle; one that is not ready is held, or stops the reel and leaves cause 0x2A for CP, FIRSTMISS naming it; a halted CP, or one whose HALT has issued (R395), takes no cause; a held beat starts at a check, SLIP counting its periods; a pass reads its slot and the active bank, klen elements for each of its columns, one occupancy after its start and frees the slot, a byte that a write has reached meanwhile being what it is or what it was (R207), and is promoted when its latency is over, a complete group's drain cue becoming due; cues leave in their order to a queue with room, and enter it oldest first while it has room and a context; a returned fill record sets FILL, a returned drain record frees its rows, and none arrives any more in a cycle whose beat has been judged not ready; a pre-emption or a stopped CP suspends a reel at a next beat's start, and one that drains goes on draining; the reel ends when it is closed and no drain cue is unanswered, its permit, or its request for one, going back. The order of these moments within one cycle, and which of several cues arrives first, are the model's choices (DESIGN CHOICE, logs 28 and 33); that a HALT has issued before it retires is its reading (DEDUCED, log 73). -/
def Obligations.ReelEvents : Prop :=
  ∀ n s r, s.delivers n = true → (s.core n).reel = some r →
    ((s.core n).beatTime r = false → ∀ i ∈ [Instr.beatStart n, .beatMiss n, .holdCheck n, .reeloffEffect n], exec i s = .next s) ∧
    (r.holding = false → r.off = false → r.suspending = false → (s.core n).beatTime r = true →
      ((s.core n).beatReady r = true → exec (.beatStart n) s = .next (s.startBeat n (s.core n) r)) ∧
      ((s.core n).beatReady r = false → r.abortPolicy = true → exec (.beatMiss n) s = .next (((s.modCore n Core.noteMiss).modCore n (fun c =>
        { c.reelSticky 3 with reelAbort := if c.seqs.cp.run = .halted ∨ c.seqs.cp.halting.isSome = true then none else some c.reelBeat })).setReel n r.stop)) ∧
      (∀ r1, (s.core n).beatReady r = false → r.abortPolicy = false →
        r1 = { r with holding := true, held := 1, next := r.next + BitVec.ofNat 64 r.period } →
        exec (.beatMiss n) s = .next ((s.modCore n Core.noteMiss).setReel n r1))) ∧
    (r.holding = true → r.off = false → r.suspending = false → (s.core n).beatTime r = true →
      ((s.core n).beatReady r = true → exec (.holdCheck n) s = .next ((s.startBeat n (s.core n) r).modCore n (fun c =>
        c.setSys 0x0D2 (c.sysreg 0x0D2 + BitVec.ofNat 64 r.held)))) ∧
      (∀ r1, (s.core n).beatReady r = false → r1 = { r with held := r.held + 1, next := r.next + BitVec.ofNat 64 r.period } →
        exec (.holdCheck n) s = .next (s.setReel n r1))) ∧
    (∀ b, r.begun.find? (fun b => !b.read) = some b → (s.core n).cycle = b.start + BitVec.ofNat 64 r.occ →
      ∃ r1, exec (.beatSlotRead n) s = .next (((s.spendBeat b).modCore n (fun c => c.setFill (b.num % 64) false)).setReel n r1) ∧ r1.read = r.read + 1 ∧
        ((r1.begun.filter (fun b => b.read)).length = (r.begun.filter (fun b => b.read)).length + 1) ∧
        ∃ q ∈ r1.begun, q.num = b.num ∧ q.start = b.start ∧ q.read = true ∧ q.pairs.length = r.cols ∧
          q.sb = (Tab.get (s.core n).mx.tile (bitNat (s.core n).mx.active) 0).toNat ∧
          (b.prior = [] → q.sa = (Tab.get (s.core n).mx.scales (b.num % 64) 0).toNat) ∧
          ∀ j k, j < r.cols → k < min r.klen 128 → (q.pairs.getD j []).length = min r.klen 128 ∧
            ∃ v : Byte, (q.pairs.getD j []).getD k (0, 0) = (v.toNat, (s.core n).bankElem (bitNat (s.core n).mx.active) k j) ∧
              (v.toNat = (s.core n).slotElem (b.num % 64) k ∨ (k, v) ∈ b.prior)) ∧
    (∀ b rest, r.begun = b :: rest → b.read = true → (s.core n).cycle = b.start + BitVec.ofNat 64 r.latency →
      ∃ r1, exec (.reelPromotion n) s = .next ((s.modCore n (fun c => c.promoteBeat r b)).setReel n r1) ∧ r1.begun = rest ∧
        r1.promoted = b.num + 1 ∧ (r1.due.length = r.due.length + (if (b.num + 1) % r.dg = 0 then 1 else 0))) ∧
    (∀ q rest r1, r.due = q :: rest → r.susp = false → s.cueRoom q.target = true → r1 = { r with due := rest, out := r.out ++ [q] } →
      (recordDrain q.record = true → exec (.drainCueSend n) s = .next (s.modCore n (fun c => { c with reel := some r1, cueWay := c.cueWay ++ [q] }))) ∧
      (recordDrain q.record = false → exec (.fillCueSend n) s = .next (s.modCore n (fun c =>
        ({ c with reel := some r1, cueWay := c.cueWay ++ [q] } : Core).setSys 0x0D1 (c.sysreg 0x0D1 + 1))))) ∧
    (r.off = true → (s.core n).beatTime r = true → exec (.reeloffEffect n) s = .next (s.setReel n r.stop)) ∧
    (r.closed = true → (r.due ++ r.out).all (fun q => !recordDrain q.record) = true → exec (.reelEnd n) s =
      .next (((s.releasePermit n .cp .reel).withdrawAsk n .cp .reel).modCore n (fun c => ({ c with reel := none } : Core).place .cp r.pushes))) ∧
    (∀ r1, r.suspending = true → r.susp = false → r.draining = false → (s.core n).cycle = r.next →
      r1 = { r with susp := true, holding := false, held := 0, next := (s.core n).paused.getD r.next } →
      exec (.reelSuspend n) s = .next (s.modCore n (fun c => { c with reel := some r1 }))) ∧
    (r.draining = true ∨ (s.core n).cycle ≠ r.next → exec (.reelSuspend n) s = .next s) ∧
    ((s.core n).missedNow = true → exec (.cuedoneArrive n) s = .next s) ∧
    (∀ q, (s.core n).missedNow = false → (s.core n).cueBack = [q] → (s.core n).ctx.isSome = true → recordGen q.record = (s.core n).reelGen → q ∈ r.out →
      ∃ t, exec (.cuedoneArrive n) s = .next t ∧ (t.core n).cueBack = [] ∧
        (recordDrain q.record = false → r.draining = false → (t.core n).fill (recordSlot q.record) = true) ∧
        (recordDrain q.record = true → ∃ r2, (t.core n).reel = some r2 ∧
          ∀ k, recordRow q.record ≤ k → k ≤ recordRow q.record + recordCnt q.record → k ∉ r2.busy)) ∧
    (∀ q m, Tab.sorted s.cores = true → (s.core n).cueWay = [q] → q.target = m → m ≠ n → (∀ k, k ≠ n → (s.core k).cueWay = []) →
      (s.core m).ctx.isSome = true → (s.core m).cueq.length < 16 →
      ∃ t, exec (.cueDeliver m) s = .next t ∧ (t.core m).cueq = (s.core m).cueq ++ [q.record] ∧ (t.core n).cueWay = [])

/-! ## Transfers -/

/-- R225, R226, R227, R408, R232: VLD reads one element per active lane at s[A] + X and the unit, stride or index offset and writes them together under E; VST stores the low bytes of D's active lanes there; SDEF reads a descriptor of sixteen words at a multiple of 64, and one that is not a multiple is cause 0x12; PREF has no architectural effect and retires as it issues. That the lanes of a read are read together as it issues (DESIGN CHOICE, log 7), and that a descriptor is sixteen accesses of four bytes (DEDUCED, log 22), are the model's. -/
def Obligations.VectorLoadAndStoreResults : Prop :=
  (∀ r ∈ ([(.vldUnit, 0x800, fun _ _ => false, fun s f n i => s.sreg f.a + f.x.signExtend 64 + BitVec.ofNat 64 (i * n)),
      (.vldStrd, 0x801, fun _ _ => false, fun s f _ i => s.sreg f.a + f.x.signExtend 64 + BitVec.ofNat 64 (i * (s.sreg f.b).toNat)),
      (.vldGath, 0x802, fun f i => laneMeets f.d f.b i,
        fun s f _ i => s.sreg f.a + f.x.signExtend 64 + (BitVec.ofNat 32 (s.srcLane f.b 32 i)).signExtend 64)] :
      List ((Fields → Instr) × Nat × (Fields → Nat → Bool) × (State → Fields → Nat → Nat → Word))),
    ∀ f s v t w vas, s.ready r.2.1 f = true → s.view r.2.1 f = v → w = intWidth f.q.toNat →
      vas = v.lanes.map (r.2.2.2 v f (w / 8)) → v.clear Want.load (w / 8) vas = true → v.passed Want.load (w / 8) vas = t →
      Does (r.1 f) r.2.1 f s
        { st := t.loadLanes t.node f.e f.d w (r.2.2.1 f) ((vas.zipIdx).map (fun p => (p.2, BitVec.ofNat 64 (t.load t.node p.1 (w / 8))))) }) ∧
  (∀ r ∈ ([(.vstUnit, 0x810, fun s f n i => s.sreg f.a + f.x.signExtend 64 + BitVec.ofNat 64 (i * n)),
      (.vstStrd, 0x811, fun s f _ i => s.sreg f.a + f.x.signExtend 64 + BitVec.ofNat 64 (i * (s.sreg f.b).toNat)),
      (.vstScat, 0x812, fun s f _ i => s.sreg f.a + f.x.signExtend 64 + (BitVec.ofNat 32 (s.srcLane f.b 32 i)).signExtend 64)] :
      List ((Fields → Instr) × Nat × (State → Fields → Nat → Nat → Word))),
    ∀ f s v t w vas, s.ready r.2.1 f = true → s.view r.2.1 f = v → w = intWidth f.q.toNat →
      vas = v.lanes.map (r.2.2 v f (w / 8)) → v.clear Want.store (w / 8) vas = true → v.passed Want.store (w / 8) vas = t →
      Does (r.1 f) r.2.1 f s
        { st := t, stores := (vas.zipIdx).flatMap (fun p => t.mkStore t.node p.1 (w / 8) (v.myCore.laneWord f.d p.2)) }) ∧
  (∀ f s v va, s.ready 0x840 f = true → s.view 0x840 f = v → va = v.sreg f.a + f.x.signExtend 64 →
    (va.toNat % 64 ≠ 0 → exec (.sdef f) s = .next (s.takeFault 0x12 va)) ∧
    (∀ t, va.toNat % 64 = 0 → v.clear Want.load 4 (units va 4 16) = true → v.passed Want.load 4 (units va 4 16) = t →
      Does (.sdef f) 0x840 f s
        { st := t.modMyCore (fun c =>
            { c with streams := putWords c.streams (16 * (f.d.toNat % 16)) ((units va 4 16).map (fun a => BitVec.ofNat 32 (t.load t.node a 4))) }) })) ∧
  (∀ f s v, s.ready 0x870 f = true → s.view 0x870 f = v → Does (.pref f) 0x870 f s { st := v, atOnce := true })

/-- R228, R230, R231, R297: a TLD, TST, CPY, CPYW, XPUT or XGET that passes its checks joins its sequencer's queue behind its older writes, which its descriptor already shows (R249), its pushes left to the transfer's end; a CPY, XPUT or XGET above 1 MiB needs a copy permit of weight 2, and one of no bytes is done and retires at once, counted where it crosses the fabric. TLD, TST and CPYW stall while an own copy that writes stream registers is under way (R97, R242, R249). -/
def Obligations.CopyInstructionsQueue : Prop :=
  (∀ r ∈ ([(.tld, 0x820, true), (.tst, 0x830, false)] : List ((Fields → Instr) × Nat × Bool)),
    ∀ f s v d va n, s.ready r.2.1 f = true → s.view r.2.1 f = v → (v.drainQueue v.node v.me).myCore.stream (f.x.toNat % 16) = d → n = intWidth f.q.toNat / 8 →
      va = streamBase d + v.sreg f.a → v.copiesInto 6 = false → opIndex f.d + v.mySeq.rows ≤ 128 → streamFault d = none → va.toNat % n = 0 → (streamPitch d).toNat % n = 0 →
      ∃ e, Does (r.1 f) r.2.1 f s e ∧ issueCopy v f (.tile r.2.2 f.e f.d (8 * n) v.mySeq.rows v.mySeq.cols va (streamPitch d)) false = .done e) ∧
  (∀ r ∈ ([(.cpy, 0x850, false, false, true), (.xput, 0xB00, false, true, false), (.xget, 0xB10, true, false, false)] :
      List ((Fields → Instr) × Nat × Bool × Bool × Bool)),
    ∀ f s v len, s.ready r.2.1 f = true → s.view r.2.1 f = v → (v.sreg f.d).toNat % 4 = 0 → (v.sreg f.a).toNat % 4 = 0 →
      len = (v.sreg f.b).toNat → len % 4 = 0 → len ≤ 2 ^ 40 → rangesMeet (v.sreg f.d) (v.sreg f.a) len = false →
      (len = 0 → Does (r.1 f) r.2.1 f s { st := if r.2.2.1 || r.2.2.2.1 then v.modMyCore (fun c => c.setSys 0x240 (c.sysreg 0x240 + 1)) else v, atOnce := true }) ∧
      (len ≠ 0 → len ≤ 2 ^ 20 → ∃ e, Does (r.1 f) r.2.1 f s e ∧
        issueCopy v f (.bytes (v.sreg f.d) (v.sreg f.a) len r.2.2.1 r.2.2.2.1 r.2.2.2.2) false = .done e) ∧
      (2 ^ 20 < len → v.permitFree 2 = true → ∃ e, Does (r.1 f) r.2.1 f s e ∧
        issueCopy (v.permitted .copy 2) f (.bytes (v.sreg f.d) (v.sreg f.a) len r.2.2.1 r.2.2.2.1 r.2.2.2.2) true = .done e)) ∧
  (∀ f s v d index, s.ready 0x860 f = true → s.view 0x860 f = v → (v.drainQueue v.node v.me).myCore.stream (f.x.toNat % 16) = d → streamFault d = none →
    streamFmt d = 12 ∨ streamFmt d = 0 → index = scaleIndex d ((v.sreg f.b).toNat % 2 ^ 32) ((v.sreg f.b).toNat / 2 ^ 32) →
    (streamScaled d = true → index < word d 7) → v.copiesInto 6 = false →
    ∃ e, Does (.cpyw f) 0x860 f s e ∧ issueCopy v f (.weights d (streamBase d + v.sreg f.a) v.mySeq.klen v.mySeq.cols
      (if streamScaled d then some (scaleAddr d index) else none) (f.x.getLsbD 4) (!v.myCore.mx.active)) false = .done e) ∧
  (∀ r ∈ ([(.tld, 0x820), (.tst, 0x830), (.cpyw, 0x860)] : List ((Fields → Instr) × Code)), ∀ f s v,
    s.ready r.2 f = true → s.view r.2 f = v → v.copiesInto 6 = true → exec (r.1 f) s = .next v.endWait) ∧
  (∀ s f c p e t, issueCopy s f c p = .done e → s.drainQueue s.node s.me = t → s.me = .ld ∨ s.me = .st →
    e.engine = true ∧ (e.st.core s.node).transfers s.me = (t.core s.node).transfers s.me ++
      [{ tag := s.nextTag, copy := c, chunk := 0, pc := s.mySeq.pc, pushes := pushList f.push, paused := false, pausing := false,
         permit := p, stalled := false }])

/-- R228 to R231, R297: what a chunk does, its accesses being allowed. A piece of a CPY, XPUT or XGET, which ends at a multiple of 4,096 of the destination, writes each of its 4-byte words with the word as far on in the source; row j of a TLD writes its elements, from va0 + j × PITCH on, to the cells of the line INDEX + j under E; row j of a TST writes those cells' low bytes there; a chunk of a CPYW fills a bank row, zero from min(KLEN, 128) and COLS on, the tile scale, 1.0 where the stream is not scaled, or the 4,096 index bytes. R229, R233, R235, R249: a COPY_CHUNK of a live core whose first transfer is not paused performs that transfer's next chunk: with its accesses allowed, it moves to the next chunk, or retires after its last; a fault freezes the core with nothing of the chunk done; a core with no context, frozen or pre-empted copies nothing. -/
def Obligations.CopyChunks : Prop :=
  ∀ n q s, isDcc n = false →
    ((s.core n).live = false → exec (.copyChunk n q) s = .next s) ∧
    ((s.core n).transfers q = [] → exec (.copyChunk n q) s = .next s) ∧
    (∀ t rest, (s.core n).live = true → (s.core n).transfers q = t :: rest → t.paused = false →
      (t.pausing = true → (s.quad (quadOf n)).turn ≤ n →
        exec (.copyChunk n q) s = .next ((s.reaskTransfer n q t.tag).setTransfer n q { t with pausing := false, paused := true })) ∧
      (t.pausing = true → n < (s.quad (quadOf n)).turn → exec (.copyChunk n q) s = .next s) ∧
      (∀ u, t.pausing = false → s.copyChunk n t.copy t.chunk = .done u → t.chunk + 1 < t.copy.chunks →
        exec (.copyChunk n q) s = .next (u.setTransfer n q { t with chunk := t.chunk + 1, stalled := false })) ∧
      (∀ u, t.pausing = false → s.copyChunk n t.copy t.chunk = .done u → t.copy.chunks ≤ t.chunk + 1 →
        exec (.copyChunk n q) s = .next (u.retireCopy n q t)) ∧
      (∀ cause va, t.pausing = false → s.copyChunk n t.copy t.chunk = .fault cause va →
        exec (.copyChunk n q) s = .next (s.freezeCore n q (.transfer q t.chunk) cause va t.pc t.chunk))) ∧
    (∀ dst src len fs fd grid j u x pd from_ to_ cnt, s.copyChunk n (.bytes dst src len fs fd grid) j = .done u →
      from_ = src + BitVec.ofNat 64 (pieceStart dst j) → to_ = dst + BitVec.ofNat 64 (pieceStart dst j) →
      cnt = (min len (pieceStart dst (j + 1)) - pieceStart dst j) / 4 → s.Run n to_ 4 cnt pd x →
      (∀ i, i < cnt → s.Plain n (from_ + BitVec.ofNat 64 (4 * i)) 4) →
      WroteRun s u n x pd 4 cnt (fun i => BitVec.ofNat 64 (s.load n (from_ + BitVec.ofNat 64 (4 * i)) 4))) ∧
    (∀ (dst : Word) j, pieceStart dst 0 = 0 ∧ (0 < j → (dst.toNat + pieceStart dst j) % 4096 = 0 ∧ pieceStart dst (j + 1) = pieceStart dst j + 4096)) ∧
    (∀ (dst src : Word) len fs fd grid, len ≤ pieceStart dst ((Copy.bytes dst src len fs fd grid).chunks) ∧
      ∀ j, j < (Copy.bytes dst src len fs fd grid).chunks → pieceStart dst j < len) ∧
    (∀ e field width rows cols va pitch j u x pd row o, s.copyChunk n (.tile false e field width rows cols va pitch) j = .done u →
      row = va + BitVec.ofNat 64 (pitch.toNat * j) → o = field + BitVec.ofNat 12 j → s.Run n row (width / 8) cols pd x →
      WroteRun s u n x pd (width / 8) cols (fun i => (s.core n).laneWord o i)) ∧
    (∀ e field width rows cols va pitch j u row o, s.copyChunk n (.tile true e field width rows cols va pitch) j = .done u →
      row = va + BitVec.ofNat 64 (pitch.toNat * j) → o = field + BitVec.ofNat 12 j → width ≤ 32 → cols ≤ 128 → opBcast o = false → opPair o = false → opDir o < 2 →
      (s.core n).snap = [] → (s.core n).seqs.cp.flights = [] → (∀ i, i < cols → s.Plain n (row + BitVec.ofNat 64 (width / 8 * i)) (width / 8)) →
      (∀ i, i < cols → (u.core n).laneWord o i =
        let v := lowBits width (BitVec.ofNat 64 (s.load n (row + BitVec.ofNat 64 (width / 8 * i)) (width / 8)))
        if e then v else (s.core n).laneWord o i ^^^ v) ∧
      (∀ k, (∀ i, i < cols → k ∉ laneCells o i) → (u.core n).cell k = (s.core n).cell k) ∧ u.mem = s.mem) ∧
    (∀ d va klen cols scale sparse bank j u bk, s.copyChunk n (.weights d va klen cols scale sparse bank) j = .done u → bk = bitNat bank →
      (j < 128 → (∀ k, j < min klen 128 → k < cols → k < 128 → s.Plain n (va + BitVec.ofNat 64 ((streamPitch d).toNat * j) + BitVec.ofNat 64 k) 1) →
        (∀ k, k < 128 → (u.core n).bankElem bk j k = if j < min klen 128 ∧ k < cols then s.load n (va + BitVec.ofNat 64 ((streamPitch d).toNat * j) + BitVec.ofNat 64 k) 1 else 0) ∧
        ∀ b i k, i < 128 → k < 128 → b < 2 → (b, i) ≠ (bk, j) → (u.core n).bankElem b i k = (s.core n).bankElem b i k) ∧
      (j = 128 → (∀ a, scale = some a → s.Plain n a 4) → Tab.get (u.core n).mx.tile bk 0 =
        match scale with | some a => BitVec.ofNat 32 (s.load n a 4) | none => 0x3F800000) ∧
      (j = 129 → (∀ k, k < 4096 → s.Plain n (va + BitVec.ofNat 64 ((streamPitch d).toNat * 128) + BitVec.ofNat 64 k) 1) →
        ∀ k, k < 4096 → (Tab.get (u.core n).mx.index (4096 * bk + k) 0).toNat = s.load n (va + BitVec.ofNat 64 ((streamPitch d).toNat * 128) + BitVec.ofNat 64 k) 1) ∧
      u.mem = s.mem)

/-- R18, R233, R234, R244: a PHASE from a core that holds its whole bay starts a drain of 4,096 + 1,024 × |new − old| cycles, and does nothing where the size stays; at its end the size changes, the bytes given up or gained read as zero, PHASE's pushes are placed, fault-queue entries that waited are written, and nothing else of the machine changes; before the drain's end the event does nothing. A PHASE during a drain of its bay stalls, and one whose placement does not hold the bay is cause 0x04. VAULTF takes vault rows out of use, or back into use as zeros. The last SMARK of its set to arrive issues the set; one that is early waits (kind 0x0B). -/
def Obligations.PhaseVaultfAndSmarkResults : Prop :=
  (∀ f s v b, s.ready 0x890 f = true → s.view 0x890 f = v → v.bay (bayOf v.node) = b → v.holdsBay v.node = true → b.drain = none →
    (f.x.toNat % 16 = b.mib → Does (.phase f) 0x890 f s { st := v }) ∧
    (∀ d : Drain, f.x.toNat % 16 ≠ b.mib → d.size = f.x.toNat % 16 → d.node = v.node → d.pushes = pushList f.push →
      d.ends = v.myCore.cycle + BitVec.ofNat 64 (4096 + 1024 * (max (f.x.toNat % 16) b.mib - min (f.x.toNat % 16) b.mib)) →
      Does (.phase f) 0x890 f s { st := v.setBay (bayOf v.node) { b with drain := some d }, engine := true })) ∧
  (∀ f s v, s.ready 0x890 f = true → s.view 0x890 f = v →
    (v.holdsBay v.node = false → exec (.phase f) s = .next (s.takeFault 0x04 0)) ∧
    (v.holdsBay v.node = true → (v.bay (bayOf v.node)).drain.isSome = true → exec (.phase f) s = .next v.endWait)) ∧
  (∀ k s d, (s.bay k).drain = some d → reached (s.core d.node).cycle d.ends = false → exec (.phaseDrainEnd k) s = .next s) ∧
  (∀ k s d, (s.bay k).drain = some d → reached (s.core d.node).cycle d.ends = true →
    ∃ t : State, exec (.phaseDrainEnd k) s = .next (t.flushFaults (k / 256)) ∧ ((∀ p ∈ s.cores, p.2.fqWait = []) → t.flushFaults (k / 256) = t) ∧
      t.bay k = { s.bay k with mib := d.size, drain := none } ∧ (∀ j, j ≠ k → t.bay j = s.bay j) ∧
      t.core d.node = (s.core d.node).place .ct d.pushes ∧ (t.core d.node).tok = ((s.core d.node).place .ct d.pushes).tok ∧
      (t.core d.node).resv = ((s.core d.node).place .ct d.pushes).resv ∧ (t.core d.node).seqs = (s.core d.node).seqs ∧
      (t.core d.node).cells = (s.core d.node).cells ∧ (∀ m, m ≠ d.node → t.core m = s.core m) ∧
      (∃ cores bays mem keyed, t = { s with cores := cores, bays := bays, mem := mem, keyed := keyed }) ∧
      (∀ a, spadAddr k (min (s.bay k).mib d.size * 2 ^ 20) ≤ a → a < spadAddr k (max (s.bay k).mib d.size * 2 ^ 20) → Memory.get t.mem a = 0) ∧
      (∀ a, a < spadAddr k (min (s.bay k).mib d.size * 2 ^ 20) ∨ spadAddr k (max (s.bay k).mib d.size * 2 ^ 20) ≤ a →
        Memory.get t.mem a = Memory.get s.mem a)) ∧
  (∀ f s v t rows, s.ready 0x8A0 f = true → s.view 0x8A0 f = v → v.drainQueue v.node v.me = t →
    (v.sreg f.a).toNat % 65536 = 0 → (v.sreg f.b).toNat % 65536 = 0 → (v.sreg f.a).toNat + (v.sreg f.b).toNat ≤ 2 ^ 27 →
    rows = (List.range ((v.sreg f.b).toNat / 65536)).map (fun i => vaultAddr v.node (v.sreg f.a).toNat / 65536 + i) →
    (f.x.getLsbD 0 = false → ∀ u, u = t.zeroRange (vaultAddr v.node (v.sreg f.a).toNat) (vaultAddr v.node (v.sreg f.a).toNat + (v.sreg f.b).toNat) →
      Does (.vaultf f) 0x8A0 f s { st := { u with freed := u.freed ++ rows.filter (fun r => !u.freed.contains r) } }) ∧
    (f.x.getLsbD 0 = true → ∀ u back, back = rows.filter (fun r => t.freed.contains r) →
      u = back.foldl (fun t r => t.zeroRange (65536 * r) (65536 * (r + 1))) t →
      Does (.vaultf f) 0x8A0 f s { st := { u with freed := u.freed.filter (fun r => !back.contains r),
                                                  bad := u.bad.filter (fun w => !back.contains (w / 8192)),
                                                  weak := u.weak.filter (fun w => !back.contains (w / 8192)) } })) ∧
  (∀ f s v t others, s.ready 0x880 f = true → s.view 0x880 f = v → v.drainQueue v.node v.me = t →
    others = (markSeqs f).filter (fun q => q != v.me) →
    (v.busy = false → others.all (fun q => (t.seq t.node q).marked f.x) = true →
      exec (.smark f) s = .next (t.issueMarks ((v.me, f) :: others.map (fun q => (q, (t.seq t.node q).mark.getD f))))) ∧
    (v.busy = false → others.all (fun q => (t.seq t.node q).marked f.x) = false → t.mySeq.wait = none →
      ∃ u w, exec (.smark f) s = .next u ∧ u.mySeq.mark = some f ∧ u.mySeq.wait = some w ∧ w.kind = 0x0B))

/-! ## The hashed grid -/

/-- R259, R263 to R269: HGDEF reads and judges a descriptor; HGL interpolates the features of each level over the corners of each active lane, void lanes giving the canonical NaN and GSTAT.NAN; HGW writes each corner's index and weight; HGS adds each corner's share of each gradient, merged by location, which is the physical bytes (HGS.DET), or one by one (HGS.REL), in an order that is open (free values; DESIGN CHOICE, log 32), and GATOMS (0x0E1) counts the atomics. The descriptor is the slot, and coordinates and gradients are the cells, as the queued writes of the issuing sequencer leave them (R249; for HGW, which is no engine command, R97), none of its transfers being under way. HGL, HGW and HGS on a slot whose descriptor is invalid are cause 0x29 with its first offending word in UFADDR (R260). -/
def Obligations.HashedGridResults : Prop :=
  (∀ f s v va t l, s.ready 0x780 f = true → s.view 0x780 f = v → va = v.sreg f.a + f.x.signExtend 64 → va.toNat % 64 = 0 →
    v.clear Want.load 4 (units va 4 16) = true → v.passed Want.load 4 (units va 4 16) = t →
    l = (units va 4 16).map (fun a => BitVec.ofNat 32 (t.load t.node a 4)) →
    (gridOffence l = none → Does (.hgdef f) 0x780 f s
      { st := t.modMyCore (fun c => { c with grids := putWords c.grids (16 * (f.d.toNat % 8)) l }) }) ∧
    (∀ off, gridOffence l = some off → exec (.hgdef f) s = .next (s.takeFault 0x29 (gridAddr (f.d.toNat % 8) off)))) ∧
  (∀ f s u v d cnt lanes locs t, s.ready 0x790 f = true → s.view 0x790 f = u → u.busy = false → u.drainQueue u.node u.me = v → v.myCore.grid (f.x.toNat % 8) = d → gridOffence d = none →
    cnt = gridLevels d * gridFeat d → opIndex f.a + gridDims d ≤ 128 → opIndex f.d + cnt ≤ 128 →
    rangesClash f.a f.d (gridDims d) cnt = false → lanes = v.lanes.map (fun i => (i, laneCorners d (v.coords f d i))) →
    locs = lanes.flatMap (fun p => match p.2 with
      | none => []
      | some ls => (ls.zipIdx).flatMap (fun q => q.1.flatMap (fun c => (List.range (gridFeat d)).map (fun j => gridEntry d q.2 c.1 j)))) →
    v.busy = false → v.judge v.node (locs.map (fun va => { want := { r := true, line := true }, va := va, size := gridWidth d })) = .allowed →
    t = (v.behind v.node v.me (gridWidth d) locs).noteData v.node true (gridWidth d) locs →
    Does (.hgl f) 0x790 f s
      { st := (writeOutputs t f ((List.range cnt).map (fun k => (k, lanes.map (fun p => match p.2 with
          | none => (p.1, 0x7FC00000)
          | some ls => (p.1, gridSum t t.node d (k / gridFeat d) (k % gridFeat d) (ls.getD (k / gridFeat d) []))))))).noteVoid
            (lanes.any (fun p => p.2.isNone)),
        lat := some 24, wr := some [.tile f.d cnt v.mySeq.vlen] }) ∧
  (∀ f s u v d cnt lanes, s.ready 0x7B0 f = true → s.view 0x7B0 f = u → u.busy = false →
    v = (if u.storesInto [0, 8] then u.drainQueue u.node u.me else u) → v.myCore.grid (f.x.toNat % 8) = d → gridOffence d = none →
    cnt = 2 * gridLevels d * 2 ^ gridDims d → opIndex f.a + gridDims d ≤ 128 → opIndex f.d + cnt ≤ 128 →
    rangesClash f.a f.d (gridDims d) cnt = false → lanes = v.lanes.map (fun i => (i, laneCorners d (v.coords f d i))) →
    ∃ value : Nat → Option (List (List (Nat × Nat))) → Nat, Does (.hgw f) 0x7B0 f s
        { st := (writeOutputs v f ((List.range cnt).map (fun k => (k, lanes.map (fun p => (p.1, value k p.2)))))).noteVoid
            (lanes.any (fun p => p.2.isNone)),
          lat := some (8 + gridLevels d), wr := some [.tile f.d cnt v.mySeq.vlen] } ∧
      ∀ k, value (2 * k) none = 0xFFFFFFFF ∧ value (2 * k + 1) none = 0x7FC00000 ∧ ∀ ls c,
        c = (ls.getD (k / 2 ^ gridDims d) []).getD (k % 2 ^ gridDims d) (0, 0) →
        value (2 * k) (some ls) = c.1 ∧ value (2 * k + 1) (some ls) = c.2) ∧
  (∀ r ∈ ([(.hgsDet, 0x7A0, true), (.hgsRel, 0x7A1, false)] : List ((Fields → Instr) × Nat × Bool)),
    ∀ f s u v d lanes parts (t : State) adds, s.ready r.2.1 f = true → s.view r.2.1 f = u → u.busy = false → u.drainQueue u.node u.me = v → v.myCore.grid (f.x.toNat % 8) = d → gridOffence d = none →
      opIndex f.a + gridDims d ≤ 128 → opIndex f.b + gridLevels d * gridFeat d ≤ 128 →
      lanes = v.lanes.map (fun i => (i, laneCorners d (v.coords f d i))) →
      parts = lanes.flatMap (fun p => match p.2 with
        | none => []
        | some ls => (ls.zipIdx).flatMap (fun q => q.1.flatMap (fun c => (List.range (gridFeat d)).map (fun j =>
            (gridEntry d q.2 c.1 j, f32Mul c.2 (v.srcLane (advanceField f.b (q.2 * gridFeat d + j)) 32 p.1)))))) →
      v.busy = false → v.judgeAtoms v.node 3 (v.gridPlace v.node)
        (parts.map (fun p => { want := Want.scatter, va := p.1, size := gridWidth d })) = .allowed →
      t = (if parts = [] then v else v.behindWrites v.node v.me (parts.map (fun p => p.1))).noteData v.node true (gridWidth d) (parts.map (fun p => p.1)) →
      adds = shuffle (if r.2.2 then mergeAll (t.location t.node) parts else parts) t.fresh parts.length →
      Does (r.1 f) r.2.1 f s
        { st := ((adds.foldl (fun (t : State) p => t.gridAdd t.node d p.1 p.2) { t with fresh := t.fresh + parts.length }).modMyCore (fun c =>
            c.setSys 0x0E1 (c.sysreg 0x0E1 + BitVec.ofNat 64 adds.length))).noteVoid (lanes.any (fun p => p.2.isNone)) }) ∧
  (∀ r ∈ ([(.hgl, 0x790), (.hgsDet, 0x7A0), (.hgsRel, 0x7A1)] : List ((Fields → Instr) × Code)),
    ∀ f s v off, s.ready r.2 f = true → s.view r.2 f = v → v.busy = false →
      gridOffence ((v.drainQueue v.node v.me).myCore.grid (f.x.toNat % 8)) = some off →
      exec (r.1 f) s = .next (s.takeFault 0x29 (gridAddr (f.x.toNat % 8) off))) ∧
  (∀ f s v off, s.ready 0x7B0 f = true → s.view 0x7B0 f = v → v.busy = false →
    gridOffence ((if v.storesInto [0, 8] then v.drainQueue v.node v.me else v).myCore.grid (f.x.toNat % 8)) = some off →
    exec (.hgw f) s = .next (s.takeFault 0x29 (gridAddr (f.x.toNat % 8) off))) ∧
  (∀ r ∈ ([(.hgl, 0x790), (.hgw, 0x7B0), (.hgsDet, 0x7A0), (.hgsRel, 0x7A1)] : List ((Fields → Instr) × Code)),
    ∀ f s v, s.ready r.2 f = true → s.view r.2 f = v → v.busy = true → exec (r.1 f) s = .next v.endWait)

/-! ## Synchronisation -/

/-- R277 to R281: RNGCLAIM takes a slot of a ring that has one free, for a sequencer that no other waits before, else it waits (kind 5); RNGFILL marks a claimed slot filled once the writes before it are performed; RNGWAIT takes the oldest filled slot in order; RNGFREE frees the oldest taken one; BACQ takes a buffer while fewer than COUNT are held, else waits (kind 6); BREL frees the oldest held, or notes that none is. -/
def Obligations.RingAndBufferResults : Prop :=
  (∀ f s v e r, s.ready 0xA00 f = true → s.view 0xA00 f = v → e = f.x.toNat % 32 → v.ring e = r → v.behindInLine (BitVec.ofNat 64 e) = false →
    (∀ r1 : Ring, r.used < r.count → r1 = { r with fill := r.fill.filter (fun k => k != r.tail), tail := (r.tail + 1) % r.count,
                                                   used := r.used + 1, clm := r.clm + 1, claimed := r.claimed ++ [r.tail] } →
      ∃ t : State, Does (.rngclaim f) 0xA00 f s { st := (t.setRing e r1).setReg (regNum f.d) (r.base + BitVec.ofNat 64 (r.tail * r.slot)) } ∧
        t.cores = v.cores ∧ t.mem = v.mem) ∧
    (r.count ≤ r.used → s.mySeq.wait = none → ∃ t w, exec (.rngclaim f) s = .next t ∧ t.ring e = r ∧
      t.mySeq.wait = some w ∧ w.kind = 0x05 ∧ w.id = BitVec.ofNat 64 e)) ∧
  (∀ f s v e r k, s.ready 0xA10 f = true → s.view 0xA10 f = v → e = f.x.toNat % 32 → v.ring e = r → v.busy = false →
    r.claimed.filter (fun t => r.base + BitVec.ofNat 64 (t * r.slot) == v.sreg f.a) = [k] →
    Does (.rngfill f) 0xA10 f s
      { st := (v.drainQueue v.node v.me).setRing e
          { r with fill := r.fill ++ [k], claimed := r.claimed.filter (fun u => u != k), clm := r.clm - 1 } }) ∧
  (∀ f s v e r, s.ready 0xA20 f = true → s.view 0xA20 f = v → e = f.x.toNat % 32 → v.ring e = r →
    v.behindInLine (BitVec.ofNat 64 (e + 256)) = false → r.take ≠ r.tail → r.take ∈ r.fill →
    ∃ t : State, Does (.rngwait f) 0xA20 f s
        { st := (t.setRing e { r with take := (r.take + 1) % r.count }).setReg (regNum f.d) (r.base + BitVec.ofNat 64 (r.take * r.slot)) } ∧
      t.cores = v.cores ∧ t.mem = v.mem) ∧
  (∀ f s v e r, s.ready 0xA30 f = true → s.view 0xA30 f = v → e = f.x.toNat % 32 → v.ring e = r →
    (r.head = r.take ∨ v.sreg f.a ≠ r.base + BitVec.ofNat 64 (r.head * r.slot) → exec (.rngfree f) s = .next (s.takeFault 0x02 1)) ∧
    (r.head ≠ r.take → v.sreg f.a = r.base + BitVec.ofNat 64 (r.head * r.slot) → v.busy = false →
      Does (.rngfree f) 0xA30 f s
        { st := (v.drainQueue v.node v.me).setRing e
            { r with fill := r.fill.filter (fun t => t != r.head), head := (r.head + 1) % r.count, used := r.used - 1 } })) ∧
  (∀ f s v e b, s.ready 0xA40 f = true → s.view 0xA40 f = v → e = f.x.toNat % 8 → v.myCore.buf e = b →
    (b.held < b.count → v.behindBuf e = false → Does (.bacq f) 0xA40 f s
      { st := (v.modMyCore (fun c => c.setBuf e { b with head := (b.head + 1) % b.count, held := b.held + 1 })).setReg (regNum f.d)
          (b.base + BitVec.ofNat 64 (b.head * b.size)) }) ∧
    (b.count ≤ b.held → exec (.bacq f) s = .next (s.waitFor 0x06 (BitVec.ofNat 64 e)))) ∧
  (∀ f s v e t, s.ready 0xA50 f = true → s.view 0xA50 f = v → e = f.x.toNat % 8 → v.busy = false → v.drainQueue v.node v.me = t →
    ((t.myCore.buf e).held ≠ 0 → Does (.brel f) 0xA50 f s
      { st := t.modMyCore (fun c => c.setBuf e { t.myCore.buf e with held := (t.myCore.buf e).held - 1 }) }) ∧
    ((t.myCore.buf e).held = 0 → Does (.brel f) 0xA50 f s { st := t.modMyCore (fun c => c.setSys 0x20C (c.sysreg 0x20C ||| 1)) }))

/-- R282, R283, R284, R291, R294: RFADD adds to a flag of a core of the placement and MFSET writes one of every member of a scope entry, after the writes of their queue; FLAGW waits (kind 4) until its condition holds and returns the flag; FLAGCLR writes zero, FLAGRD reads; a FENCE performs the writes its kind and mask name, for every member of its entry at once (DESIGN CHOICE, logs 8 and 76); SCOPESET makes an entry of the cores whose bits are set, and retires as it does, so that what issues later uses the new set. A flag of a core that cannot be reached is cause 0x18, one in a gated domain cause 0x10 (DEDUCED, log 75). -/
def Obligations.FlagAndFenceResults : Prop :=
  (∀ f s v n k, s.ready 0xA60 f = true → s.view 0xA60 f = v → n = (v.sreg f.a).toNat → k = f.x.toNat % 32 → n < 2 ^ 22 →
    v.myCore.placement.contains n = true →
    (v.flagFault v.node n = none → v.busy = false →
      Does (.rfadd f) 0xA60 f s { st := (v.drainQueue v.node v.me).modCore n (fun c => c.setFlag k (c.flag k + (v.sreg f.d).setWidth 32)) }) ∧
    (∀ cause, v.flagFault v.node n = some cause → exec (.rfadd f) s = .next (s.takeFault cause (BitVec.ofNat 64 (windowAddr n 9 (4 * k)))))) ∧
  (∀ f s v ms, s.ready 0xA61 f = true → s.view 0xA61 f = v → ms = v.members v.node (f.x.toNat / 256 % 32) →
    ms.all (fun m => (v.flagFault v.node m).isNone) = true → v.busy = false →
    Does (.mfset f) 0xA61 f s
      { st := ms.foldl (fun t m => t.modCore m (fun c => c.setFlag (f.x.toNat % 32) ((v.sreg f.d).setWidth 32))) (v.drainQueue v.node v.me) }) ∧
  (∀ f s v t k, s.ready 0xA62 f = true → s.view 0xA62 f = v → k = f.x.toNat % 32 → v.behindFlag k = t → v.busy = false →
    (flagCond (f.x.toNat / 256 % 4) (t.myCore.flag k) ((v.sreg f.a).setWidth 32) = true →
      Does (.flagw f) 0xA62 f s { st := t.setReg (regNum f.d) ((t.myCore.flag k).setWidth 64) }) ∧
    (flagCond (f.x.toNat / 256 % 4) (t.myCore.flag k) ((v.sreg f.a).setWidth 32) = false →
      exec (.flagw f) s = .next (t.waitFor 0x04 (BitVec.ofNat 64 k)))) ∧
  (∀ v r : BitVec 32, (flagCond 0 v r = true ↔ v = r) ∧ (flagCond 1 v r = true ↔ v ≠ r) ∧ (flagCond 2 v r = true ↔ (v - r).toNat < 2 ^ 31)) ∧
  (∀ f s v, s.ready 0xA63 f = true → s.view 0xA63 f = v → v.busy = false →
    Does (.flagclr f) 0xA63 f s
      { st := v,
        stores := [{ tag := 0, path := .horizontal, addr := windowAddr v.node 9 (4 * (f.x.toNat % 32)), size := 4, val := 0, key := none, via := none }] }) ∧
  (∀ f s v t, s.ready 0xA64 f = true → s.view 0xA64 f = v → v.busy = false → v.behindFlag (f.x.toNat % 32) = t →
    Does (.flagrd f) 0xA64 f s { st := t.setReg (regNum f.d) ((t.myCore.flag (f.x.toNat % 32)).setWidth 64) }) ∧
  (∀ f s v, s.ready 0xA70 f = true → s.view 0xA70 f = v → v.busy = false →
    (f.x.toNat % 4 = 1 ∨ v.members v.node (f.x.toNat / 256 % 32) = [] → Does (.fence f) 0xA70 f s { st := v }) ∧
    (f.x.toNat % 4 = 2 → v.members v.node (f.x.toNat / 256 % 32) ≠ [] →
      Does (.fence f) 0xA70 f s { st := v.drainPaths v.node v.me (f.x.getLsbD 16) (f.x.getLsbD 17) }) ∧
    (f.x.toNat % 4 ≠ 1 → f.x.toNat % 4 ≠ 2 → v.members v.node (f.x.toNat / 256 % 32) ≠ [] → Does (.fence f) 0xA70 f s { st := v.drainQueue v.node v.me })) ∧
  (∀ f s v vas t set, s.ready 0xAA0 f = true → s.view 0xAA0 f = v → v.busy = false → vas = units (v.sreg f.a) 1 ((v.myCore.placement.length + 7) / 8) →
    v.assured.judge v.node (accs Want.load 1 vas) = .allowed → t = (v.behind v.node v.me 1 vas).noteData v.node true 1 vas →
    set = mapCores v.myCore.placement.length (vas.map (fun va => t.load t.node va 1)) →
    (set ≠ [] → Does (.scopeset f) 0xAA0 f s { st := t.modMyCore (fun c => { c with scopes := Tab.put c.scopes (f.x.toNat % 32) set }), atOnce := true }) ∧
    (set = [] → exec (.scopeset f) s = .next (s.takeFault 0x02 1)))

/-- R285 to R290, Table 13.6: each ATOM whose location may be reached puts its function of the old value and s[D] (CAS: and of the comparand) there in one step and, where asked, returns the old value; each VATOM does so for its active lanes in ascending order; flags of the floating-point forms join ATFLAGS; older writes of the queue on the path of the location are performed first (R242), a word that one of them replaces whole being good by then (R378). R288, R300, Table 13.7: an atomic on GDDR-7 or a vault of another package takes its line from every L1 there, one on its own package's through a page with C = 1 from every other L1 of the package; nothing else changes by that. That the atomic and those writes are performed as it issues is the model's choice (log 7). -/
def Obligations.AtomicResults : Prop :=
  (∀ r ∈ ([(.atomAdd, .vatomAdd, 0, fun _ w x v _ => ⟨(x + v) % 2 ^ w, 0⟩), (.atomAnd, .vatomAnd, 1, fun _ _ x v _ => ⟨x &&& v, 0⟩),
      (.atomOr, .vatomOr, 2, fun _ _ x v _ => ⟨x ||| v, 0⟩), (.atomXor, .vatomXor, 3, fun _ _ x v _ => ⟨x ^^^ v, 0⟩),
      (.atomMin, .vatomMin, 4, fun _ w x v _ => ⟨if toInt w x ≤ toInt w v then x else v, 0⟩),
      (.atomMax, .vatomMax, 5, fun _ w x v _ => ⟨if toInt w x ≤ toInt w v then v else x, 0⟩),
      (.atomMinn, .vatomMinn, 6, fun _ _ x v _ => ⟨min x v, 0⟩), (.atomMaxn, .vatomMaxn, 7, fun _ _ x v _ => ⟨max x v, 0⟩),
      (.atomXchg, .vatomXchg, 8, fun _ _ _ v _ => ⟨v, 0⟩), (.atomCas, .vatomCas, 9, fun _ _ x v c => ⟨if x = c then v else x, 0⟩),
      (.atomFadd, .vatomFadd, 10, atomFadd), (.atomFmin, .vatomFmin, 11, atomFmin), (.atomFmax, .vatomFmax, 12, atomFmax)] :
      List ((Fields → Instr) × (Fields → Instr) × Nat × AtomOp)),
    (∀ f s v t w o, s.ready (0xA80 + r.2.2.1) f = true → s.view (0xA80 + r.2.2.1) f = v → v.busy = false →
      w = (if 10 ≤ r.2.2.1 then 32 else intWidth f.q.toNat) →
      v.assured.judgeAtoms v.node 5 (v.atomPlace v.node) [{ want := Want.atomic, va := v.sreg f.a, size := w / 8 }] = .allowed →
      t = (v.behindWrites v.node v.me [v.sreg f.a]).noteData v.node true (w / 8) [v.sreg f.a] →
      o = t.atomAt r.2.2.2 f.q.toNat w (v.sreg f.a) ((v.sreg f.d).toNat % 2 ^ w) ((v.mySeq.reg (f.x.extractLsb' 16 5)).toNat % 2 ^ w) →
      Does (r.1 f) (0xA80 + r.2.2.1) f s
        { st := if f.x.getLsbD 8 then o.2.setReg (regNum (f.x.setWidth 12)) (atomResult (0xA80 + r.2.2.1) f o.1) else o.2 }) ∧
    (∀ f s v t w q vas o, s.ready (0xA90 + r.2.2.1) f = true → s.view (0xA90 + r.2.2.1) f = v → v.busy = false →
      w = (if 10 ≤ r.2.2.1 then 32 else intWidth f.q.toNat) → q = (if 10 ≤ r.2.2.1 then 0 else f.q.toNat) →
      vas = v.lanes.map (fun i => v.sreg f.a + (BitVec.ofNat 32 (v.srcLane f.b 32 i)).signExtend 64) →
      v.assured.judgeAtoms v.node 5 (v.atomPlace v.node) (vas.map (fun va => { want := Want.atomic, va := va, size := w / 8 })) = .allowed →
      t = (if vas = [] then v else v.behindWrites v.node v.me vas).noteData v.node true (w / 8) vas →
      o = (vas.zipIdx).foldl (fun (a : List (Nat × Word) × State) p =>
        let z := a.2.atomAt r.2.2.2 q w p.1 (v.srcLane (atomOperand q (f.x.extractLsb' 0 8)) w p.2)
          (if r.2.2.1 = 9 then v.srcLane (atomOperand q (f.x.extractLsb' 8 8)) w p.2 else 0)
        (a.1 ++ [(p.2, BitVec.ofNat 64 z.1)], z.2)) ([], t) →
      Does (r.2.1 f) (0xA90 + r.2.2.1) f s
        { st := if f.x.getLsbD 16 then o.2.loadLanes v.node false f.d w (overlapsIn f.d (if r.2.2.1 = 9 then
            [f.b, atomOperand q (f.x.extractLsb' 0 8), atomOperand q (f.x.extractLsb' 8 8)] else [f.b, atomOperand q (f.x.extractLsb' 0 8)])) o.1
            else o.2 })) ∧
  (∀ (s : State) op q w va v c, s.atomAt op q w va v c = (s.load s.node va (w / 8),
    ((s.takeLine s.node va).engineWrite s.node va (w / 8) (BitVec.ofNat 64 (op q w (s.load s.node va (w / 8)) v c).bits)).addAtFlags s.node s.me
      (op q w (s.load s.node va (w / 8)) v c).fl)) ∧
  (∀ (s t : State) n va x, s.xlate n va = some x → s.takeLine n va = t →
    t.mem = s.mem ∧ (∀ m, ∃ l, t.core m = { s.core m with l1 := l }) ∧ t.core n = s.core n ∧
    (2 ≤ paSpace (x.addr va) ∨ (paPkg (x.addr va) = pkgOf n ∧ x.c = false) → t = s) ∧
    (paSpace (x.addr va) < 2 → paPkg (x.addr va) ≠ pkgOf n ∨ x.c = true → ∀ m, m ≠ n → pkgOf m = paPkg (x.addr va) →
      ∀ k ∈ (t.core m).l1, k.line ≠ x.addr va / 128))

/-- R302 to R306: a CLST of a member, with its permit granted, arrives and waits for the others (kind 0x0C), but waits for none where it is the last to arrive, and waits no more once all have arrived; one of a core outside its own set is cause 0x02. When the members of a set have all arrived with the same entry, count and set, and cycles are delivered to all of them, CLST_COMBINE gives every one of them the lanes combined in rank order where they agree in FN, Q and VLEN, and cause 0x02 where they do not; while one is frozen it does nothing. For a set of one member the result is its own lanes, a NaN made canonical in the floating-point forms. When the combination happens, and that a fault of it is raised then, are the model's choices (logs 36 and 77). -/
def Obligations.CollectiveResults : Prop :=
  (∀ r ∈ ([(.clstFadd, 0), (.clstFmax, 1), (.clstFmin, 2), (.clstIadd, 3), (.clstImax, 4)] : List ((Fields → Instr) × Nat)),
    ∀ f s v e set, s.ready (0xB20 + r.2) f = true → s.view (0xB20 + r.2) f = v → e = f.x.toNat % 32 → v.ranked v.node e = set →
      v.myCore.clst = none →
      (set.contains v.node = false → exec (r.1 f) s = .next (s.takeFault 0x02 3)) ∧
      (∀ t u a, set.contains v.node = true → v.permitFree 1 = true → v.permitted .collective 1 = t →
        a = { entry := e, k := Tab.get t.myCore.clstCnt e 0, fn := r.2, q := f.q.toNat, set := set, vlen := t.mySeq.vlen,
              lanes := t.lanes.map (fun i => BitVec.ofNat 64 (t.srcLane f.a (clstWidth r.2 f.q.toNat) i)), fields := f } →
        u = t.modMyCore (fun c => { c with clst := some a }) →
        (u.arrivals a = none → exec (r.1 f) s = .next (u.waitFor 0x0C (BitVec.ofNat 64 e))) ∧
        ((u.arrivals a).isSome = true → exec (r.1 f) s = .next u.endWait))) ∧
  (∀ r ∈ ([(.clstFadd, 0), (.clstFmax, 1), (.clstFmin, 2), (.clstIadd, 3), (.clstImax, 4)] : List ((Fields → Instr) × Nat)),
    ∀ f s v a, s.ready (0xB20 + r.2) f = true → s.view (0xB20 + r.2) f = v → v.myCore.clst = some a →
      (v.arrivals a = none → exec (r.1 f) s = .next (s.waitFor 0x0C (BitVec.ofNat 64 (f.x.toNat % 32)))) ∧
      ((v.arrivals a).isSome = true → exec (r.1 f) s = .next v.endWait)) ∧
  (∀ n s a l, (s.core n).clst = some a → s.arrivals a = some l → (∀ p ∈ l, s.delivers p.1 = true) →
    (∀ p ∈ l, (({ s with cur := (p.1, .cp) } : State).miss (0xB20 + p.2.fn) p.2.fields) = none) →
    (l.all (fun p => p.2.agrees a) = true → exec (.clstCombine n) s = .next (l.foldl (fun t p => t.asMember p.1 (fun u => u.memberResult p.2
      ((List.range a.vlen).map (fun i => (i, clstLane a.fn (clstWidth a.fn a.q) (l.map (fun p => (p.2.lanes.getD i 0).toNat))))))) s)) ∧
    (l.all (fun p => p.2.agrees a) = false → exec (.clstCombine n) s = .next (l.foldl (fun t p => t.asMember p.1 (fun u =>
      ((u.modCore p.1 (fun c => { c with clst := none })).releasePermit p.1 .cp .collective).takeFault 0x02 3)) s))) ∧
  (∀ n s a l p, (s.core n).clst = some a → s.arrivals a = some l → p ∈ l → s.delivers p.1 = false → exec (.clstCombine n) s = .next s) ∧
  (∀ n s a, (s.core n).clst = some a → s.arrivals a = none → exec (.clstCombine n) s = .next s) ∧
  (∀ n s a, (s.core n).clst = some a → s.arrivals a = some [(n, a)] → s.delivers n = true →
    ({ s with cur := (n, .cp) } : State).miss (0xB20 + a.fn) a.fields = none →
    ∃ t, exec (.clstCombine n) s = .next t ∧ (t.core n).clst = none ∧ (t.core n).seqs.cp.pc = (s.core n).seqs.cp.pc + instrLen a.fields ∧
      Tab.get (t.core n).clstCnt a.entry 0 = Tab.get (s.core n).clstCnt a.entry 0 + 1) ∧
  (∀ n s, (s.core n).clst = none → exec (.clstCombine n) s = .next s) ∧
  (∀ fn w v, (clstLane fn w [v]).bits = if fn ≤ 2 ∧ (Fmt.f32.value v).isNan = true then Fmt.f32.nan else v) ∧
  (∀ w v u, (clstLane 3 w [v, u]).bits = (v + u) % 2 ^ w) ∧
  (∀ v u, clstLane 0 32 [v, u] = (fpAdd .f32 FpEnv.rne (clstLane 0 32 [v]).bits u).plus (clstLane 0 32 [v]).fl)

/-! ## The system class -/

/-- R321 to R325, R381: WFE ends at once where its latch is set or a notice is pending and clears the latch, else waits (kind 0x0A); EVSIG sends its event to a sequencer of a core of the package that it reaches, or to a die control core of the stack from a privileged context; SYNCI empties the core's instruction cache and TLBI the entries it names in every TLB of the package, after the accesses before them; MFP and MTP read and write a register of a core that they reach, MTP of a sequencer that is halted or stopped, both using that register as R99 counts latencies, MTP's being 20 (R332), and where the schedule keeps the request in flight they issue as it leaves, their tokens popped then (R90, R98); YIELD has issue stop in the next cycle where a notice is pending. A core of another package is cause 0x13 for EVSIG whatever it reaches (DEDUCED, log 88); TLBI stalls while a frozen core holds back writes made under the entries. That TLBI performs the writes before it (log 43), that MTP reaches SEQCTL of a frozen core whose sequencer runs (log 44), and that an event and a request arrive at once where nothing is kept in flight (log 1) are the model's choices. -/
def Obligations.SystemInstructionResults : Prop :=
  (∀ f s v, s.ready 0xC30 f = true → s.view 0xC30 f = v →
    (v.mySeq.latch = true ∨ v.myCore.notice.isSome = true → Does (.wfe f) 0xC30 f s
      { st := v.modSeq v.node v.me (fun q => { q with latch := false }) }) ∧
    (v.mySeq.latch = false → v.myCore.notice = none → exec (.wfe f) s = .next (s.waitFor 0x0A 0))) ∧
  (∀ f s v a, s.ready 0xC31 f = true → s.view 0xC31 f = v → a = (v.sreg f.a).toNat →
    (a < 2 ^ 24 → v.reaches v.node (a % 2 ^ 22) = true → pkgOf (a % 2 ^ 22) = pkgOf v.node → s.hold = false → Does (.evsig f) 0xC31 f s
      { st := v.modSeq (a % 2 ^ 22) (seqOfNum (a / 2 ^ 22 % 4)) (fun q => { q with latch := true }) }) ∧
    (a < 2 ^ 24 → v.reaches v.node (a % 2 ^ 22) = false ∨ pkgOf (a % 2 ^ 22) ≠ pkgOf v.node →
      exec (.evsig f) s = .next (s.takeFault 0x13 (BitVec.ofNat 64 (a % 2 ^ 22)))) ∧
    (a < 2 ^ 24 → v.reaches v.node (a % 2 ^ 22) = true → pkgOf (a % 2 ^ 22) = pkgOf v.node → s.hold = true → Does (.evsig f) 0xC31 f s
      { st := v.modCore (a % 2 ^ 22) (fun c => { c with events := c.events ++ [seqOfNum (a / 2 ^ 22 % 4)] }) }) ∧
    (a = 2 ^ 24 ∨ a = 2 ^ 24 + 1 → v.privileged v.node = true → s.hold = false → Does (.evsig f) 0xC31 f s
      { st := v.modSeq (dccKey (stackOf v.node / 4) (stackOf v.node % 4) (a % 2)) .ld (fun q => { q with latch := true }) })) ∧
  (∀ f s v, s.ready 0xC40 f = true → s.view 0xC40 f = v → v.busy = false →
    Does (.synci f) 0xC40 f s { st := (v.drainQueue v.node v.me).modMyCore (fun c => { c with icache := [] }) }) ∧
  (∀ f s v t k tag, s.ready 0xC50 f = true → s.view 0xC50 f = v → v.drainPackage (pkgOf v.node) = t → k = f.x.toNat % 4 →
    tag = (v.sreg f.a).toNat % 65536 → (v.heldWrites (pkgOf v.node) k (v.sreg f.d) tag = true → exec (.tlbi f) s = .next v.endWait) ∧
      (v.heldWrites (pkgOf v.node) k (v.sreg f.d) tag = false → ∃ u, exec (.tlbi f) s = .next u ∧
      (∀ n, pkgOf n = pkgOf v.node → (u.core n).tlb = (t.core n).tlb.filter (fun e => e.kept k (v.sreg f.d) tag)) ∧
      (∀ n, pkgOf n ≠ pkgOf v.node → (u.core n).tlb = (t.core n).tlb) ∧
      (∀ b, b / 256 = pkgOf v.node → (u.bay b).tlb = (t.bay b).tlb.filter (fun e => e.kept k (v.sreg f.d) tag)) ∧
      (∀ e : TlbEntry, e.kept 0 (v.sreg f.d) tag = !(e.covers tag (v.sreg f.d)) ∧ (e.kept 1 (v.sreg f.d) tag = true ↔ e.tag ≠ tag) ∧
        e.kept 2 (v.sreg f.d) tag = false))) ∧
  (∀ f s v n q num, s.ready 0xC70 f = true → s.view 0xC70 f = v → s.hold = false → (v.sreg f.a).toNat < 4096 → n = remoteNode v f →
    q = remoteSeq v f → v.reaches v.node n = true → v.sealed n = false → num = f.x.toNat % 4096 →
    Does (.mfp f) 0xC70 f s { st := (v.useFree (regIsFree n num)).setReg (regNum f.d) (v.readReg n q num) }) ∧
  (∀ (v : State) f, (regInfo (f.x.toNat % 4096)).isSome = true → ∀ c, c = 0xC70 ∨ c = 0xC71 →
    ∃ h, remoteUses v c f = [.held h (f.x.toNat % 4096)]) ∧
  (∀ f s v n q num, s.ready 0xC71 f = true → s.view 0xC71 f = v → s.hold = false → (v.sreg f.a).toNat < 4096 → n = remoteNode v f →
    q = remoteSeq v f → v.reaches v.node n = true → v.sealed n = false → num = f.x.toNat % 4096 →
    ((v.seq n q).run ≠ .running → num ≠ 0x281 → Does (.mtp f) 0xC71 f s
      { st := v.writeReg v.node n q num (v.sreg f.d), wr := some (remoteUses v 0xC71 f) }) ∧
    ((v.seq n q).run ≠ .running ∨ (v.core n).freeze.isSome = true → num = 0x281 → Does (.mtp f) 0xC71 f s
      { st := v.seqctl n q (v.sreg f.d), wr := some (remoteUses v 0xC71 f) }) ∧
    ((v.seq n q).run = .running → (num ≠ 0x281 ∨ (v.core n).freeze = none) → exec (.mtp f) s = .next (s.takeFault 0x02 1))) ∧
  (∀ r ∈ ([(.mfp, 0xC70, false), (.mtp, 0xC71, true)] : List ((Fields → Instr) × Code × Bool)), ∀ f s v,
    s.ready r.2.1 f = true → s.view r.2.1 f = v → s.hold = true → (v.sreg f.a).toNat < 4096 → v.reaches v.node (remoteNode v f) = true →
    v.sealed (remoteNode v f) = false → exec (r.1 f) s = .next (v.sendRequest f r.2.2)) ∧
  (∀ (s : State) f w t, s.sendRequest f w = t → isDcc s.node = false →
    t.mySeq.remote = some { write := w, fields := f, missed := (s.miss (if w then 0xC71 else 0xC70) f).isSome } ∧ t.mySeq.last = some s.myCore.cycle ∧
    t.mySeq.wait = none ∧ t.mySeq.pc = s.mySeq.pc ∧ t.mySeq.regs = s.mySeq.regs ∧ t.myCore.tok = (s.myCore.popAll s.me f.pop).tok ∧ t.mem = s.mem) ∧
  (∀ f s v, s.ready 0xC80 f = true → s.view 0xC80 f = v →
    (v.myCore.notice = none → Does (.yield f) 0xC80 f s { st := v }) ∧
    (v.myCore.notice.isSome = true → Does (.yield f) 0xC80 f s
      { st := v.modMyCore (fun c => { c with notice := c.notice.map (fun k => { k with yielded := true }) }) })) ∧
  (∀ n (s : State) k, (s.core n).notice = some k → k.yielded = true → (s.core n).paused = none → (s.core n).clst = none → isDcc n = false →
    ((s.stopDue n).core n).paused = some (s.core n).cycle ∧ ∀ q, (({ s.stopDue n with cur := (n, q) } : State).idle = true))

/-- R325 to R330: CSAVE of a core that holds a context, frozen, or at once, or already stopped, or at the end of its grace, writes the save area and leaves the core empty, where every access of the save is allowed and every page of the area of a confidential context is PRIV; with a grace it first gives its notice, to the core and to each sequencer, and stalls; a save of a core whose issue has stopped stalls until its reel is suspended, or its draining reel's last pass is promoted (R212; DESIGN CHOICE, log 90); CREST of an empty core installs the context that a well-formed area holds: from an area that holds the words of a save, on whatever core, it gives back the scalar registers, the resume PCs and states, the registers that software writes whole, CYCLE as it was when issue stopped, the matrix file, the negative, the flag words, the grid slots, the shadow nest table, and the tokens and reserved places as the bytes that the area has for them (R326, R329, Table 15.8). What stands in the area where the spec gives no layout (log 45), what both instructions finish and check first (log 37), and that a placement follows the core (log 46) are the model's choices. -/
def Obligations.SaveAndRestoreResults : Prop :=
  (∀ f s v n t words u, s.ready 0xC60 f = true → s.view 0xC60 f = v → (v.sreg f.d).toNat < 256 →
    n = 256 * stackOf v.node + (v.sreg f.d).toNat → (v.core n).ctx.isSome = true → (v.sreg f.a).toNat % 4096 = 0 → v.phaseUnderWay n = false →
    (v.core n).freeze.isSome = true ∨ f.x.getLsbD 0 = false ∨ (v.core n).paused.isSome = true ∨ (v.core n).graceOver = true → (v.core n).reelRuns = false →
    t = (v.stopCore n (!f.x.getLsbD 0)).modCore n (fun c => { c with seqs :=
        { ld := { c.seqs.ld with pc := c.seqs.ld.resumePc }, cp := { c.seqs.cp with pc := c.seqs.cp.resumePc },
          st := { c.seqs.st with pc := c.seqs.st.resumePc }, ct := { c.seqs.ct with pc := c.seqs.ct.resumePc } } }) →
    words = t.areaWords n (f.x.getLsbD 1) ++ openWords t.fresh → t.judge t.node (areaAccs Want.store (v.sreg f.a) (words.map (fun p => p.1))) = .allowed →
    v.openPage n (words.map (fun p => v.sreg f.a + BitVec.ofNat 64 p.1)) = none →
    u = words.foldl (fun u p => u.engineWrite u.node (v.sreg f.a + BitVec.ofNat 64 p.1) 8 p.2)
      ((t.noteAccs t.node (areaAccs Want.store (v.sreg f.a) (words.map (fun p => p.1)))).drainQueue t.node t.me) →
    ∃ w, Does (.csave f) 0xC60 f s { st := w } ∧ (w.core n).ctx = none ∧ w.core n = (u.core n).vacated ∧ w.mem = u.mem ∧
      w.saved.length = u.saved.length + 1) ∧
  (∀ f s v n, s.ready 0xC60 f = true → s.view 0xC60 f = v → (v.sreg f.d).toNat < 256 → n = 256 * stackOf v.node + (v.sreg f.d).toNat →
    (v.core n).ctx.isSome = true → (v.sreg f.a).toNat % 4096 = 0 → v.phaseUnderWay n = false → (v.core n).reelRuns = true →
    f.x.getLsbD 0 = false ∨ (v.core n).paused.isSome = true ∨ (v.core n).graceOver = true →
    exec (.csave f) s = .next (if (v.core n).paused.isSome then v.endWait else (v.stopIssue n).endWait)) ∧
  (∀ c : Core, c.reelRuns = true ↔ c.freeze = none ∧ ∃ r, c.reel = some r ∧ r.susp = false ∧ (r.draining = false ∨ r.begun ≠ [])) ∧
  (∀ f s v n, s.ready 0xC60 f = true → s.view 0xC60 f = v → (v.sreg f.d).toNat < 256 → n = 256 * stackOf v.node + (v.sreg f.d).toNat →
    (v.core n).ctx.isSome = true → (v.sreg f.a).toNat % 4096 = 0 → v.phaseUnderWay n = false → (v.core n).freeze = none → f.x.getLsbD 0 = true →
    (v.core n).paused = none → (v.core n).notice = none → n ≠ v.node → ∃ t, exec (.csave f) s = .next t ∧
      (t.core n).notice = some { ends := (v.core n).cycle + BitVec.ofNat 64 (1024 * (f.x.toNat / 256)), yielded := false } ∧
      (∀ q, (t.seq n q).notice = true ∧ (t.seq n q).pc = (v.seq n q).pc) ∧ t.mySeq.pc = v.mySeq.pc ∧ t.mem = v.mem) ∧
  (∀ f s v n t w, s.ready 0xC61 f = true → s.view 0xC61 f = v → (v.sreg f.d).toNat < 256 →
    n = 256 * stackOf v.node + (v.sreg f.d).toNat → (v.core n).ctx = none → v.gatedCore n = false → v.drainQueue v.node v.me = t →
    (w = fun off => (t.areaWord (v.sreg f.a) off).toNat) → t.judge v.node (areaAccs Want.load (v.sreg f.a) (restoreOffsets w)) = .allowed → (w 0x08 / 8 % 2 = 1 → w 0x28 % 2 ^ 22 = n) → headerBad w = false →
    Does (.crest f) 0xC61 f s
      { st := (t.noteAccs v.node (areaAccs Want.load (v.sreg f.a) (restoreOffsets w))).installCore n (v.sreg f.a) w }) ∧
  (∀ (s r : State) n m code area w u, (∀ p ∈ s.areaWords n code, w p.1 = p.2.toNat) → r.installCore m area w = u →
    (∀ q k, (u.seq m q).reg k = (s.seq n q).reg k) ∧
    (∀ q, (u.seq m q).pc = (s.seq n q).resumePc &&& 0xFFFFFFFFFFFFFFFE ∧ (u.seq m q).run = (s.seq n q).run) ∧
    (∀ q, ∀ k ∈ [0x009, 0x010, 0x019, 0x01A], (u.seq m q).sysreg k = (s.seq n q).sysreg k) ∧
    (∀ k ∈ [0x041, 0x042, 0x0C3, 0x0E1, 0x240, 0x241, 0x340, 0x341], (u.core m).sysreg k = (s.core n).sysreg k) ∧
    (u.core m).cycle = (s.core n).stopped ∧ (∀ k, k < 16384 → (u.core m).cell k = (s.core n).cell k) ∧
    ((s.core n).neg.length ≤ 4096 → (u.core m).neg = (s.core n).neg) ∧
    (∀ k, k < 32 → Tab.get (u.core m).flags k 0 = Tab.get (s.core n).flags k 0) ∧
    (∀ k, k < 128 → Tab.get (u.core m).grids k 0 = Tab.get (s.core n).grids k 0) ∧
    (∀ k, k < 28 → Tab.get (u.core m).nestTab k 0 = Tab.get (s.core n).nestTab k 0) ∧
    (∀ k, k < 16 → (u.core m).tokens k = (s.core n).tokens k % 256 ∧ (u.core m).reserved k = (s.core n).reserved k % 256))

/-- R13, R28, R90, R91, R98, R100, R103, R128, R215, R221, R227, R242, R320, R321, R324 to R326, R329: what the events of a core and its sequencers do once their condition holds: an instruction in flight whose writes are performed and whose latency is over, or a TOKS a cycle after its issue (R93), lands, places its pushes and counts its steps; of the writes of a path class's oldest instruction one is performed, none before an older one to the same bytes; a wait at its limit raises cause 0x20 for what the instruction still lacks; a matching hardware breakpoint is taken; a translation, whose walk corrects single errors in the tables and counts them (R378), and an instruction word are cached, neither beyond the room there is; an event sets its latch; the end of a notice's grace stops issue, what has issued, a HALT or a request under way among it, staying issued; a restored result lands; and the request of MFP or MTP is served, its instruction ending with its own issue cycle kept, or, where the target runs, discarded with its pops given back (DESIGN CHOICE, log 93) and cause 0x02. When each of these happens is the model's choice (logs 1, 7, 9 and 10), as are that a nest's or a transfer's access does not hold a wait back (log 31), that what a wait at its limit still lacks is named token first (DESIGN CHOICE, log 70), and that RSTEP is counted as an instruction in flight completes (DEDUCED, log 69). -/
def Obligations.CoreEvents : Prop :=
  (∀ n q tag s x, (s.seq n q).flights.find? (fun y => y.tag == tag) = some x → (s.core n).freeze = none →
    (s.seq n q).queue.any (fun st => st.tag == tag) = false → ((x.lands = [] ∧ x.timed = false) ∨ reached (s.core n).cycle x.due = true) →
    ∃ t, exec (.instructionRetire n q tag) s = .next t ∧ (t.seq n q).flights.length + 1 = (s.seq n q).flights.length ∧
      (t.core n).cells = (x.lands.foldl Core.land (s.core n)).cells ∧ (t.core n).tok = ((s.core n).place q x.pushes).tok ∧
      (t.core n).sysreg (0x048 + x.rc) = (s.core n).sysreg (0x048 + x.rc) + BitVec.ofNat 64 x.occ ∧ t.mem = s.mem) ∧
  (∀ n q path p s l, p = (if path = 0 then Path.vertical else .horizontal) → nextStores ((s.seq n q).queue.filter (fun st => st.path == p)) = l →
    l ≠ [] → (s.core n).freeze = none → (∀ st ∈ l, s.drainHit st.addr = false) → ∃ st ∈ l,
      exec (.accessPerform n q path) s = .next
        (((s.modSeq n q (fun k => { k with queue := k.queue.erase st })).performStore st).useFree (decide (1 < l.length)))) ∧
  (∀ h l, h ∈ nextStores (h :: l) ∧ ∀ st ∈ nextStores (h :: l), st ∈ h :: l ∧ st.tag = h.tag) ∧
  (∀ n q path s, (s.core n).freeze.isSome = true → exec (.accessPerform n q path) s = .next s) ∧
  (∀ n q s t w kind id, t = ({ s with cur := (n, q) } : State) → t.idle = false → (s.seq n q).wait = some w → w.counts = true →
    2 ^ w.exp ≤ ((s.core n).cycle - w.start).toNat → t.stillWaits = some (kind, id) → ∃ asks,
    exec (.waitTimeout n q) s = .next { (t.notePermits asks .timeout).takeFault 0x20 (waitAddr kind id) with cur := s.cur }) ∧
  (∀ (t : State) c f, t.nextWord = some (c, f) →
    (t.myCore.missingPops t.me c f ≠ 0 → t.stillWaits = some (0x01, BitVec.ofNat 64 (t.myCore.missingPops t.me c f))) ∧
    (t.myCore.missingPops t.me c f = 0 → t.myCore.shortPushes t.me (placesOf c f) ≠ 0 →
      t.stillWaits = some (0x02, BitVec.ofNat 64 (t.myCore.shortPushes t.me (placesOf c f)))) ∧
    (t.myCore.missingPops t.me c f = 0 → t.myCore.shortPushes t.me (placesOf c f) = 0 → waitingMeaning c = none → t.stillWaits = none)) ∧
  (∀ n q s t, t = ({ s with cur := (n, q) } : State) → t.stillWaits = none → exec (.waitTimeout n q) s = .next s) ∧
  (∀ n q s t i, t = ({ s with cur := (n, q) } : State) → t.idle = false → t.breakpoint = some i →
    exec (.hardwareBreakpoint n q) s = .next { t.takeBreakpoint i with cur := s.cur }) ∧
  (∀ n va s x, va.toNat < 2 ^ 55 → (s.core n).ctx.isSome = true →
    (s.core n).tlb.any (fun t => t.covers (s.core n).ctxTag va) = false → s.xlate n va = some x →
    (s.place (x.addr va) = .bad → exec (.pageWalk n va) s = .next (s.noteWalk n va)) ∧
    (s.place (x.addr va) ≠ .bad → ∃ t e, exec (.pageWalk n va) s = .next t ∧ e ∈ (t.core n).tlb ∧ e.covers (s.core n).ctxTag va = true ∧
      e.perm = x.perm ∧ (t.core n).tlb.length ≤ 96 ∧ (isDcc n = false → e ∈ (t.bay (bayOf n)).tlb ∧ (t.bay (bayOf n)).tlb.length ≤ 4096))) ∧
  (∀ n va (s : State) b, s.tablesRead n [va] = [b] → ∃ t, s.noteWalk n va = t ∧ (t.stack (stackOf (vaultCore (8 * b)))).sysreg 0x2C1 =
      (s.stack (stackOf (vaultCore (8 * b)))).sysreg 0x2C1 + 1 ∧ t.cores = s.cores ∧ t.mem = s.mem) ∧
  (∀ n pc s, (s.core n).ctx.isSome = true → pc.getLsbD 0 = false → s.fetchDrained n pc = false →
    ∃ t, exec (.icacheFill n pc) s = .next t ∧ Tab.get (t.core n).icache pc.toNat (.bytes []) = s.fill n pc ∧
      ((s.core n).icache.length ≤ 2048 → Tab.sorted (s.core n).icache = true → (t.core n).icache.length ≤ 2048) ∧ t.mem = s.mem) ∧
  (∀ n pc s, s.fetchDrained n pc = true → exec (.icacheFill n pc) s = .next s) ∧
  (∀ n q s, (s.core n).events.contains q = true → ∃ t, exec (.eventDeliver n q) s = .next t ∧ (t.seq n q).latch = true ∧
    (t.core n).events.length + 1 = (s.core n).events.length) ∧
  (∀ n s k, isDcc n = false → (s.core n).notice = some k → reached (s.core n).cycle k.ends = true → (s.core n).paused = none → (s.core n).clst = none →
    ∃ t, exec (.preemptGraceEnd n) s = .next t ∧ (t.core n).paused = some (s.core n).cycle ∧ (t.core n).snap = snapEntries (s.core n) ∧
      (∀ q, (t.seq n q).wait = none ∧ (t.seq n q).remote = (s.seq n q).remote ∧ (t.seq n q).halting = (s.seq n q).halting ∧ (t.seq n q).pc = (s.seq n q).pc) ∧ t.mem = s.mem) ∧
  (∀ n s x, (s.core n).snap.find? (fun x => reached (s.core n).cycle x.due) = some x → (s.core n).live = true →
    ∃ t, exec (.snapshotLand n) s = .next t ∧ (t.core n).snap = (s.core n).snap.erase x ∧
      (t.core n).cells = (x.lands.foldl Core.land (s.core n)).cells ∧ (t.core n).tok = ((s.core n).place .cp x.pushes).tok ∧
      (t.core n).sysreg (0x048 + x.rc) = (s.core n).sysreg (0x048 + x.rc) + BitVec.ofNat 64 x.occ) ∧
  (∀ n q s r t v m num w, (s.seq n q).remote = some r → (s.core n).freeze = none → (s.pkg (pkgOf n)).runs = true →
    t = ({ s.modSeq n q (fun k => { k with remote := none }) with cur := (n, q) } : State) →
    m = remoteNode v r.fields → w = remoteSeq v r.fields → num = r.fields.x.toNat % 4096 → (v.sreg r.fields.a).toNat < 4096 →
    v.reaches v.node m = true → v.sealed m = false →
    (∀ u, r.write = false → t.view 0xC70 r.fields = v →
      u = ((v.useFree (regIsFree m num)).setReg (regNum r.fields.d) (v.readReg m w num)).modMyCore (fun k => k.unreserve t.me (pushList r.fields.push)) →
      exec (.remoteRequestArrive n q) s =
        .next { (t.commit 0xC70 { r.fields with pop := 0 } { st := u }).modMe (fun k => { k with last := t.mySeq.last }) with cur := s.cur }) ∧
    (∀ u, r.write = true → t.view 0xC71 r.fields = v → (v.seq m w).run ≠ .running → num ≠ 0x281 →
      u = (v.writeReg v.node m w num (v.sreg r.fields.d)).modMyCore (fun k => k.unreserve t.me (pushList r.fields.push)) →
      exec (.remoteRequestArrive n q) s =
        .next { (t.commit 0xC71 { r.fields with pop := 0 } { st := u, wr := some (remoteUses v 0xC71 r.fields) }).modMe (fun k => { k with last := t.mySeq.last }) with cur := s.cur }) ∧
    (r.write = true → t.view 0xC71 r.fields = v → (v.seq m w).run = .running → num ≠ 0x281 ∨ (v.core m).freeze = none →
      exec (.remoteRequestArrive n q) s = .next { (t.recall n q r).takeFault 0x02 1 with cur := s.cur })) ∧
  (∀ n q s r, (s.seq n q).remote = some r → (s.core n).freeze.isSome = true → exec (.remoteRequestArrive n q) s = .next s)

/-- R82, R86, R98, R103, R208, R280, R281, R315, R316, Table 17.3: the writes of privileged registers: SEQCTL resumes a halted or stopped sequencer at SEQPC and thaws a frozen core, or kills a sequencer, whose context's boost lease is returned; a write of FQBASE or FQCFG restarts the fault queue, and that of FQBASE latches the writer's PTROOT; FQHEAD is taken modulo the queue's size, and entries that waited for room are written, the oldest of a core first; RNGCFG and BUFCFG reset their ring, to SLOT or SIZE and COUNT as written, a COUNT of 0 or above 256 saturating (R405); any other register takes its writable fields, whoever holds it: a sequencer, a core or its context (BUFBASE that of the ring which BUFSEL selects, a stream register its 32 bits, DEBUG of a confidential context staying 0, R381), a bay (RNGBASE that of the ring which RNGSEL selects) or a stack; those held per quadrant and per package are all read-only, and a write of a read-only or an unassigned register changes nothing. That a resume thaws a frozen core and starts a halted or stopped sequencer of it (log 44), and that a kill returns the lease (log 79), are the model's readings. -/
def Obligations.RegisterWriteEvents : Prop :=
  (∀ n q s xo, ∃ t, exec (if xo then .seqctlResumeXo n q else .seqctlResume n q) s = .next t ∧ (t.core n).freeze = none ∧
    (t.seq n q).regs = (s.seq n q).regs ∧ t.mem = s.mem ∧
    ((s.seq n q).run ≠ .running → (t.seq n q).run = .running ∧ (t.seq n q).pc = (s.seq n q).sysreg 0x280 ∧ (t.seq n q).xo = xo ∧
      (t.seq n q).wait = none ∧ (t.seq n q).halting = none ∧ (t.seq n q).hist = [] ∧ (t.seq n q).last = some (s.core n).cycle) ∧
    ((s.seq n q).run = .running → t.seq n q = s.seq n q)) ∧
  (∀ n q s, ∃ t, exec (.seqctlKill n q) s = .next t ∧ (t.seq n q).run = .halted ∧ (t.seq n q).wait = none ∧ (t.seq n q).mark = none ∧
    (t.seq n q).remote = none ∧ (t.seq n q).regs = (s.seq n q).regs ∧ (t.seq n q).pc = (s.seq n q).pc ∧
    (q = .cp → (t.core n).reelAbort = none) ∧ (t.core n).lease = none ∧
    ((s.core n).lease.isSome = true → (t.core n).sysreg 0x306 = (s.core n).sysreg 0x306 &&& 0x17) ∧ t.mem = s.mem) ∧
  (∀ n v s k, k = stackOf n → ∃ t, exec (.fqheadWrite n v) s = .next t ∧
    (t.stack k).sysreg 0x2B2 = BitVec.ofNat 64 (v.toNat % 4096 % 2 ^ ((s.stack k).sysreg 0x2B1).toNat) ∧
    ((∀ p ∈ s.cores, p.2.fqWait = []) → t.cores = s.cores ∧ t.mem = s.mem ∧ (t.stack k).sysreg 0x2B3 = (s.stack k).sysreg 0x2B3)) ∧
  (∀ n num v s k, num = 0x2B0 ∨ num = 0x2B1 → k = stackOf n → ∃ t, exec (.fqResetWrite n num v) s = .next t ∧ (t.stack k).sysreg 0x2B2 = 0 ∧
    (t.stack k).fqRoot = (if num = 0x2B0 then (s.core n).sysreg 0x2A0 else (s.stack k).fqRoot) ∧
    (t.stack k).fqKey = (if num = 0x2B0 then (s.core n).ctxKey else (s.stack k).fqKey) ∧
    (num = 0x2B0 → ((t.stack k).sysreg 0x2B0).toNat / 64 = v.toNat / 64) ∧
    (num = 0x2B1 → ((t.stack k).sysreg 0x2B1).toNat % 16 = min 12 (max 6 v.toNat)) ∧
    ((∀ p ∈ s.cores, p.2.fqWait = []) → t.cores = s.cores ∧ t.mem = s.mem ∧ (t.stack k).sysreg 0x2B3 = 0)) ∧
  (∀ (s : State) n e rest k, k = s.stack (stackOf n) →
    (k.fqUsed + 1 = k.fqSize → s.flushCore n (e :: rest) = s) ∧
    (∀ pa, k.fqUsed + 1 ≠ k.fqSize → s.fqSlot (stackOf n) = some pa → s.drainHit pa = false →
      s.flushCore n (e :: rest) = ((s.fqWrite (stackOf n) pa e).modCore n (fun c => { c with fqWait := rest })).flushCore n rest)) ∧
  (∀ n q v s b e, isDcc n = false → (s.seq n q).rngsel = e → s.bay (bayOf n) = b → ∃ t, exec (.rngcfgWrite n q v) s = .next t ∧
    (t.bay (bayOf n)).ring e =
      { base := (b.ring e).base, slot := v.toNat % 2 ^ 24 / 64 * 64, count := min 256 (max 1 (v.toNat / 2 ^ 32)), head := 0, take := 0, tail := 0, used := 0, clm := 0, fill := [], claimed := [] } ∧
    (∀ k, k ≠ e → (t.bay (bayOf n)).ring k = b.ring k) ∧ t = { s with bays := t.bays }) ∧
  (∀ n q v s e, (s.seq n q).bufsel = e → ∃ t, exec (.bufcfgWrite n q v) s = .next t ∧
    (t.core n).buf e =
      { base := ((s.core n).buf e).base, size := v.toNat % 2 ^ 24 / 64 * 64, count := min 256 (max 1 (v.toNat / 2 ^ 32)), head := 0, held := 0 } ∧
    (∀ k, k ≠ e → (t.core n).buf k = (s.core n).buf k) ∧ t = { s with cores := t.cores } ∧ ∀ m, m ≠ n → t.core m = s.core m) ∧
  (∀ n q num v s r, ownEvent num = false → regInfo num = some r → regReadOnly r = false → r.home = .seq →
    exec (.sysregWrite n q num v) s = .next (s.modSeq n q (fun k => k.setSys num (mergeWrite r (s.readSeqReg n q num) v)))) ∧
  (∀ n q num v s r, ownEvent num = false → regInfo num = some r → regReadOnly r = false → r.home = .core →
    (num = 0x209 → exec (.sysregWrite n q num v) s =
      .next (s.modCore n (fun c => c.setBuf (s.seq n q).bufsel { c.buf (s.seq n q).bufsel with base := v }))) ∧
    (0x100 ≤ num → num < 0x200 → exec (.sysregWrite n q num v) s =
      .next (s.modCore n (fun c => { c with streams := Tab.put0 0 c.streams (num - 0x100) (v.setWidth 32) }))) ∧
    (num = 0x298 → (s.core n).confidential = true →
      ∃ t, exec (.sysregWrite n q num v) s = .next t ∧ t = { s with cores := t.cores } ∧ ∀ m, t.core m = s.core m) ∧
    (num ≠ 0x209 → num < 0x100 ∨ 0x200 ≤ num → num ≠ 0x298 ∨ (s.core n).confidential = false → exec (.sysregWrite n q num v) s =
      .next (s.modCore n (fun c => c.setSys num (mergeWrite r (c.sysreg num) v))))) ∧
  (∀ n q v s b e, (s.seq n q).rngsel = e → s.bay (bayOf n) = b →
    (isDcc n = false → exec (.sysregWrite n q 0x202 v) s =
      .next (s.setBay (bayOf n) (b.setRing e { b.ring e with base := BitVec.ofNat 64 (v.toNat % 2 ^ 55) }))) ∧
    (isDcc n = true → exec (.sysregWrite n q 0x202 v) s = .next s)) ∧
  (∀ n q num v s r k, ownEvent num = false → regInfo num = some r → regReadOnly r = false → r.home = .stack → k = s.stack (stackOf n) →
    exec (.sysregWrite n q num v) s = .next (s.setStack (stackOf n) (k.setSys num (mergeWrite r (k.sysreg num) v)))) ∧
  (∀ num r, regInfo num = some r → ownEvent num = false → regReadOnly r = false → r.home = .seq ∨ r.home = .core ∨ num = 0x202 ∨ r.home = .stack) ∧
  (∀ n q num v s, ownEvent num = false → (regInfo num = none ∨ ∃ r, regInfo num = some r ∧ regReadOnly r = true) →
    exec (.sysregWrite n q num v) s = .next s)

/-! ## Launch and power -/

/-- R333, R335 to R350: KRUN and STRM put a well-formed descriptor's entry on the scoreboard of its logical stack and return its handle, or all ones where 256 entries stand there, and raise cause 0x29 naming the word of a bad one; SIG updates or awaits a signal (kind 9) after the older writes of its queue; KABORT fails an entry that has not finished, and stalls while its completion signal lies in a range that a PHASE drain moves (R233); STKMAP moves the logical stacks whose entries have not issued; ENTRY_ISSUE, its reads of signals correcting what they may (R378), starts a kernel whose signals are met and that nothing outranks, judged only then, at most one in a cycle of the control clock, one whose start fails among them, fails one whose signal failed, and starts a stream transfer; ENTRY_PROMOTION, KERNEL_FINISH and MBOX_WRITE do what the rules say, the last for a function of the port that sees the mailbox; the keys of an entry's discarded contexts are destroyed, in save areas too (R380). The entries of one launch over several packages share one placing of their data, at the same bases, and one that fails or is aborted before it starts leaves the launch, so that a later launch shares another (R347, R348, R401; that the k-th entry of each package is of launch k, and which launch an entry was of whose map or image could not be read: DESIGN CHOICE, log 63). The model's choices here are when each event happens (log 1), that an unreadable wait signal is not met (log 50), which word of a descriptor is named (log 52), that a signal in host memory is updated by a posted write in the stream controller's own queue (log 56), that a promoted entry holds back kernels only (log 57), that an entry that STKMAP moves keeps the age it had (DEDUCED, log 84), where the data segments stand in their owners' memory (logs 47 and 63), and that functions are as log 62 has them. -/
def Obligations.LaunchResults : Prop :=
  (∀ r ∈ ([(.krun, 0xD00, 8, true), (.strm, 0xD10, 4, false)] : List ((Fields → Instr) × Nat × Nat × Bool)),
    ∀ f s v va t u e stack, s.ready r.2.1 f = true → s.view r.2.1 f = v → v.sreg f.a = va → va.toNat % (8 * r.2.2.1) = 0 →
      v.clear Want.load 8 (units va 8 r.2.2.1) = true →
      t = v.passed Want.load 8 (units va 8 r.2.2.1) → u = t.drainQueue t.node t.me →
      e = u.newEntry r.2.2.2 ((units va 4 (2 * r.2.2.1)).map (fun a => BitVec.ofNat 32 (u.load u.node a 4))) →
      stack = u.stackFor (pkgOf u.node) e.lstk →
      (∀ off, (if r.2.2.2 then u.kernelFault e else u.streamEntryFault e) = some off →
        exec (r.1 f) s = .next (s.takeFault 0x29 (BitVec.ofNat 64 ((if r.2.2.2 then 0x3000 else 0x3100) + off)))) ∧
      ((if r.2.2.2 then u.kernelFault e else u.streamEntryFault e) = none → 256 ≤ (u.stack stack).board.length → Does (r.1 f) r.2.1 f s { st := u.setReg (regNum f.d) 0xFFFFFFFFFFFFFFFF }) ∧
      (∀ x : Entry, (if r.2.2.2 then u.kernelFault e else u.streamEntryFault e) = none → (u.stack stack).board.length < 256 →
        x = { e with num := Tab.get (u.pkg (pkgOf u.node)).seqNums e.lstk 0, entered := (u.stack stack).clock } →
        ∃ w : State, Does (r.1 f) r.2.1 f s { st := w.setReg (regNum f.d) (BitVec.ofNat 64 (x.num % 2 ^ 48 + 2 ^ 48 * x.lstk)) } ∧
          (w.stack stack).board = (u.stack stack).board ++ [x] ∧ Tab.get (w.pkg (pkgOf u.node)).seqNums e.lstk 0 = x.num + 1 ∧
          w.cores = u.cores ∧ w.mem = u.mem)) ∧
  (∀ f s v va t u, v.sreg f.a = va → v.clear Want.load 8 [va] = true → t = v.passed Want.load 8 [va] → u = t.drainQueue t.node t.me →
    (s.ready 0xD20 f = true → s.view 0xD20 f = v →
      Does (.sigAdd f) 0xD20 f s { st := u.engineWrite u.node va 8 (BitVec.ofNat 64 (u.load u.node va 8) + v.sreg f.d) }) ∧
    (s.ready 0xD21 f = true → s.view 0xD21 f = v → Does (.sigSet f) 0xD21 f s { st := u.engineWrite u.node va 8 (v.sreg f.d) }) ∧
    (s.ready 0xD22 f = true → s.view 0xD22 f = v → (BitVec.ofNat 64 (u.load u.node va 8)).toInt ≤ 0 →
      Does (.sigWait f) 0xD22 f s { st := u.setReg (regNum f.d) (BitVec.ofNat 64 (u.load u.node va 8)) }) ∧
    (s.ready 0xD22 f = true → s.view 0xD22 f = v → 0 < (BitVec.ofNat 64 (u.load u.node va 8)).toInt →
      exec (.sigWait f) s = .next (u.waitFor 0x09 (BitVec.ofNat 64 (va.toNat % 2 ^ 55))))) ∧
  (∀ f s v h, s.ready 0xD30 f = true → s.view 0xD30 f = v → h = (v.sreg f.a).toNat → h < 2 ^ 50 →
    (v.boardOf (pkgOf v.node) h = none → Does (.kabort f) 0xD30 f s { st := v }) ∧
    (∀ stack e, v.boardOf (pkgOf v.node) h = some (stack, e) → v.finished stack e = true → Does (.kabort f) 0xD30 f s { st := v }) ∧
    (∀ stack e, v.boardOf (pkgOf v.node) h = some (stack, e) → v.finished stack e = false → v.doneDrains e = true →
      exec (.kabort f) s = .next v.endWait) ∧
    (∀ stack e t, v.boardOf (pkgOf v.node) h = some (stack, e) → v.finished stack e = false → v.doneDrains e = false →
      ((v.coresOf stack h).foldl State.abortCore (v.flushPosted stack)).discardEntry stack h = t →
      Does (.kabort f) 0xD30 f s { st := { (({ t with hold := false } : State).missLaunch stack e).failEntry stack e with hold := v.hold } })) ∧
  (∀ f s v, s.ready 0xD30 f = true → s.view 0xD30 f = v → 2 ^ 50 ≤ (v.sreg f.a).toNat → exec (.kabort f) s = .next (s.takeFault 0x02 1)) ∧
  (∀ f s v map pkg, s.ready 0xD40 f = true → s.view 0xD40 f = v → map = (v.sreg f.a).toNat → pkg = pkgOf v.node → map < 256 →
    (∀ l, l < 4 → v.gatedDom (4 * pkg + map / 4 ^ l % 4) 4 = false) →
    (∀ j, j < 4 → (v.stack (4 * pkg + j)).board.any (fun e =>
      e.issued && !v.finished (4 * pkg + j) e && (v.moving pkg map).contains e.lstk) = false) →
    (∀ k, k < 4 → (v.remapped pkg map k).length ≤ 256) →
    ∃ t, Does (.stkmap f) 0xD40 f s { st := t } ∧ (t.pkg pkg).sysreg 0x402 = BitVec.ofNat 64 map ∧
      ∀ k, k < 4 → (t.stack (4 * pkg + k)).board = v.remapped pkg map k) ∧
  (∀ stack h s u e, s.flushPosted stack = u → (u.stack stack).entry h = some e → (u.pkg (stack / 4)).runs = true → e.sent = none →
    e.issued = false →
    (e.kernel = true →
      ∀ w : State, w = u.noteController e 8 e.waits →
      (w.waitsFailed e = true → exec (.entryIssue stack h) s = .next ((w.missLaunch stack e).failEntry stack e)) ∧
      (∀ all rs, w.waitsFailed e = false → w.waitsMet e = true → (w.stack stack).clear e = true →
        (w.stack stack).launched ≠ some (w.stack stack).clock → w.outranked stack e = false → w.placementFor stack e = .ok (some all) →
        w.readImage e = .ok rs → exec (.entryIssue stack h) s = .next (((w.noteMap e).noteObject e).startKernel stack e rs all)) ∧
      (∀ c va, w.waitsFailed e = false → w.waitsMet e = true → (w.stack stack).clear e = true →
        (w.stack stack).launched ≠ some (w.stack stack).clock → w.outranked stack e = false → w.placementFor stack e = .fault c va →
        exec (.entryIssue stack h) s = .next ((w.failStart stack e c va).noteLaunch stack)) ∧
      (w.waitsFailed e = false → (w.stack stack).launched = some (w.stack stack).clock ∨ w.outranked stack e = true →
        exec (.entryIssue stack h) s = .next w) ∧
      (w.waitsFailed e = false → w.waitsMet e = false → exec (.entryIssue stack h) s = .next w)) ∧
    (e.kernel = false → (u.stack stack).clear e = true → exec (.entryIssue stack h) s = .next (u.startStream stack e))) ∧
  (∀ (s : State) stack, ((s.noteLaunch stack).stack stack).launched = some ((s.noteLaunch stack).stack stack).clock ∧
    (s.noteLaunch stack).mem = s.mem ∧ (s.noteLaunch stack).cores = s.cores) ∧
  (∀ (s : State) stack h x c, x ∈ (s.discardEntry stack h).saved → x.core.ctx = some c → c.entry = some (stack, h) → s.nextTag < c.key) ∧
  (∀ (s : State) stack e rs all, ((s.startKernel stack e rs all).stack stack).launched = some ((s.startKernel stack e rs all).stack stack).clock) ∧
  (∀ stack h s e, (s.stack stack).entry h = some e → (s.pkg (stack / 4)).runs = true →
    (e.isPromoted (s.stack stack).clock = true →
      exec (.entryPromotion stack h) s = .next (s.setStack stack ((s.stack stack).setEntry { e with promoted := true }))) ∧
    (e.sent = none → s.doneDrains e = true → exec (.kernelFinish stack h) s = .next s) ∧
    (∀ t, s.flushPosted stack = t → e.sent = none → e.issued = true → s.doneDrains e = false →
      (e.kernel = true → (s.coresOf stack h).length = e.bits 0x08 10 0 → (s.coresOf stack h).all s.coreFinished = true →
        exec (.kernelFinish stack h) s = .next ((((t.coresOf stack h).foldl State.discard t).discardEntry stack h).endEntry stack e)) ∧
      (e.kernel = false → e.streaming = false → exec (.kernelFinish stack h) s = .next (t.endEntry stack e))) ∧
    (∀ tag, e.sent = some tag → s.delivered stack tag = true →
      exec (.kernelFinish stack h) s = .next (s.setStack stack ((s.stack stack).dropEntry h)))) ∧
  (∀ (s : State) stack e rs all image k t, imageNums rs = image → (∀ m ∈ s.missed, m.fits all = false) → s.launchCount (stack / 4) image all = k →
    s.openPlaced stack e rs all = t →
    (∃ p, t.placed.head? = some p ∧ p.launch = k ∧ p.image = image ∧ p.cores = all ∧ p.due.contains (stack / 4) = false ∧ (stack, e.handle) ∈ p.users ∧
      (∀ q, s.placed = [q] → s.placedLive q = true → q.image = image → q.cores = all → q.launch = k → q.due.contains (stack / 4) = true →
        p.bases = q.bases ∧ p.pages = q.pages) ∧
      (s.placed = [] → ∀ q ∈ p.due, s.launchCount q image all ≤ k)) ∧
    (1 < (pkgsOf all).length → t.launchCount (stack / 4) image all = k + 1) ∧
    ∀ q, q ≠ stack / 4 → t.launchCount q image all = s.launchCount q image all) ∧
  (∀ (s : State) stack e rs all image k m t, imageNums rs = image → 1 < (pkgsOf all).length → s.missed = [m] → m.fits all = true →
    s.launchCount m.pkg image all = k → s.openPlaced stack e rs all = t →
    (m.pkg = stack / 4 → t.missed = [] ∧ ∃ p, t.placed.head? = some p ∧ p.launch = k + 1) ∧
    (m.pkg ≠ stack / 4 → m.pkg ∈ pkgsOf all → s.placed = [] → s.launchCount (stack / 4) image all = k →
      t.missed = [] ∧ ∃ p, t.placed.head? = some p ∧ p.launch = k ∧ m.pkg ∉ p.due ∧ t.launchCount m.pkg image all = k + 1)) ∧
  (∀ (s : State) stack e size, e.spans = true → e.issued = false → s.doneDrains e = false →
    s.launchCores e = none ∨ (∀ rs, s.readImage e ≠ .ok rs) → (∀ p ∈ s.placed, p.due.contains (stack / 4) = false) →
    size = (e.bits 0x08 51 40 + 1) * e.bits 0x08 10 0 →
    s.missLaunch stack e = { s with missed := s.missed ++ [{ pkg := stack / 4, size := size, cores := s.launchCores e }] }) ∧
  (∀ (m : Miss) cores, m.fits cores = true ↔ m.size = cores.length ∧ ∀ l, m.cores = some l → l = cores) ∧
  (∀ (s : State) stack e rs all image t, e.spans = true → e.issued = false → s.doneDrains e = false → s.launchCores e = some all → s.readImage e = .ok rs →
    imageNums rs = image → 1 < (pkgsOf all).length → s.missLaunch stack e = t →
    t.launchCount (stack / 4) image all = s.launchCount (stack / 4) image all + 1 ∧ t.cores = s.cores ∧ t.mem = s.mem ∧ t.dies = s.dies ∧
    ∀ p ∈ t.placed, p.launch = s.launchCount (stack / 4) image all → p.image = image → p.cores = all → p.due.contains (stack / 4) = false) ∧
  (∀ (s : State) stack e, e.kernel = false ∨ e.spans = false ∨ e.issued = true ∨ s.doneDrains e = true → s.missLaunch stack e = s) ∧
  (∀ (s : State) stack e v t, e.doneAt ≠ 0 → s.signal e e.doneAt = some v → t = s.noteController e 8 [e.doneAt] →
    s.succeed stack e = (if 0 < v.toInt then t.putSignal stack e (v - 1) else t) ∧ s.failSignal stack e = s.putSignal stack e 0xFFFFFFFFFFFFFFFF) ∧
  (∀ n fn v s, isDcc n = true → (s.pkg (pkgOf n)).runs = true → s.functionSees (pkgOf n) fn ((n - dccBase) % 8) = true →
    ∃ t, exec (.mboxWrite ⟨n, fn⟩ v) s = .next t ∧
    (t.core n).sysreg 0x400 = ((v &&& 0xFFFFFFFFFFFFFFFE) ||| 1) ∧ (t.core n).seqs.ld.latch = true ∧
    ((s.core n).seqs.ld.run = .halted → (t.core n).seqs.ld.run = .running ∧ (t.core n).seqs.ld.pc = (v &&& 0xFFFFFFFFFFFFFFFE)) ∧
    ((s.core n).seqs.ld.run ≠ .halted → (t.core n).seqs.ld.run = (s.core n).seqs.ld.run ∧ (t.core n).seqs.ld.pc = (s.core n).seqs.ld.pc)) ∧
  (∀ n fn v s, s.functionSees (pkgOf n) fn ((n - dccBase) % 8) = false → exec (.mboxWrite ⟨n, fn⟩ v) s = .next s)

/-- R351 to R353, R356 to R361: PERMIT takes an explicit permit in place of an older one once its weight, from 1 to 255, fits the budget behind every earlier request, PHOLD showing it; PREL gives it back; LEASE grants a boost lease at points not above BOOSTMAX, its fields legal; OPSET sets a quadrant's points, floor, budget and lease length, clamped to a partition's ranges, or a layer group's economy; GATE gates what is not busy, losing its state, or asks for a wake. PERMIT retires as it is granted. Requests are granted in order, each when its weight fits, one of this cycle only once its core and those before it have arbitrated (R352); a lease that ends on the control clock gives its permit back, or returns its boost, by itself (R353, R357); a break-even hold and the in-rush arbiter order the wakes, each of which follows the one before it, or its request, by 24 µs; what is over by a moment of the control clock has ended by then; a woken quadrant comes up with every core empty; a throttled clock and a refresh rate have no other architectural effect (log 16). PHOLD while PERMIT waits (log 19), what a gated domain has lost reading as after a cold boot (log 53), and the moment of each event of the power controller (log 1) are the model's choices. -/
def Obligations.PowerResults : Prop :=
  (∀ f s v w t, s.ready 0xE00 f = true → s.view 0xE00 f = v → w = (v.sreg f.a).toNat → v.dropExplicit v.node v.me = t →
    (w = 0 ∨ 256 ≤ w → exec (.permit f) s = .next (s.takeFault 0x02 1)) ∧
    (0 < w → w < 256 → t.permitFree w = true → Does (.permit f) 0xE00 f s
      { st := (t.permitted .explicit w).modSeq v.node v.me (fun q => q.setSys 0x305 (BitVec.ofNat 64 (w + 256))), atOnce := true })) ∧
  (∀ f s v, s.ready 0xE01 f = true → s.view 0xE01 f = v → Does (.prel f) 0xE01 f s { st := v.dropExplicit v.node v.me }) ∧
  (∀ f s v a, s.ready 0xE10 f = true → s.view 0xE10 f = v → a = (v.sreg f.a).toNat → a / 8 % 8192 = 0 → a / 65536 < 65536 → 0 < a / 65536 →
    a % 8 ≤ 4 →
    (a % 8 < (v.quad (quadOf v.node)).boostMax → Does (.lease f) 0xE10 f s { st := v.setReg (regNum f.d) 0 }) ∧
    ((v.quad (quadOf v.node)).boostMax ≤ a % 8 → Does (.lease f) 0xE10 f s
      { st := (v.modMyCore (fun c => c.grantLease (a % 8) ((v.stack (stackOf v.node)).clock + 1000 * (a / 65536)))).setReg (regNum f.d)
          (BitVec.ofNat 64 (a / 65536)) })) ∧
  (∀ f s v d a, s.ready 0xE30 f = true → s.view 0xE30 f = v → d = (v.sreg f.d).toNat → a = (v.sreg f.a).toNat → d < 512 → v.foreign d = false →
    (targetKind d = 2 → targetGroup d ≤ 4 → a < 2 → ∃ t, Does (.opset f) 0xE30 f s { st := t } ∧
      ((t.stack (targetStack v d)).sysreg 0x304) = (if a = 1 then (v.stack (targetStack v d)).sysreg 0x304 ||| BitVec.ofNat 64 (2 ^ targetGroup d)
        else (v.stack (targetStack v d)).sysreg 0x304 &&& ~~~(BitVec.ofNat 64 (2 ^ targetGroup d)))) ∧
    (∀ asked p, targetKind d = 0 → targetGroup d = 0 → opsetBad a = false →
      asked = ({ op := a % 8, boost := a / 16 % 8, rc := a / 256 % 8, budget := a / 65536 % 65536 } : Points) → p = asked.clamp (v.partOf v.node) →
      Does (.opset f) 0xE30 f s
        { st := v.setQuad (targetQuad v d) ((v.quad (targetQuad v d)).opset p (a / 2 ^ 32 % 65536) (p != asked)) })) ∧
  (∀ f s v d k dom, s.ready 0xE40 f = true → s.view 0xE40 f = v → d = (v.sreg f.d).toNat → d < 64 → targetKind d ≤ 1 → v.foreign d = false →
    v.stack (targetStack v d) = k → dom = (if targetKind d = 1 then 4 else d % 4) →
    ((v.sreg f.a).toNat = 0 → Does (.gate f) 0xE40 f s { st := v.setStack (targetStack v d) (k.wake dom) }) ∧
    ((v.sreg f.a).toNat = 1 → k.gated.contains dom = true → Does (.gate f) 0xE40 f s { st := v }) ∧
    (∀ t, (v.sreg f.a).toNat = 1 → k.gated.contains dom = false → targetKind d = 0 → v.quadBusy (targetQuad v d) = false →
      v.loseQuad (targetQuad v d) = t → Does (.gate f) 0xE40 f s { st := t.setStack (targetStack v d) ((t.stack (targetStack v d)).gate dom) }) ∧
    (∀ t, (v.sreg f.a).toNat = 1 → k.gated.contains dom = false → targetKind d = 1 → v.stackBusy (targetStack v d) = false →
      v.loseVaults (targetStack v d) = t → Does (.gate f) 0xE40 f s { st := t.setStack (targetStack v d) ((t.stack (targetStack v d)).gate dom) })) ∧
  (∀ k s a rest, (s.quad k).asks = a :: rest →
    ((s.quad k).used + a.weight ≤ (s.quad k).budget → (s.quad k).late < (s.quad k).asks.length ∨ a.node < (s.quad k).turn → ∃ t, exec (.permitGrant k) s = .next t ∧ (t.quad k).asks = rest ∧
      ∃ p, (t.quad k).grants = (s.quad k).grants ++ [p] ∧ p.node = a.node ∧ p.weight = a.weight) ∧
    ((s.quad k).asks.length ≤ (s.quad k).late → (s.quad k).turn ≤ a.node → exec (.permitGrant k) s = .next s) ∧
    ((s.quad k).budget < (s.quad k).used + a.weight → exec (.permitGrant k) s = .next s)) ∧
  (∀ k s, exec (.permitLeaseExpiry k) s =
    .next (((s.quad k).grants.filter (fun p => p.over (s.stack (k / 4)).clock)).foldl (State.expire k) s)) ∧
  (∀ k s p n, (s.quad k).grants = [p] → p.over (s.stack (k / 4)).clock = true → p.node = n → k = quadOf n → ∃ t,
    exec (.permitLeaseExpiry k) s = .next t ∧
    (p.holder = .explicit → (t.quad k).grants = [] ∧ (t.seq n p.seq).sysreg 0x305 = 0x200) ∧
    (p.holder = .nest → (t.core n).nest = (s.core n).nest.map (fun x => { x with pausing := true }) ∧
      (t.quad k).grants = [{ p with ends := none }]) ∧
    (p.holder = .copy → p.seq = .ld → (t.core n).ldq = (s.core n).ldq.map (fun x => if x.tag = p.tag then { x with pausing := true } else x))) ∧
  (∀ n s e, (s.core n).lease = some e → e ≤ (s.stack (stackOf n)).clock → ∃ t, exec (.boostLeaseExpiry n) s = .next t ∧
    (t.core n).lease = none ∧ (t.core n).sysreg 0x306 = (s.core n).sysreg 0x306 &&& 0x17) ∧
  (∀ stack dom s h, (s.stack stack).holds.find? (fun h => h.dom == dom && decide (h.ends ≤ (s.stack stack).clock)) = some h →
    ∃ t, exec (.breakEvenHoldEnd stack dom) s = .next t ∧ (t.stack stack).holds = (s.stack stack).holds.filter (fun x => x.dom != dom) ∧
      (t.stack stack).wakes = (if h.ask then (s.stack stack).wakes ++ [dom] else (s.stack stack).wakes)) ∧
  (∀ stack s dom rest, (s.stack stack).wakes = dom :: rest → (s.stack stack).wakeAt ≤ (s.stack stack).clock →
    ∃ t, exec (.domainWake stack) s = .next t ∧ (t.stack stack).wakes = rest ∧ (t.stack stack).wakeAt = (s.stack stack).wakeAt + 24000 ∧
      (t.stack stack).gated = (if dom = 4 then [0, 1, 2, 3] else (s.stack stack).gated.filter (fun d => d != dom)) ∧
      (dom < 4 → ∀ n, isDcc n = false → quadOf n = 4 * stack + dom → t.core n = Core.reset)) ∧
  (∀ k dt s, ∃ t : State, exec (.clockThrottle k dt) s = .next (t.powerDue (k / 4)) ∧ (t.stack (k / 4)).clock = (s.stack (k / 4)).clock + dt ∧ t.cores = s.cores ∧
    t.mem = s.mem) ∧
  (∀ k (s t : State), s.powerDue k = t → (t.stack k).clock = (s.stack k).clock ∧ (∀ h ∈ (t.stack k).holds, (s.stack k).clock < h.ends) ∧
    ((t.stack k).wakes = [] ∨ (s.stack k).clock < (t.stack k).wakeAt)) ∧
  (∀ k (s t : State) n e, Tab.sorted s.cores = true → s.powerDue k = t → isDcc n = false → stackOf n = k → (t.core n).lease = some e → (s.stack k).clock < e) ∧
  (∀ k (s t : State) p n, s.leasesDue k = t → (∀ j, j < 4 → 4 * k + j ≠ quadOf n → (s.quad (4 * k + j)).grants = []) → (s.quad (quadOf n)).grants = [p] →
    p.over (s.stack k).clock = true → p.node = n → stackOf n = k → isDcc n = false →
    (p.holder = .explicit → (t.quad (quadOf n)).grants = [] ∧ (t.seq n p.seq).sysreg 0x305 = 0x200) ∧
    (p.holder = .nest → (t.core n).nest = (s.core n).nest.map (fun x => { x with pausing := true }))) ∧
  (∀ k (s : State), (∀ j, j < 4 → ∀ p ∈ (s.quad (4 * k + j)).grants, p.over (s.stack k).clock = false) →
    (∀ c ∈ s.cores, c.2.leaseOver (s.stack k).clock = false) → (∀ h ∈ (s.stack k).holds, (s.stack k).clock < h.ends) → (s.stack k).wakes = [] ∨ (s.stack k).clock < (s.stack k).wakeAt → s.powerDue k = s) ∧
  (∀ (k : Stack) h, h.ask = true → (k.endHold h).wakes = k.wakes ++ [h.dom] ∧ (k.wakes = [] → (k.endHold h).wakeAt = h.ends + 24000) ∧
    (k.wakes ≠ [] → (k.endHold h).wakeAt = k.wakeAt)) ∧
  (∀ k s, exec (.vaultRefreshRate k) s = .next s)

/-- R10, R233, R294, R295, R307, R308, R333, R375 to R382: a host write of a byte reaches plain memory from the physical function once the cold boot is complete, and a code store from a function that sees it, but no byte of a vault word that answers an uncorrectable error (R378), and nothing in the range of a PHASE drain (that it is dropped there, and not made later: DEDUCED, log 83); an IDE failure sets the TDI of its virtual function to ERROR, and the physical function sets the partition of one whose TDI is free; a replay is counted, and the eighth failure in a row takes its link down; a domain holds the packages named, below 4,096; a cold boot goes through the stages of Table 19.1, ends with STAGE 4 or 15, and leaves every vault, scratchpad and code store of its package zero and its GDDR-7 as it was, every core as after reset; one after a fatal error begins at stage 0, whatever stage that met; scrubbing changes no data and leaves no single symbol in error; a report has its size and its requester's nonce; after a fatal error nothing of the package issues. That a replay's and a stage's outcome are free values (logs 78 and 54), what the functions of the host port can do (logs 38 and 62), and what a report and a dump hold where no layout is given (logs 17 and 55) are the model's choices. -/
def Obligations.PackageEvents : Prop :=
  (∀ pkg fn addr s, exec (.hostTlp pkg fn addr (.write [])) s = .next s) ∧
  (∀ pkg fn addr b s pa, pa = pkg % 4096 * 2 ^ 48 + addr % 2 ^ 48 →
    (s.drainHit pa = true → exec (.hostTlp pkg fn addr (.write [b])) s = .next s) ∧
    (s.drainHit pa = false → s.place pa = .bytes →
      (fn = 0 → ((s.pkg pkg).sysreg 0x2C0).toNat % 16 = 4 →
        (s.hostSpoilt pa 1 pa = false → exec (.hostTlp pkg fn addr (.write [b])) s = .next (s.physWrite none pa 1 (b.setWidth 64))) ∧
        (s.hostSpoilt pa 1 pa = true → exec (.hostTlp pkg fn addr (.write [b])) s = .next s)) ∧
      (fn ≠ 0 ∨ ((s.pkg pkg).sysreg 0x2C0).toNat % 16 ≠ 4 → exec (.hostTlp pkg fn addr (.write [b])) s = .next s)) ∧
    (∀ q off d o, s.drainHit pa = false → s.place pa = .device q off → dccRange off = some (d, o) → 0x20000 ≤ o →
      (((s.pkg pkg).sysreg 0x2C0).toNat % 16 = 4 → s.functionSees pkg fn d = true →
        exec (.hostTlp pkg fn addr (.write [b])) s = .next (s.deviceWrite q off 1 (b.setWidth 64))) ∧
      (((s.pkg pkg).sysreg 0x2C0).toNat % 16 ≠ 4 ∨ s.functionSees pkg fn d = false →
        exec (.hostTlp pkg fn addr (.write [b])) s = .next s))) ∧
  (∀ (s : State) pkg d, s.functionSees pkg 0 d = true ∧
    ∀ fn, fn ≠ 0 → (s.functionSees pkg fn d = true ↔ ∃ p, s.vf pkg fn = some p ∧ d ∈ p.config.dccs)) ∧
  (∀ pkg fn addr s p, s.vf pkg fn = some p → 1 ≤ fn → fn ≤ 64 →
    (∃ t, exec (.hostTlp pkg fn addr .ideFail) s = .next t ∧ t.vf pkg fn = some { p with tdi := 3 } ∧ t.cores = s.cores ∧ t.mem = s.mem) ∧
    (∀ k, ∃ t, exec (.hostTlp pkg fn addr (.tdi k)) s = .next t ∧ t.vf pkg fn = some { p with tdi := k % 4 } ∧ t.cores = s.cores ∧ t.mem = s.mem) ∧
    (∀ config, p.tdi ≠ 0 → exec (.hostTlp pkg 0 addr (.configure fn config)) s = .next s)) ∧
  (∀ pkg vf addr config s, 1 ≤ vf → vf ≤ 64 → (∀ p, s.vf pkg vf = some p → p.tdi = 0) → ∃ t,
    exec (.hostTlp pkg 0 addr (.configure vf config)) s = .next t ∧ t.vf pkg vf = some { tdi := 0, config := config } ∧ t.cores = s.cores ∧ t.mem = s.mem) ∧
  (∀ pkg fn vf addr config s, fn ≠ 0 → exec (.hostTlp pkg fn addr (.configure vf config)) s = .next s) ∧
  (∀ pkg link s, 24 ≤ link ∨ ((s.pkg pkg).sysreg 0x243).getLsbD link = false → exec (.linkReplay pkg link) s = .next s) ∧
  (∀ pkg link s fails lost, link < 24 → ((s.pkg pkg).sysreg 0x243).getLsbD link = true → fails = Tab.get (s.pkg pkg).replays link 0 →
    lost = (Config.freeWord s.fresh).getLsbD 0 → ∃ t, exec (.linkReplay pkg link) s = .next t ∧
    (t.pkg pkg).sysreg 0x242 = (s.pkg pkg).sysreg 0x242 + 1 ∧
    Tab.get (t.pkg pkg).replays link 0 = (if lost then (fails + 1) % 8 else 0) ∧
    (t.pkg pkg).sysreg 0x243 = (if lost ∧ fails = 7 then (s.pkg pkg).sysreg 0x243 &&& ~~~(BitVec.ofNat 64 (2 ^ link)) else (s.pkg pkg).sysreg 0x243)) ∧
  (∀ pkgs s, ∃ t, exec (.fabricDomainFormation pkgs) s = .next t ∧ (∀ p, p ∈ t.domain ↔ p ∈ pkgs ∧ p < 4096) ∧ t.mem = s.mem ∧ t.cores = s.cores) ∧
  (∀ pkg s, (s.pkg pkg).fatal = none → ∃ t, exec (.coldBoot pkg) s = .next t ∧
    ((s.pkg pkg).stage = 0 → ((t.pkg pkg).stage = 1 ∨ (t.pkg pkg).stage = 15) ∧ t.cores = s.cores ∧ t.mem = s.mem) ∧
    ((s.pkg pkg).stage = 1 → ((t.pkg pkg).stage = 2 ∨ (t.pkg pkg).stage = 15) ∧ t.cores = s.cores ∧ t.mem = s.mem) ∧
    ((s.pkg pkg).stage = 2 → (t.pkg pkg).stage = 3 ∧ t.cores = s.cores ∧ t.mem = s.mem) ∧
    ((s.pkg pkg).stage = 3 → (t.pkg pkg).stage = 4 ∧ t.cores = s.cores ∧
      (∀ a, paPkg a = pkg → paSpace a = 1 ∨ paSpace a = 2 ∨ paSpace a = 3 ∨ paSpace a = 14 → Memory.get t.mem a = 0) ∧
      (∀ a, paPkg a ≠ pkg ∨ paSpace a = 0 → Memory.get t.mem a = Memory.get s.mem a)) ∧
    (4 ≤ (s.pkg pkg).stage → (t.pkg pkg).stage = 0 ∧ (t.pkg pkg).fatal = none ∧ (t.pkg pkg).boots = (s.pkg pkg).boots + 1 ∧ t.mem = s.mem ∧
      (∀ n, pkgOf n = pkg → t.core n = Core.reset) ∧ (∀ n, pkgOf n ≠ pkg → t.core n = s.core n))) ∧
  (∀ pkg s, (s.pkg pkg).fatal.isSome = true → ∃ t, exec (.coldBoot pkg) s = .next t ∧ (t.pkg pkg).stage = 0 ∧ (t.pkg pkg).fatal = none ∧
    (t.pkg pkg).boots = (s.pkg pkg).boots + 1 ∧ t.mem = s.mem ∧ (∀ n, pkgOf n = pkg → t.core n = Core.reset) ∧ (∀ n, pkgOf n ≠ pkg → t.core n = s.core n)) ∧
  (∀ pkg s, ∃ t, exec (.vaultScrub pkg) s = .next t ∧ t.mem = s.mem ∧ t.cores = s.cores ∧ t.bad = s.bad ∧
    ((s.pkg pkg).runs = true → ∀ b ∈ t.weak, paPkg (8 * b) = pkg → paSpace (8 * b) = 1 → s.layerRetired (8 * b) = true)) ∧
  (∀ pkg nonce dcc s, nonce.length = 32 → ∃ t, exec (.getMeasurements pkg nonce dcc) s = .next t ∧ (t.pkg pkg).report.length = 16864 ∧
    ((t.pkg pkg).report.drop 8).take 32 = nonce ∧ t.cores = s.cores ∧ t.mem = s.mem) ∧
  (∀ pkg source s, (s.pkg pkg).fatal = none → ∃ t, exec (.fatalError pkg source) s = .next t ∧ (t.pkg pkg).fatal = some source ∧
    (s.dumpTarget pkg = none → t.mem = s.mem) ∧ ∀ n q, pkgOf n = pkg → ({ t with cur := (n, q) } : State).idle = true) ∧
  (∀ pkg source s, (s.pkg pkg).fatal.isSome = true → exec (.fatalError pkg source) s = .next s)

/-! ## Encoding, the step, and the whole machine -/

/-- R25, R34 to R39, R51 and the worked encodings of Table 2.10: words of every form decode to the instruction that the spec gives, with its fields; a first byte from 0xF8 on is an undefined prefix. -/
def Obligations.SpecWordsDecode : Prop :=
  decode [0x04, 0x65] = .instr (.add2b 3 5) 2 ∧
  decode [0xC1, 0x20, 0x42, 0x7F, 0xFF, 0xFD] = .instr (.addi ⟨.six, 0, 0, 0, false, 0, 0, 4, 4, 0, 0xFFFFFD⟩) 6 ∧
  decode [0xAB, 0x04, 0x01, 0x89] = .instr (.vfma4b 0x04 0x01 0x89) 4 ∧
  decode [0xE2, 0x14, 0x14, 0xA0, 0x07, 0x80, 0x34, 0x0C] = .instr (.vadd ⟨.eight, 1, 4, 0, true, 2, 2, 7, 0x803, 0x40C, 0⟩) 8 ∧
  decode [0xF2, 0x08, 0x00, 0x28, 0x10, 0x0A, 0x00, 0x10, 0x02, 0x00, 0x00, 0x03] = 
    .instr (.vfma ⟨.twelve, 0, 0, 5, false, 0, 1, 0xA, 1, 2, 3⟩) 12 ∧
  (∀ b rest, 0xF8 ≤ BitVec.toNat (w := 8) b → decode (b :: rest) = .undefinedPrefix)

/-- R25, R34 to R38: what the encoder writes for an instruction, in whatever form carries its fields, decodes to that instruction, whatever bytes follow. -/
def Obligations.EncodedInstructionsDecode : Prop :=
  ∀ i rest, encodable i = true → decode (encode i ++ rest) = .instr i (encode i).length

/-- R25, R34 to R38, R42: bytes that decode to an instruction are the ones that the encoder writes for it: no bit of an encoding is dropped, and each instruction of a form has one encoding in it. -/
def Obligations.DecodedBytesEncode : Prop :=
  ∀ bs i n, decode bs = .instr i n → encodable i = true ∧ encode i = bs.take n

/-- R25, R28, R94, R95, R98, R103, R221, R316: a step in which the current sequencer moves, its stall hint elapsed and nothing coming before its next instruction, executes the instruction that the bytes at PC decode to, as memory holds them or as the instruction cache keeps them, or the one in XOINS where it is to be executed first, but a CLST that has arrived goes on as it is (R303); an instruction that has issued from memory counts the pages its fetch missed and the symbols it corrected. Before the hint has elapsed nothing issues; a reel's moment that may abort it comes before CP's instruction of the cycle (R208). In a turn of a core at most two ready instructions issue, those before which at most one other ranks: promoted ones first, the oldest first, then by ROLE, then by number; one is ready where the schedule's scoreboard and unit accept it and it would issue. A ready one that does not issue grows older by a cycle and waits for nothing; one not accepted waits for nothing either. A lone ready sequencer of a core moves as the current one does. A scheduled event acts as it stands. The turns, and the delivered cycles that each brings, are the model's own schedule (DESIGN CHOICE, log 1). -/
def Obligations.StepRunsDecodedInstruction : Prop :=
  (∀ s t u : State, s.turns = [] → s.elapse s.node 1 1 = t → t.idle = false → t.reelJudged t.node t.me = u →
    (t.me ≠ .cp ∨ t.abortDue t.node = false → u = t) ∧
    (∀ v, u.before = some v → step s = .next v) ∧
    (u.before = none → u.hintElapsed = true → step s = issueNext u) ∧ (u.before = none → u.hintElapsed = false → step s = .next u)) ∧
  (∀ (u : State) a, u.arrived = some a → encodable a.instr = true → issueNext u = exec a.instr u) ∧
  (∀ (u : State) i n, u.arrived = none → (u.mySeq.xo = false → Tab.has u.myCore.icache u.mySeq.pc.toNat = false → u.fetchDrained u.node u.mySeq.pc = false →
      (∀ k, k < n → u.fetchFault u.node (u.mySeq.pc + BitVec.ofNat 64 k) = none) → lengthOf (u.fetchByte u.node u.mySeq.pc) = some n →
      decode ((List.range n).map (fun k => u.fetchByte u.node (u.mySeq.pc + BitVec.ofNat 64 k))) = .instr i n →
      ∀ t, exec i u = .next t →
        (t.hasIssued = false → issueNext u = .next t) ∧
        (t.hasIssued = true → issueNext u = .next (t.noteAccess u.node true 1 (u.fetchAddrs u.node u.mySeq.pc)))) ∧
    (∀ bs, u.mySeq.xo = false → Tab.has u.myCore.icache u.mySeq.pc.toNat = true →
      Tab.get u.myCore.icache u.mySeq.pc.toNat (.bytes []) = .bytes bs → decode bs = .instr i n → issueNext u = exec i u) ∧
    (u.mySeq.xo = true → decode u.mySeq.xoBytes = .instr i n → issueNext u = exec i u)) ∧
  (∀ s t rest nd accept, s.turns = t :: rest → t.act = .run nd accept →
    step s = arbitrate nd accept (({ s with turns := rest, hold := t.hold } : State).elapse nd t.dt t.ctrl)) ∧
  (∀ n accept (s : State), n < s.turnOf n → arbitrate n accept s = .next s) ∧
  (∀ n accept (s u x : State) q, s.turnOf n ≤ n → q ∈ seqsOf n → (q = .cp → (s.turnTaken n).abortDue n = false) →
    (s.turnTaken n).as n q = u → u.idle = false → u.before = none → u.hintElapsed = true → u.hasIssued = false → u.nextIsMark = false → accept.getLsbD (seqNum q) = true → issueNext u = .next x →
    x.cur = u.cur → x.hasIssued = true →
    (∀ p ∈ seqsOf n, p ≠ q → ((s.turnTaken n).as n p).idle = true ∧ (x.as n p).idle = true) →
    arbitrate n accept s = .next { x with cur := s.cur }) ∧
  (∀ (s : State) n accept, (s.picks n ((seqsOf n).filter (s.isReady n accept))).length ≤ 2) ∧
  (∀ (s : State) n accept q, q ∈ s.picks n ((seqsOf n).filter (s.isReady n accept)) ↔ q ∈ seqsOf n ∧ s.isReady n accept q = true ∧
    ∀ a ∈ seqsOf n, ∀ b ∈ seqsOf n, a ≠ b → s.isReady n accept a = true → s.isReady n accept b = true →
      s.ranks n a q = true → s.ranks n b q = false) ∧
  (∀ (s t : State) n accept q, issueNext (s.as n q) = .next t → (s.isReady n accept q = true ↔
    accept.getLsbD (seqNum q) = true ∧ (s.as n q).nextIsMark = false ∧ (s.as n q).idle = false ∧ (s.as n q).hintElapsed = true ∧
      (s.as n q).hasIssued = false ∧ t.hasIssued = true)) ∧
  (∀ (s : State) n a b,
    (s.promoted n a = true → s.promoted n b = false → s.ranks n a b = true ∧ s.ranks n b a = false) ∧
    (s.promoted n a = true → s.promoted n b = true → (s.seq n b).age < (s.seq n a).age → s.ranks n a b = true ∧ s.ranks n b a = false) ∧
    (s.promoted n a = false → s.promoted n b = false → s.role n a < s.role n b → s.ranks n a b = true ∧ s.ranks n b a = false) ∧
    (s.promoted n a = true → s.promoted n b = true → (s.seq n a).age = (s.seq n b).age → seqNum a < seqNum b →
      s.ranks n a b = true ∧ s.ranks n b a = false) ∧
    (s.promoted n a = false → s.promoted n b = false → s.role n a = s.role n b → seqNum a < seqNum b →
      s.ranks n a b = true ∧ s.ranks n b a = false) ∧
    (a ≠ b → s.ranks n a b = !s.ranks n b a) ∧
    (s.promoted n a = true ↔ ((s.core n).sysreg 0x007).toNat ≤ (s.seq n a).age)) ∧
  (∀ (began : State) n accept ready picks q (s : State), (s.as n q).idle = false → (s.as n q).hintElapsed = true →
    (q ∈ picks → State.moveSeq began n accept ready picks q s = issueNext (s.as n q)) ∧
    (q ∉ picks → q ∈ ready → State.moveSeq began n accept ready picks q s = .next (s.modSeq n q Seq.passedOver)) ∧
    (q ∉ picks → q ∉ ready → accept.getLsbD (seqNum q) = false →
      State.moveSeq began n accept ready picks q s = .next { (s.as n q).endWait with cur := s.cur }) ∧
    (∀ u, q ∉ picks → q ∉ ready → accept.getLsbD (seqNum q) = true → issueNext (s.as n q) = .next u →
      State.moveSeq began n accept ready picks q s =
        .next (if u.hasIssued && !(s.as n q).nextIsMark then State.noteWait began n q s else u))) ∧
  (∀ (began v s t : State) n q, issueNext (began.as n q) = .next v → State.noteWait began n q s = t →
    (t.seq n q).wait = (v.seq n q).wait ∧ (t.seq n q).pc = (s.seq n q).pc ∧ (t.seq n q).regs = (s.seq n q).regs ∧ t.mem = s.mem) ∧
  (∀ v : Seq, v.passedOver.age = v.age + 1 ∧ (∀ w, v.passedOver.wait = some w → w.counts = false) ∧
    v.passedOver = { v with age := v.passedOver.age, wait := v.passedOver.wait }) ∧
  (∀ s t rest i, s.turns = t :: rest → t.act = .event i →
    step s = exec i (({ s with turns := rest, hold := t.hold } : State).elapse s.node t.dt t.ctrl))

/-- R28, R42, R49, R50, R51, R233, Tables 2.8 and 2.9: where fetching at PC fails, the fault of the mark is taken at PC, with PC in UFADDR for the first byte, and with STRADDLE and the address of the page that failed where a later byte lies in another page; an undefined prefix is cause 0x0A; bytes that no opcode of Table 2.8 owns are cause 0x01; what an instruction at PC had asked for or taken a place in line for is withdrawn; a fetch in the range of a PHASE drain stalls. So it is in the step of the current sequencer, and in the turn of a core whose lone ready sequencer this is. That a later byte which fails in the first byte's page is reported like the first byte is the model's choice (DESIGN CHOICE, log 72). -/
def Obligations.FetchFaultsAreTaken : Prop :=
  (∀ (u : State) pc, u.arrived = none → u.mySeq.xo = false → u.mySeq.pc = pc → Tab.has u.myCore.icache pc.toNat = false →
    (u.fetchDrained u.node pc = true → issueNext u = .next (u.stallDrain 1)) ∧
    (u.fetchDrained u.node pc = false →
      (∀ cause, u.fetchFault u.node pc = some cause → ∃ w : State, issueNext u = .next (u.countFetch (w.faultAt u.node u.me cause pc pc false)) ∧
        w.cur = u.cur ∧ w.mySeq = u.mySeq ∧ w.mem = u.mem ∧ w.bays = (u.withdraw u.node u.me).bays ∧ w.quads = (u.withdraw u.node u.me).quads ∧ w.dies = u.dies) ∧
      (u.fetchFault u.node pc = none → lengthOf (u.fetchByte u.node pc) = none →
        ∃ w : State, issueNext u = .next (u.countFetch (w.faultAt u.node u.me 0x0A pc pc false)) ∧ w.cur = u.cur ∧ w.mySeq = u.mySeq ∧ w.mem = u.mem) ∧
      (∀ n k a cause, u.fetchFault u.node pc = none → lengthOf (u.fetchByte u.node pc) = some n → k < n →
        (∀ j, j < k → u.fetchFault u.node (pc + BitVec.ofNat 64 j) = none) → a = pc + BitVec.ofNat 64 k → u.fetchFault u.node a = some cause →
        ∃ w : State, w.cur = u.cur ∧ w.mySeq = u.mySeq ∧ w.mem = u.mem ∧
          issueNext u = .next (u.countFetch (if pageOf a = pageOf pc then w.faultAt u.node u.me cause pc pc false
            else w.faultAt u.node u.me cause (a &&& 0xFFFFFFFFFFFF0000) pc true))) ∧
      (∀ n, (∀ k, k < n → u.fetchFault u.node (pc + BitVec.ofNat 64 k) = none) → lengthOf (u.fetchByte u.node pc) = some n →
        decode ((List.range n).map (fun k => u.fetchByte u.node (pc + BitVec.ofNat 64 k))) = .undefinedOpcode n →
        issueNext u = .next (u.countFetch (u.takeFault 0x01 0))))) ∧
  (∀ s t u : State, s.turns = [] → s.elapse s.node 1 1 = t → t.idle = false → t.reelJudged t.node t.me = u → u.before = none → u.hintElapsed = true →
    step s = issueNext u) ∧
  (∀ s t rest nd accept v (u x : State) q, s.turns = t :: rest → t.act = .run nd accept →
    ({ s with turns := rest, hold := t.hold } : State).elapse nd t.dt t.ctrl = v → v.turnOf nd ≤ nd → q ∈ seqsOf nd →
    (q = .cp → (v.turnTaken nd).abortDue nd = false) → (v.turnTaken nd).as nd q = u → u.idle = false → u.before = none → u.hintElapsed = true → u.hasIssued = false → u.nextIsMark = false →
    accept.getLsbD (seqNum q) = true → issueNext u = .next x → x.cur = u.cur → x.hasIssued = true →
    (∀ p ∈ seqsOf nd, p ≠ q → ((v.turnTaken nd).as nd p).idle = true ∧ (x.as nd p).idle = true) →
    step s = .next { x with cur := v.cur })

/-- R68, R88, R127, R142, R178, R292, R314, R363, Tables 4.7 to 17.6: the registers that the spec gives a reset value of have it in State.reset, as they read on every core and sequencer: zero but for ROLE, the sequencer's number, and the limits, sizes and defaults listed; BOOTST is that of power-on (R385). SEQCTL.STATE and what a core is given later (its place, PTROOT, LNKUP, DEVFEAT, DEVREV) stand apart (logs 4 and 87); every scalar register, matrix cell and token count is zero and the negative is empty. Memory lists nothing and is in its canonical form; that an unlisted byte reads as zero is the model's choice where the spec gives no contents (DESIGN CHOICE, log 6). -/
def Obligations.ResetValues : Prop :=
  (∀ n q, isDcc n = false →
    (∀ r ∈ ([(0x001, seqNum q), (0x002, 128), (0x003, 128), (0x004, 128), (0x005, 256), (0x006, 32), (0x007, 32), (0x018, 8), (0x0C0, 8), (0x0C1, 8),
        (0x0C2, 1), (0x0C7, 16), (0x203, 64 + 2 ^ 32), (0x20A, 64 + 2 ^ 32), (0x2B1, 12), (0x301, 512), (0x307, 100), (0x30A, 0x1F), (0x402, 0xE4)] :
        List (Nat × Nat)),
      State.reset.readReg n q r.1 = BitVec.ofNat 64 r.2) ∧
    (∀ num ∈ ([0x008, 0x009, 0x00A, 0x00B, 0x00C, 0x00D, 0x00E, 0x00F, 0x010, 0x017, 0x019, 0x01A, 0x01B, 0x040, 0x041, 0x042, 0x048, 0x049, 0x04A,
        0x04B, 0x04C, 0x04D, 0x04E, 0x04F, 0x060, 0x061, 0x080, 0x081, 0x082, 0x0C3, 0x0C4, 0x0C5, 0x0C6, 0x0C8, 0x0C9, 0x0D0, 0x0D1, 0x0D2,
        0x0D3, 0x0D4, 0x0D8, 0x0E0, 0x0E1] ++ [0x200, 0x201, 0x202, 0x204, 0x208, 0x209, 0x20B, 0x20C, 0x240, 0x241, 0x242, 0x280, 0x282, 0x283,
        0x298, 0x2B0, 0x2B2, 0x2B3, 0x2B4, 0x2C0, 0x2C1, 0x2C2, 0x300, 0x302, 0x303, 0x304, 0x305, 0x306, 0x308, 0x309, 0x340, 0x341, 0x400,
        0x401, 0x403] ++ (List.range 16).map (fun i => 0x288 + i) : List Nat),
      State.reset.readReg n q num = 0) ∧
    (∀ r, (State.reset.seq n q).reg r = 0) ∧ (∀ k, (State.reset.core n).cell k = 0) ∧ (State.reset.core n).neg = [] ∧
    (∀ k, (State.reset.core n).tokens k = 0)) ∧
  State.reset.mem = [] ∧ Memory.wf State.reset.mem = true

/-- The model's own form of memory (DESIGN CHOICE, log 6): every step keeps it canonical: addresses rise, and no byte that reads as an unlisted one is listed. -/
def Obligations.StepsKeepMemoryCanonical : Prop :=
  ∀ s t, Memory.wf s.mem = true → step s = .next t → Memory.wf t.mem = true

/-- R235, R312: every fault of the machine is a state of it: no step of this model ends in a fault or a refusal of its own, whatever the state. -/
def Obligations.EveryStepAnswers : Prop :=
  ∀ s, ∃ t, step s = .next t

end
end

