-- ==== Sys2Proof/Laws/State.lean ====
section
/-! SUPPORT. One lemma per field per update of State and of what it holds, true by definition, and the read-after-write laws of the tables. Written once, so that no proof unfolds a record update. -/

namespace Sys2Proof.Machine

/-! ### State.setCore -/

@[simp] theorem State.setCore_bays (s : State) (n : Nat) (c : Core) : (s.setCore n c).bays = s.bays := rfl
@[simp] theorem State.setCore_quads (s : State) (n : Nat) (c : Core) : (s.setCore n c).quads = s.quads := rfl
@[simp] theorem State.setCore_stacks (s : State) (n : Nat) (c : Core) : (s.setCore n c).dies = s.dies := rfl
@[simp] theorem State.setCore_pkgs (s : State) (n : Nat) (c : Core) : (s.setCore n c).pkgs = s.pkgs := rfl
@[simp] theorem State.setCore_domain (s : State) (n : Nat) (c : Core) : (s.setCore n c).domain = s.domain := rfl
@[simp] theorem State.setCore_mem (s : State) (n : Nat) (c : Core) : (s.setCore n c).mem = s.mem := rfl
@[simp] theorem State.setCore_bad (s : State) (n : Nat) (c : Core) : (s.setCore n c).bad = s.bad := rfl
@[simp] theorem State.setCore_weak (s : State) (n : Nat) (c : Core) : (s.setCore n c).weak = s.weak := rfl
@[simp] theorem State.setCore_freed (s : State) (n : Nat) (c : Core) : (s.setCore n c).freed = s.freed := rfl
@[simp] theorem State.setCore_keyed (s : State) (n : Nat) (c : Core) : (s.setCore n c).keyed = s.keyed := rfl
@[simp] theorem State.setCore_saved (s : State) (n : Nat) (c : Core) : (s.setCore n c).saved = s.saved := rfl
@[simp] theorem State.setCore_placed (s : State) (n : Nat) (c : Core) : (s.setCore n c).placed = s.placed := rfl
@[simp] theorem State.setCore_launches (s : State) (n : Nat) (c : Core) : (s.setCore n c).launches = s.launches := rfl
@[simp] theorem State.setCore_missed (s : State) (n : Nat) (c : Core) : (s.setCore n c).missed = s.missed := rfl
@[simp] theorem State.setCore_turns (s : State) (n : Nat) (c : Core) : (s.setCore n c).turns = s.turns := rfl
@[simp] theorem State.setCore_cur (s : State) (n : Nat) (c : Core) : (s.setCore n c).cur = s.cur := rfl
@[simp] theorem State.setCore_hold (s : State) (n : Nat) (c : Core) : (s.setCore n c).hold = s.hold := rfl
@[simp] theorem State.setCore_fresh (s : State) (n : Nat) (c : Core) : (s.setCore n c).fresh = s.fresh := rfl
@[simp] theorem State.setCore_nextTag (s : State) (n : Nat) (c : Core) : (s.setCore n c).nextTag = s.nextTag := rfl

/-! ### State.modCore -/

@[simp] theorem State.modCore_bays (s : State) (n : Nat) (g : Core → Core) : (s.modCore n g).bays = s.bays := rfl
@[simp] theorem State.modCore_quads (s : State) (n : Nat) (g : Core → Core) : (s.modCore n g).quads = s.quads := rfl
@[simp] theorem State.modCore_stacks (s : State) (n : Nat) (g : Core → Core) : (s.modCore n g).dies = s.dies := rfl
@[simp] theorem State.modCore_pkgs (s : State) (n : Nat) (g : Core → Core) : (s.modCore n g).pkgs = s.pkgs := rfl
@[simp] theorem State.modCore_domain (s : State) (n : Nat) (g : Core → Core) : (s.modCore n g).domain = s.domain := rfl
@[simp] theorem State.modCore_mem (s : State) (n : Nat) (g : Core → Core) : (s.modCore n g).mem = s.mem := rfl
@[simp] theorem State.modCore_bad (s : State) (n : Nat) (g : Core → Core) : (s.modCore n g).bad = s.bad := rfl
@[simp] theorem State.modCore_weak (s : State) (n : Nat) (g : Core → Core) : (s.modCore n g).weak = s.weak := rfl
@[simp] theorem State.modCore_freed (s : State) (n : Nat) (g : Core → Core) : (s.modCore n g).freed = s.freed := rfl
@[simp] theorem State.modCore_keyed (s : State) (n : Nat) (g : Core → Core) : (s.modCore n g).keyed = s.keyed := rfl
@[simp] theorem State.modCore_saved (s : State) (n : Nat) (g : Core → Core) : (s.modCore n g).saved = s.saved := rfl
@[simp] theorem State.modCore_placed (s : State) (n : Nat) (g : Core → Core) : (s.modCore n g).placed = s.placed := rfl
@[simp] theorem State.modCore_launches (s : State) (n : Nat) (g : Core → Core) : (s.modCore n g).launches = s.launches := rfl
@[simp] theorem State.modCore_missed (s : State) (n : Nat) (g : Core → Core) : (s.modCore n g).missed = s.missed := rfl
@[simp] theorem State.modCore_turns (s : State) (n : Nat) (g : Core → Core) : (s.modCore n g).turns = s.turns := rfl
@[simp] theorem State.modCore_cur (s : State) (n : Nat) (g : Core → Core) : (s.modCore n g).cur = s.cur := rfl
@[simp] theorem State.modCore_hold (s : State) (n : Nat) (g : Core → Core) : (s.modCore n g).hold = s.hold := rfl
@[simp] theorem State.modCore_fresh (s : State) (n : Nat) (g : Core → Core) : (s.modCore n g).fresh = s.fresh := rfl
@[simp] theorem State.modCore_nextTag (s : State) (n : Nat) (g : Core → Core) : (s.modCore n g).nextTag = s.nextTag := rfl

/-! ### State.setSeq -/

@[simp] theorem State.setSeq_bays (s : State) (n : Nat) (q : SeqId) (v : Seq) : (s.setSeq n q v).bays = s.bays := rfl
@[simp] theorem State.setSeq_quads (s : State) (n : Nat) (q : SeqId) (v : Seq) : (s.setSeq n q v).quads = s.quads := rfl
@[simp] theorem State.setSeq_stacks (s : State) (n : Nat) (q : SeqId) (v : Seq) : (s.setSeq n q v).dies = s.dies := rfl
@[simp] theorem State.setSeq_pkgs (s : State) (n : Nat) (q : SeqId) (v : Seq) : (s.setSeq n q v).pkgs = s.pkgs := rfl
@[simp] theorem State.setSeq_domain (s : State) (n : Nat) (q : SeqId) (v : Seq) : (s.setSeq n q v).domain = s.domain := rfl
@[simp] theorem State.setSeq_mem (s : State) (n : Nat) (q : SeqId) (v : Seq) : (s.setSeq n q v).mem = s.mem := rfl
@[simp] theorem State.setSeq_bad (s : State) (n : Nat) (q : SeqId) (v : Seq) : (s.setSeq n q v).bad = s.bad := rfl
@[simp] theorem State.setSeq_weak (s : State) (n : Nat) (q : SeqId) (v : Seq) : (s.setSeq n q v).weak = s.weak := rfl
@[simp] theorem State.setSeq_freed (s : State) (n : Nat) (q : SeqId) (v : Seq) : (s.setSeq n q v).freed = s.freed := rfl
@[simp] theorem State.setSeq_keyed (s : State) (n : Nat) (q : SeqId) (v : Seq) : (s.setSeq n q v).keyed = s.keyed := rfl
@[simp] theorem State.setSeq_saved (s : State) (n : Nat) (q : SeqId) (v : Seq) : (s.setSeq n q v).saved = s.saved := rfl
@[simp] theorem State.setSeq_placed (s : State) (n : Nat) (q : SeqId) (v : Seq) : (s.setSeq n q v).placed = s.placed := rfl
@[simp] theorem State.setSeq_launches (s : State) (n : Nat) (q : SeqId) (v : Seq) : (s.setSeq n q v).launches = s.launches := rfl
@[simp] theorem State.setSeq_missed (s : State) (n : Nat) (q : SeqId) (v : Seq) : (s.setSeq n q v).missed = s.missed := rfl
@[simp] theorem State.setSeq_turns (s : State) (n : Nat) (q : SeqId) (v : Seq) : (s.setSeq n q v).turns = s.turns := rfl
@[simp] theorem State.setSeq_cur (s : State) (n : Nat) (q : SeqId) (v : Seq) : (s.setSeq n q v).cur = s.cur := rfl
@[simp] theorem State.setSeq_hold (s : State) (n : Nat) (q : SeqId) (v : Seq) : (s.setSeq n q v).hold = s.hold := rfl
@[simp] theorem State.setSeq_fresh (s : State) (n : Nat) (q : SeqId) (v : Seq) : (s.setSeq n q v).fresh = s.fresh := rfl
@[simp] theorem State.setSeq_nextTag (s : State) (n : Nat) (q : SeqId) (v : Seq) : (s.setSeq n q v).nextTag = s.nextTag := rfl

/-! ### State.modSeq -/

@[simp] theorem State.modSeq_bays (s : State) (n : Nat) (q : SeqId) (g : Seq → Seq) : (s.modSeq n q g).bays = s.bays := rfl
@[simp] theorem State.modSeq_quads (s : State) (n : Nat) (q : SeqId) (g : Seq → Seq) : (s.modSeq n q g).quads = s.quads := rfl
@[simp] theorem State.modSeq_stacks (s : State) (n : Nat) (q : SeqId) (g : Seq → Seq) : (s.modSeq n q g).dies = s.dies := rfl
@[simp] theorem State.modSeq_pkgs (s : State) (n : Nat) (q : SeqId) (g : Seq → Seq) : (s.modSeq n q g).pkgs = s.pkgs := rfl
@[simp] theorem State.modSeq_domain (s : State) (n : Nat) (q : SeqId) (g : Seq → Seq) : (s.modSeq n q g).domain = s.domain := rfl
@[simp] theorem State.modSeq_mem (s : State) (n : Nat) (q : SeqId) (g : Seq → Seq) : (s.modSeq n q g).mem = s.mem := rfl
@[simp] theorem State.modSeq_bad (s : State) (n : Nat) (q : SeqId) (g : Seq → Seq) : (s.modSeq n q g).bad = s.bad := rfl
@[simp] theorem State.modSeq_weak (s : State) (n : Nat) (q : SeqId) (g : Seq → Seq) : (s.modSeq n q g).weak = s.weak := rfl
@[simp] theorem State.modSeq_freed (s : State) (n : Nat) (q : SeqId) (g : Seq → Seq) : (s.modSeq n q g).freed = s.freed := rfl
@[simp] theorem State.modSeq_keyed (s : State) (n : Nat) (q : SeqId) (g : Seq → Seq) : (s.modSeq n q g).keyed = s.keyed := rfl
@[simp] theorem State.modSeq_saved (s : State) (n : Nat) (q : SeqId) (g : Seq → Seq) : (s.modSeq n q g).saved = s.saved := rfl
@[simp] theorem State.modSeq_placed (s : State) (n : Nat) (q : SeqId) (g : Seq → Seq) : (s.modSeq n q g).placed = s.placed := rfl
@[simp] theorem State.modSeq_launches (s : State) (n : Nat) (q : SeqId) (g : Seq → Seq) : (s.modSeq n q g).launches = s.launches := rfl
@[simp] theorem State.modSeq_missed (s : State) (n : Nat) (q : SeqId) (g : Seq → Seq) : (s.modSeq n q g).missed = s.missed := rfl
@[simp] theorem State.modSeq_turns (s : State) (n : Nat) (q : SeqId) (g : Seq → Seq) : (s.modSeq n q g).turns = s.turns := rfl
@[simp] theorem State.modSeq_cur (s : State) (n : Nat) (q : SeqId) (g : Seq → Seq) : (s.modSeq n q g).cur = s.cur := rfl
@[simp] theorem State.modSeq_hold (s : State) (n : Nat) (q : SeqId) (g : Seq → Seq) : (s.modSeq n q g).hold = s.hold := rfl
@[simp] theorem State.modSeq_fresh (s : State) (n : Nat) (q : SeqId) (g : Seq → Seq) : (s.modSeq n q g).fresh = s.fresh := rfl
@[simp] theorem State.modSeq_nextTag (s : State) (n : Nat) (q : SeqId) (g : Seq → Seq) : (s.modSeq n q g).nextTag = s.nextTag := rfl

/-! ### State.setReg -/

@[simp] theorem State.setReg_bays (s : State) (r : BitVec 5) (v : Word) : (s.setReg r v).bays = s.bays := rfl
@[simp] theorem State.setReg_quads (s : State) (r : BitVec 5) (v : Word) : (s.setReg r v).quads = s.quads := rfl
@[simp] theorem State.setReg_stacks (s : State) (r : BitVec 5) (v : Word) : (s.setReg r v).dies = s.dies := rfl
@[simp] theorem State.setReg_pkgs (s : State) (r : BitVec 5) (v : Word) : (s.setReg r v).pkgs = s.pkgs := rfl
@[simp] theorem State.setReg_domain (s : State) (r : BitVec 5) (v : Word) : (s.setReg r v).domain = s.domain := rfl
@[simp] theorem State.setReg_mem (s : State) (r : BitVec 5) (v : Word) : (s.setReg r v).mem = s.mem := rfl
@[simp] theorem State.setReg_bad (s : State) (r : BitVec 5) (v : Word) : (s.setReg r v).bad = s.bad := rfl
@[simp] theorem State.setReg_weak (s : State) (r : BitVec 5) (v : Word) : (s.setReg r v).weak = s.weak := rfl
@[simp] theorem State.setReg_freed (s : State) (r : BitVec 5) (v : Word) : (s.setReg r v).freed = s.freed := rfl
@[simp] theorem State.setReg_keyed (s : State) (r : BitVec 5) (v : Word) : (s.setReg r v).keyed = s.keyed := rfl
@[simp] theorem State.setReg_saved (s : State) (r : BitVec 5) (v : Word) : (s.setReg r v).saved = s.saved := rfl
@[simp] theorem State.setReg_placed (s : State) (r : BitVec 5) (v : Word) : (s.setReg r v).placed = s.placed := rfl
@[simp] theorem State.setReg_launches (s : State) (r : BitVec 5) (v : Word) : (s.setReg r v).launches = s.launches := rfl
@[simp] theorem State.setReg_missed (s : State) (r : BitVec 5) (v : Word) : (s.setReg r v).missed = s.missed := rfl
@[simp] theorem State.setReg_turns (s : State) (r : BitVec 5) (v : Word) : (s.setReg r v).turns = s.turns := rfl
@[simp] theorem State.setReg_cur (s : State) (r : BitVec 5) (v : Word) : (s.setReg r v).cur = s.cur := rfl
@[simp] theorem State.setReg_hold (s : State) (r : BitVec 5) (v : Word) : (s.setReg r v).hold = s.hold := rfl
@[simp] theorem State.setReg_fresh (s : State) (r : BitVec 5) (v : Word) : (s.setReg r v).fresh = s.fresh := rfl
@[simp] theorem State.setReg_nextTag (s : State) (r : BitVec 5) (v : Word) : (s.setReg r v).nextTag = s.nextTag := rfl

/-! ### State.setBay -/

@[simp] theorem State.setBay_cores (s : State) (b : Nat) (v : Bay) : (s.setBay b v).cores = s.cores := rfl
@[simp] theorem State.setBay_quads (s : State) (b : Nat) (v : Bay) : (s.setBay b v).quads = s.quads := rfl
@[simp] theorem State.setBay_stacks (s : State) (b : Nat) (v : Bay) : (s.setBay b v).dies = s.dies := rfl
@[simp] theorem State.setBay_pkgs (s : State) (b : Nat) (v : Bay) : (s.setBay b v).pkgs = s.pkgs := rfl
@[simp] theorem State.setBay_domain (s : State) (b : Nat) (v : Bay) : (s.setBay b v).domain = s.domain := rfl
@[simp] theorem State.setBay_mem (s : State) (b : Nat) (v : Bay) : (s.setBay b v).mem = s.mem := rfl
@[simp] theorem State.setBay_bad (s : State) (b : Nat) (v : Bay) : (s.setBay b v).bad = s.bad := rfl
@[simp] theorem State.setBay_weak (s : State) (b : Nat) (v : Bay) : (s.setBay b v).weak = s.weak := rfl
@[simp] theorem State.setBay_freed (s : State) (b : Nat) (v : Bay) : (s.setBay b v).freed = s.freed := rfl
@[simp] theorem State.setBay_keyed (s : State) (b : Nat) (v : Bay) : (s.setBay b v).keyed = s.keyed := rfl
@[simp] theorem State.setBay_saved (s : State) (b : Nat) (v : Bay) : (s.setBay b v).saved = s.saved := rfl
@[simp] theorem State.setBay_placed (s : State) (b : Nat) (v : Bay) : (s.setBay b v).placed = s.placed := rfl
@[simp] theorem State.setBay_launches (s : State) (b : Nat) (v : Bay) : (s.setBay b v).launches = s.launches := rfl
@[simp] theorem State.setBay_missed (s : State) (b : Nat) (v : Bay) : (s.setBay b v).missed = s.missed := rfl
@[simp] theorem State.setBay_turns (s : State) (b : Nat) (v : Bay) : (s.setBay b v).turns = s.turns := rfl
@[simp] theorem State.setBay_cur (s : State) (b : Nat) (v : Bay) : (s.setBay b v).cur = s.cur := rfl
@[simp] theorem State.setBay_hold (s : State) (b : Nat) (v : Bay) : (s.setBay b v).hold = s.hold := rfl
@[simp] theorem State.setBay_fresh (s : State) (b : Nat) (v : Bay) : (s.setBay b v).fresh = s.fresh := rfl
@[simp] theorem State.setBay_nextTag (s : State) (b : Nat) (v : Bay) : (s.setBay b v).nextTag = s.nextTag := rfl

/-! ### State.setQuad -/

@[simp] theorem State.setQuad_cores (s : State) (k : Nat) (v : Quad) : (s.setQuad k v).cores = s.cores := rfl
@[simp] theorem State.setQuad_bays (s : State) (k : Nat) (v : Quad) : (s.setQuad k v).bays = s.bays := rfl
@[simp] theorem State.setQuad_stacks (s : State) (k : Nat) (v : Quad) : (s.setQuad k v).dies = s.dies := rfl
@[simp] theorem State.setQuad_pkgs (s : State) (k : Nat) (v : Quad) : (s.setQuad k v).pkgs = s.pkgs := rfl
@[simp] theorem State.setQuad_domain (s : State) (k : Nat) (v : Quad) : (s.setQuad k v).domain = s.domain := rfl
@[simp] theorem State.setQuad_mem (s : State) (k : Nat) (v : Quad) : (s.setQuad k v).mem = s.mem := rfl
@[simp] theorem State.setQuad_bad (s : State) (k : Nat) (v : Quad) : (s.setQuad k v).bad = s.bad := rfl
@[simp] theorem State.setQuad_weak (s : State) (k : Nat) (v : Quad) : (s.setQuad k v).weak = s.weak := rfl
@[simp] theorem State.setQuad_freed (s : State) (k : Nat) (v : Quad) : (s.setQuad k v).freed = s.freed := rfl
@[simp] theorem State.setQuad_keyed (s : State) (k : Nat) (v : Quad) : (s.setQuad k v).keyed = s.keyed := rfl
@[simp] theorem State.setQuad_saved (s : State) (k : Nat) (v : Quad) : (s.setQuad k v).saved = s.saved := rfl
@[simp] theorem State.setQuad_placed (s : State) (k : Nat) (v : Quad) : (s.setQuad k v).placed = s.placed := rfl
@[simp] theorem State.setQuad_launches (s : State) (k : Nat) (v : Quad) : (s.setQuad k v).launches = s.launches := rfl
@[simp] theorem State.setQuad_missed (s : State) (k : Nat) (v : Quad) : (s.setQuad k v).missed = s.missed := rfl
@[simp] theorem State.setQuad_turns (s : State) (k : Nat) (v : Quad) : (s.setQuad k v).turns = s.turns := rfl
@[simp] theorem State.setQuad_cur (s : State) (k : Nat) (v : Quad) : (s.setQuad k v).cur = s.cur := rfl
@[simp] theorem State.setQuad_hold (s : State) (k : Nat) (v : Quad) : (s.setQuad k v).hold = s.hold := rfl
@[simp] theorem State.setQuad_fresh (s : State) (k : Nat) (v : Quad) : (s.setQuad k v).fresh = s.fresh := rfl
@[simp] theorem State.setQuad_nextTag (s : State) (k : Nat) (v : Quad) : (s.setQuad k v).nextTag = s.nextTag := rfl

/-! ### State.setStack -/

@[simp] theorem State.setStack_cores (s : State) (k : Nat) (v : Stack) : (s.setStack k v).cores = s.cores := rfl
@[simp] theorem State.setStack_bays (s : State) (k : Nat) (v : Stack) : (s.setStack k v).bays = s.bays := rfl
@[simp] theorem State.setStack_quads (s : State) (k : Nat) (v : Stack) : (s.setStack k v).quads = s.quads := rfl
@[simp] theorem State.setStack_pkgs (s : State) (k : Nat) (v : Stack) : (s.setStack k v).pkgs = s.pkgs := rfl
@[simp] theorem State.setStack_domain (s : State) (k : Nat) (v : Stack) : (s.setStack k v).domain = s.domain := rfl
@[simp] theorem State.setStack_mem (s : State) (k : Nat) (v : Stack) : (s.setStack k v).mem = s.mem := rfl
@[simp] theorem State.setStack_bad (s : State) (k : Nat) (v : Stack) : (s.setStack k v).bad = s.bad := rfl
@[simp] theorem State.setStack_weak (s : State) (k : Nat) (v : Stack) : (s.setStack k v).weak = s.weak := rfl
@[simp] theorem State.setStack_freed (s : State) (k : Nat) (v : Stack) : (s.setStack k v).freed = s.freed := rfl
@[simp] theorem State.setStack_keyed (s : State) (k : Nat) (v : Stack) : (s.setStack k v).keyed = s.keyed := rfl
@[simp] theorem State.setStack_saved (s : State) (k : Nat) (v : Stack) : (s.setStack k v).saved = s.saved := rfl
@[simp] theorem State.setStack_placed (s : State) (k : Nat) (v : Stack) : (s.setStack k v).placed = s.placed := rfl
@[simp] theorem State.setStack_launches (s : State) (k : Nat) (v : Stack) : (s.setStack k v).launches = s.launches := rfl
@[simp] theorem State.setStack_missed (s : State) (k : Nat) (v : Stack) : (s.setStack k v).missed = s.missed := rfl
@[simp] theorem State.setStack_turns (s : State) (k : Nat) (v : Stack) : (s.setStack k v).turns = s.turns := rfl
@[simp] theorem State.setStack_cur (s : State) (k : Nat) (v : Stack) : (s.setStack k v).cur = s.cur := rfl
@[simp] theorem State.setStack_hold (s : State) (k : Nat) (v : Stack) : (s.setStack k v).hold = s.hold := rfl
@[simp] theorem State.setStack_fresh (s : State) (k : Nat) (v : Stack) : (s.setStack k v).fresh = s.fresh := rfl
@[simp] theorem State.setStack_nextTag (s : State) (k : Nat) (v : Stack) : (s.setStack k v).nextTag = s.nextTag := rfl

/-! ### State.setPkg -/

@[simp] theorem State.setPkg_cores (s : State) (k : Nat) (v : Pkg) : (s.setPkg k v).cores = s.cores := rfl
@[simp] theorem State.setPkg_bays (s : State) (k : Nat) (v : Pkg) : (s.setPkg k v).bays = s.bays := rfl
@[simp] theorem State.setPkg_quads (s : State) (k : Nat) (v : Pkg) : (s.setPkg k v).quads = s.quads := rfl
@[simp] theorem State.setPkg_stacks (s : State) (k : Nat) (v : Pkg) : (s.setPkg k v).dies = s.dies := rfl
@[simp] theorem State.setPkg_domain (s : State) (k : Nat) (v : Pkg) : (s.setPkg k v).domain = s.domain := rfl
@[simp] theorem State.setPkg_mem (s : State) (k : Nat) (v : Pkg) : (s.setPkg k v).mem = s.mem := rfl
@[simp] theorem State.setPkg_bad (s : State) (k : Nat) (v : Pkg) : (s.setPkg k v).bad = s.bad := rfl
@[simp] theorem State.setPkg_weak (s : State) (k : Nat) (v : Pkg) : (s.setPkg k v).weak = s.weak := rfl
@[simp] theorem State.setPkg_freed (s : State) (k : Nat) (v : Pkg) : (s.setPkg k v).freed = s.freed := rfl
@[simp] theorem State.setPkg_keyed (s : State) (k : Nat) (v : Pkg) : (s.setPkg k v).keyed = s.keyed := rfl
@[simp] theorem State.setPkg_saved (s : State) (k : Nat) (v : Pkg) : (s.setPkg k v).saved = s.saved := rfl
@[simp] theorem State.setPkg_placed (s : State) (k : Nat) (v : Pkg) : (s.setPkg k v).placed = s.placed := rfl
@[simp] theorem State.setPkg_launches (s : State) (k : Nat) (v : Pkg) : (s.setPkg k v).launches = s.launches := rfl
@[simp] theorem State.setPkg_missed (s : State) (k : Nat) (v : Pkg) : (s.setPkg k v).missed = s.missed := rfl
@[simp] theorem State.setPkg_turns (s : State) (k : Nat) (v : Pkg) : (s.setPkg k v).turns = s.turns := rfl
@[simp] theorem State.setPkg_cur (s : State) (k : Nat) (v : Pkg) : (s.setPkg k v).cur = s.cur := rfl
@[simp] theorem State.setPkg_hold (s : State) (k : Nat) (v : Pkg) : (s.setPkg k v).hold = s.hold := rfl
@[simp] theorem State.setPkg_fresh (s : State) (k : Nat) (v : Pkg) : (s.setPkg k v).fresh = s.fresh := rfl
@[simp] theorem State.setPkg_nextTag (s : State) (k : Nat) (v : Pkg) : (s.setPkg k v).nextTag = s.nextTag := rfl

/-! ### State.spend -/

@[simp] theorem State.spend_cores (s : State) : (s.spend).cores = s.cores := rfl
@[simp] theorem State.spend_bays (s : State) : (s.spend).bays = s.bays := rfl
@[simp] theorem State.spend_quads (s : State) : (s.spend).quads = s.quads := rfl
@[simp] theorem State.spend_stacks (s : State) : (s.spend).dies = s.dies := rfl
@[simp] theorem State.spend_pkgs (s : State) : (s.spend).pkgs = s.pkgs := rfl
@[simp] theorem State.spend_domain (s : State) : (s.spend).domain = s.domain := rfl
@[simp] theorem State.spend_mem (s : State) : (s.spend).mem = s.mem := rfl
@[simp] theorem State.spend_bad (s : State) : (s.spend).bad = s.bad := rfl
@[simp] theorem State.spend_weak (s : State) : (s.spend).weak = s.weak := rfl
@[simp] theorem State.spend_freed (s : State) : (s.spend).freed = s.freed := rfl
@[simp] theorem State.spend_keyed (s : State) : (s.spend).keyed = s.keyed := rfl
@[simp] theorem State.spend_saved (s : State) : (s.spend).saved = s.saved := rfl
@[simp] theorem State.spend_placed (s : State) : (s.spend).placed = s.placed := rfl
@[simp] theorem State.spend_launches (s : State) : (s.spend).launches = s.launches := rfl
@[simp] theorem State.spend_missed (s : State) : (s.spend).missed = s.missed := rfl
@[simp] theorem State.spend_turns (s : State) : (s.spend).turns = s.turns := rfl
@[simp] theorem State.spend_cur (s : State) : (s.spend).cur = s.cur := rfl
@[simp] theorem State.spend_hold (s : State) : (s.spend).hold = s.hold := rfl
@[simp] theorem State.spend_nextTag (s : State) : (s.spend).nextTag = s.nextTag := rfl

/-! ### Core.setSeq -/

@[simp] theorem Core.setSeq_ctx (c : Core) (q : SeqId) (v : Seq) : (c.setSeq q v).ctx = c.ctx := rfl
@[simp] theorem Core.setSeq_sys (c : Core) (q : SeqId) (v : Seq) : (c.setSeq q v).sys = c.sys := rfl
@[simp] theorem Core.setSeq_cycle (c : Core) (q : SeqId) (v : Seq) : (c.setSeq q v).cycle = c.cycle := rfl
@[simp] theorem Core.setSeq_tok (c : Core) (q : SeqId) (v : Seq) : (c.setSeq q v).tok = c.tok := rfl
@[simp] theorem Core.setSeq_resv (c : Core) (q : SeqId) (v : Seq) : (c.setSeq q v).resv = c.resv := rfl
@[simp] theorem Core.setSeq_cells (c : Core) (q : SeqId) (v : Seq) : (c.setSeq q v).cells = c.cells := rfl
@[simp] theorem Core.setSeq_neg (c : Core) (q : SeqId) (v : Seq) : (c.setSeq q v).neg = c.neg := rfl
@[simp] theorem Core.setSeq_mx (c : Core) (q : SeqId) (v : Seq) : (c.setSeq q v).mx = c.mx := rfl
@[simp] theorem Core.setSeq_nestTab (c : Core) (q : SeqId) (v : Seq) : (c.setSeq q v).nestTab = c.nestTab := rfl
@[simp] theorem Core.setSeq_nest (c : Core) (q : SeqId) (v : Seq) : (c.setSeq q v).nest = c.nest := rfl
@[simp] theorem Core.setSeq_reel (c : Core) (q : SeqId) (v : Seq) : (c.setSeq q v).reel = c.reel := rfl
@[simp] theorem Core.setSeq_reelAbort (c : Core) (q : SeqId) (v : Seq) : (c.setSeq q v).reelAbort = c.reelAbort := rfl
@[simp] theorem Core.setSeq_cueq (c : Core) (q : SeqId) (v : Seq) : (c.setSeq q v).cueq = c.cueq := rfl
@[simp] theorem Core.setSeq_cueWay (c : Core) (q : SeqId) (v : Seq) : (c.setSeq q v).cueWay = c.cueWay := rfl
@[simp] theorem Core.setSeq_cueBack (c : Core) (q : SeqId) (v : Seq) : (c.setSeq q v).cueBack = c.cueBack := rfl
@[simp] theorem Core.setSeq_streams (c : Core) (q : SeqId) (v : Seq) : (c.setSeq q v).streams = c.streams := rfl
@[simp] theorem Core.setSeq_grids (c : Core) (q : SeqId) (v : Seq) : (c.setSeq q v).grids = c.grids := rfl
@[simp] theorem Core.setSeq_flags (c : Core) (q : SeqId) (v : Seq) : (c.setSeq q v).flags = c.flags := rfl
@[simp] theorem Core.setSeq_bufs (c : Core) (q : SeqId) (v : Seq) : (c.setSeq q v).bufs = c.bufs := rfl
@[simp] theorem Core.setSeq_scopes (c : Core) (q : SeqId) (v : Seq) : (c.setSeq q v).scopes = c.scopes := rfl
@[simp] theorem Core.setSeq_ldq (c : Core) (q : SeqId) (v : Seq) : (c.setSeq q v).ldq = c.ldq := rfl
@[simp] theorem Core.setSeq_stq (c : Core) (q : SeqId) (v : Seq) : (c.setSeq q v).stq = c.stq := rfl
@[simp] theorem Core.setSeq_freeze (c : Core) (q : SeqId) (v : Seq) : (c.setSeq q v).freeze = c.freeze := rfl
@[simp] theorem Core.setSeq_notice (c : Core) (q : SeqId) (v : Seq) : (c.setSeq q v).notice = c.notice := rfl
@[simp] theorem Core.setSeq_paused (c : Core) (q : SeqId) (v : Seq) : (c.setSeq q v).paused = c.paused := rfl
@[simp] theorem Core.setSeq_snap (c : Core) (q : SeqId) (v : Seq) : (c.setSeq q v).snap = c.snap := rfl
@[simp] theorem Core.setSeq_icache (c : Core) (q : SeqId) (v : Seq) : (c.setSeq q v).icache = c.icache := rfl
@[simp] theorem Core.setSeq_scales (c : Core) (q : SeqId) (v : Seq) : (c.setSeq q v).scales = c.scales := rfl
@[simp] theorem Core.setSeq_tlb (c : Core) (q : SeqId) (v : Seq) : (c.setSeq q v).tlb = c.tlb := rfl
@[simp] theorem Core.setSeq_l1 (c : Core) (q : SeqId) (v : Seq) : (c.setSeq q v).l1 = c.l1 := rfl
@[simp] theorem Core.setSeq_arrayAt (c : Core) (q : SeqId) (v : Seq) : (c.setSeq q v).arrayAt = c.arrayAt := rfl
@[simp] theorem Core.setSeq_clst (c : Core) (q : SeqId) (v : Seq) : (c.setSeq q v).clst = c.clst := rfl
@[simp] theorem Core.setSeq_clstCnt (c : Core) (q : SeqId) (v : Seq) : (c.setSeq q v).clstCnt = c.clstCnt := rfl
@[simp] theorem Core.setSeq_fqWait (c : Core) (q : SeqId) (v : Seq) : (c.setSeq q v).fqWait = c.fqWait := rfl
@[simp] theorem Core.setSeq_events (c : Core) (q : SeqId) (v : Seq) : (c.setSeq q v).events = c.events := rfl
@[simp] theorem Core.setSeq_lease (c : Core) (q : SeqId) (v : Seq) : (c.setSeq q v).lease = c.lease := rfl

/-! ### Core.setSys -/

@[simp] theorem Core.setSys_ctx (c : Core) (k : Nat) (v : Word) : (c.setSys k v).ctx = c.ctx := rfl
@[simp] theorem Core.setSys_seqs (c : Core) (k : Nat) (v : Word) : (c.setSys k v).seqs = c.seqs := rfl
@[simp] theorem Core.setSys_cycle (c : Core) (k : Nat) (v : Word) : (c.setSys k v).cycle = c.cycle := rfl
@[simp] theorem Core.setSys_tok (c : Core) (k : Nat) (v : Word) : (c.setSys k v).tok = c.tok := rfl
@[simp] theorem Core.setSys_resv (c : Core) (k : Nat) (v : Word) : (c.setSys k v).resv = c.resv := rfl
@[simp] theorem Core.setSys_cells (c : Core) (k : Nat) (v : Word) : (c.setSys k v).cells = c.cells := rfl
@[simp] theorem Core.setSys_neg (c : Core) (k : Nat) (v : Word) : (c.setSys k v).neg = c.neg := rfl
@[simp] theorem Core.setSys_mx (c : Core) (k : Nat) (v : Word) : (c.setSys k v).mx = c.mx := rfl
@[simp] theorem Core.setSys_nestTab (c : Core) (k : Nat) (v : Word) : (c.setSys k v).nestTab = c.nestTab := rfl
@[simp] theorem Core.setSys_nest (c : Core) (k : Nat) (v : Word) : (c.setSys k v).nest = c.nest := rfl
@[simp] theorem Core.setSys_reel (c : Core) (k : Nat) (v : Word) : (c.setSys k v).reel = c.reel := rfl
@[simp] theorem Core.setSys_reelAbort (c : Core) (k : Nat) (v : Word) : (c.setSys k v).reelAbort = c.reelAbort := rfl
@[simp] theorem Core.setSys_cueq (c : Core) (k : Nat) (v : Word) : (c.setSys k v).cueq = c.cueq := rfl
@[simp] theorem Core.setSys_cueWay (c : Core) (k : Nat) (v : Word) : (c.setSys k v).cueWay = c.cueWay := rfl
@[simp] theorem Core.setSys_cueBack (c : Core) (k : Nat) (v : Word) : (c.setSys k v).cueBack = c.cueBack := rfl
@[simp] theorem Core.setSys_streams (c : Core) (k : Nat) (v : Word) : (c.setSys k v).streams = c.streams := rfl
@[simp] theorem Core.setSys_grids (c : Core) (k : Nat) (v : Word) : (c.setSys k v).grids = c.grids := rfl
@[simp] theorem Core.setSys_flags (c : Core) (k : Nat) (v : Word) : (c.setSys k v).flags = c.flags := rfl
@[simp] theorem Core.setSys_bufs (c : Core) (k : Nat) (v : Word) : (c.setSys k v).bufs = c.bufs := rfl
@[simp] theorem Core.setSys_scopes (c : Core) (k : Nat) (v : Word) : (c.setSys k v).scopes = c.scopes := rfl
@[simp] theorem Core.setSys_ldq (c : Core) (k : Nat) (v : Word) : (c.setSys k v).ldq = c.ldq := rfl
@[simp] theorem Core.setSys_stq (c : Core) (k : Nat) (v : Word) : (c.setSys k v).stq = c.stq := rfl
@[simp] theorem Core.setSys_freeze (c : Core) (k : Nat) (v : Word) : (c.setSys k v).freeze = c.freeze := rfl
@[simp] theorem Core.setSys_notice (c : Core) (k : Nat) (v : Word) : (c.setSys k v).notice = c.notice := rfl
@[simp] theorem Core.setSys_paused (c : Core) (k : Nat) (v : Word) : (c.setSys k v).paused = c.paused := rfl
@[simp] theorem Core.setSys_snap (c : Core) (k : Nat) (v : Word) : (c.setSys k v).snap = c.snap := rfl
@[simp] theorem Core.setSys_icache (c : Core) (k : Nat) (v : Word) : (c.setSys k v).icache = c.icache := rfl
@[simp] theorem Core.setSys_scales (c : Core) (k : Nat) (v : Word) : (c.setSys k v).scales = c.scales := rfl
@[simp] theorem Core.setSys_tlb (c : Core) (k : Nat) (v : Word) : (c.setSys k v).tlb = c.tlb := rfl
@[simp] theorem Core.setSys_l1 (c : Core) (k : Nat) (v : Word) : (c.setSys k v).l1 = c.l1 := rfl
@[simp] theorem Core.setSys_arrayAt (c : Core) (k : Nat) (v : Word) : (c.setSys k v).arrayAt = c.arrayAt := rfl
@[simp] theorem Core.setSys_clst (c : Core) (k : Nat) (v : Word) : (c.setSys k v).clst = c.clst := rfl
@[simp] theorem Core.setSys_clstCnt (c : Core) (k : Nat) (v : Word) : (c.setSys k v).clstCnt = c.clstCnt := rfl
@[simp] theorem Core.setSys_fqWait (c : Core) (k : Nat) (v : Word) : (c.setSys k v).fqWait = c.fqWait := rfl
@[simp] theorem Core.setSys_events (c : Core) (k : Nat) (v : Word) : (c.setSys k v).events = c.events := rfl
@[simp] theorem Core.setSys_lease (c : Core) (k : Nat) (v : Word) : (c.setSys k v).lease = c.lease := rfl

/-! ### Core.setCell -/

@[simp] theorem Core.setCell_ctx (c : Core) (k : Nat) (v : W32) : (c.setCell k v).ctx = c.ctx := rfl
@[simp] theorem Core.setCell_seqs (c : Core) (k : Nat) (v : W32) : (c.setCell k v).seqs = c.seqs := rfl
@[simp] theorem Core.setCell_sys (c : Core) (k : Nat) (v : W32) : (c.setCell k v).sys = c.sys := rfl
@[simp] theorem Core.setCell_cycle (c : Core) (k : Nat) (v : W32) : (c.setCell k v).cycle = c.cycle := rfl
@[simp] theorem Core.setCell_tok (c : Core) (k : Nat) (v : W32) : (c.setCell k v).tok = c.tok := rfl
@[simp] theorem Core.setCell_resv (c : Core) (k : Nat) (v : W32) : (c.setCell k v).resv = c.resv := rfl
@[simp] theorem Core.setCell_neg (c : Core) (k : Nat) (v : W32) : (c.setCell k v).neg = c.neg := rfl
@[simp] theorem Core.setCell_mx (c : Core) (k : Nat) (v : W32) : (c.setCell k v).mx = c.mx := rfl
@[simp] theorem Core.setCell_nestTab (c : Core) (k : Nat) (v : W32) : (c.setCell k v).nestTab = c.nestTab := rfl
@[simp] theorem Core.setCell_nest (c : Core) (k : Nat) (v : W32) : (c.setCell k v).nest = c.nest := rfl
@[simp] theorem Core.setCell_reel (c : Core) (k : Nat) (v : W32) : (c.setCell k v).reel = c.reel := rfl
@[simp] theorem Core.setCell_reelAbort (c : Core) (k : Nat) (v : W32) : (c.setCell k v).reelAbort = c.reelAbort := rfl
@[simp] theorem Core.setCell_cueq (c : Core) (k : Nat) (v : W32) : (c.setCell k v).cueq = c.cueq := rfl
@[simp] theorem Core.setCell_cueWay (c : Core) (k : Nat) (v : W32) : (c.setCell k v).cueWay = c.cueWay := rfl
@[simp] theorem Core.setCell_cueBack (c : Core) (k : Nat) (v : W32) : (c.setCell k v).cueBack = c.cueBack := rfl
@[simp] theorem Core.setCell_streams (c : Core) (k : Nat) (v : W32) : (c.setCell k v).streams = c.streams := rfl
@[simp] theorem Core.setCell_grids (c : Core) (k : Nat) (v : W32) : (c.setCell k v).grids = c.grids := rfl
@[simp] theorem Core.setCell_flags (c : Core) (k : Nat) (v : W32) : (c.setCell k v).flags = c.flags := rfl
@[simp] theorem Core.setCell_bufs (c : Core) (k : Nat) (v : W32) : (c.setCell k v).bufs = c.bufs := rfl
@[simp] theorem Core.setCell_scopes (c : Core) (k : Nat) (v : W32) : (c.setCell k v).scopes = c.scopes := rfl
@[simp] theorem Core.setCell_ldq (c : Core) (k : Nat) (v : W32) : (c.setCell k v).ldq = c.ldq := rfl
@[simp] theorem Core.setCell_stq (c : Core) (k : Nat) (v : W32) : (c.setCell k v).stq = c.stq := rfl
@[simp] theorem Core.setCell_freeze (c : Core) (k : Nat) (v : W32) : (c.setCell k v).freeze = c.freeze := rfl
@[simp] theorem Core.setCell_notice (c : Core) (k : Nat) (v : W32) : (c.setCell k v).notice = c.notice := rfl
@[simp] theorem Core.setCell_paused (c : Core) (k : Nat) (v : W32) : (c.setCell k v).paused = c.paused := rfl
@[simp] theorem Core.setCell_snap (c : Core) (k : Nat) (v : W32) : (c.setCell k v).snap = c.snap := rfl
@[simp] theorem Core.setCell_icache (c : Core) (k : Nat) (v : W32) : (c.setCell k v).icache = c.icache := rfl
@[simp] theorem Core.setCell_scales (c : Core) (k : Nat) (v : W32) : (c.setCell k v).scales = c.scales := rfl
@[simp] theorem Core.setCell_tlb (c : Core) (k : Nat) (v : W32) : (c.setCell k v).tlb = c.tlb := rfl
@[simp] theorem Core.setCell_l1 (c : Core) (k : Nat) (v : W32) : (c.setCell k v).l1 = c.l1 := rfl
@[simp] theorem Core.setCell_arrayAt (c : Core) (k : Nat) (v : W32) : (c.setCell k v).arrayAt = c.arrayAt := rfl
@[simp] theorem Core.setCell_clst (c : Core) (k : Nat) (v : W32) : (c.setCell k v).clst = c.clst := rfl
@[simp] theorem Core.setCell_clstCnt (c : Core) (k : Nat) (v : W32) : (c.setCell k v).clstCnt = c.clstCnt := rfl
@[simp] theorem Core.setCell_fqWait (c : Core) (k : Nat) (v : W32) : (c.setCell k v).fqWait = c.fqWait := rfl
@[simp] theorem Core.setCell_events (c : Core) (k : Nat) (v : W32) : (c.setCell k v).events = c.events := rfl
@[simp] theorem Core.setCell_lease (c : Core) (k : Nat) (v : W32) : (c.setCell k v).lease = c.lease := rfl

/-! ### Core.setTokens -/

@[simp] theorem Core.setTokens_ctx (c : Core) (k v : Nat) : (c.setTokens k v).ctx = c.ctx := rfl
@[simp] theorem Core.setTokens_seqs (c : Core) (k v : Nat) : (c.setTokens k v).seqs = c.seqs := rfl
@[simp] theorem Core.setTokens_sys (c : Core) (k v : Nat) : (c.setTokens k v).sys = c.sys := rfl
@[simp] theorem Core.setTokens_cycle (c : Core) (k v : Nat) : (c.setTokens k v).cycle = c.cycle := rfl
@[simp] theorem Core.setTokens_resv (c : Core) (k v : Nat) : (c.setTokens k v).resv = c.resv := rfl
@[simp] theorem Core.setTokens_cells (c : Core) (k v : Nat) : (c.setTokens k v).cells = c.cells := rfl
@[simp] theorem Core.setTokens_neg (c : Core) (k v : Nat) : (c.setTokens k v).neg = c.neg := rfl
@[simp] theorem Core.setTokens_mx (c : Core) (k v : Nat) : (c.setTokens k v).mx = c.mx := rfl
@[simp] theorem Core.setTokens_nestTab (c : Core) (k v : Nat) : (c.setTokens k v).nestTab = c.nestTab := rfl
@[simp] theorem Core.setTokens_nest (c : Core) (k v : Nat) : (c.setTokens k v).nest = c.nest := rfl
@[simp] theorem Core.setTokens_reel (c : Core) (k v : Nat) : (c.setTokens k v).reel = c.reel := rfl
@[simp] theorem Core.setTokens_reelAbort (c : Core) (k v : Nat) : (c.setTokens k v).reelAbort = c.reelAbort := rfl
@[simp] theorem Core.setTokens_cueq (c : Core) (k v : Nat) : (c.setTokens k v).cueq = c.cueq := rfl
@[simp] theorem Core.setTokens_cueWay (c : Core) (k v : Nat) : (c.setTokens k v).cueWay = c.cueWay := rfl
@[simp] theorem Core.setTokens_cueBack (c : Core) (k v : Nat) : (c.setTokens k v).cueBack = c.cueBack := rfl
@[simp] theorem Core.setTokens_streams (c : Core) (k v : Nat) : (c.setTokens k v).streams = c.streams := rfl
@[simp] theorem Core.setTokens_grids (c : Core) (k v : Nat) : (c.setTokens k v).grids = c.grids := rfl
@[simp] theorem Core.setTokens_flags (c : Core) (k v : Nat) : (c.setTokens k v).flags = c.flags := rfl
@[simp] theorem Core.setTokens_bufs (c : Core) (k v : Nat) : (c.setTokens k v).bufs = c.bufs := rfl
@[simp] theorem Core.setTokens_scopes (c : Core) (k v : Nat) : (c.setTokens k v).scopes = c.scopes := rfl
@[simp] theorem Core.setTokens_ldq (c : Core) (k v : Nat) : (c.setTokens k v).ldq = c.ldq := rfl
@[simp] theorem Core.setTokens_stq (c : Core) (k v : Nat) : (c.setTokens k v).stq = c.stq := rfl
@[simp] theorem Core.setTokens_freeze (c : Core) (k v : Nat) : (c.setTokens k v).freeze = c.freeze := rfl
@[simp] theorem Core.setTokens_notice (c : Core) (k v : Nat) : (c.setTokens k v).notice = c.notice := rfl
@[simp] theorem Core.setTokens_paused (c : Core) (k v : Nat) : (c.setTokens k v).paused = c.paused := rfl
@[simp] theorem Core.setTokens_snap (c : Core) (k v : Nat) : (c.setTokens k v).snap = c.snap := rfl
@[simp] theorem Core.setTokens_icache (c : Core) (k v : Nat) : (c.setTokens k v).icache = c.icache := rfl
@[simp] theorem Core.setTokens_scales (c : Core) (k v : Nat) : (c.setTokens k v).scales = c.scales := rfl
@[simp] theorem Core.setTokens_tlb (c : Core) (k v : Nat) : (c.setTokens k v).tlb = c.tlb := rfl
@[simp] theorem Core.setTokens_l1 (c : Core) (k v : Nat) : (c.setTokens k v).l1 = c.l1 := rfl
@[simp] theorem Core.setTokens_arrayAt (c : Core) (k v : Nat) : (c.setTokens k v).arrayAt = c.arrayAt := rfl
@[simp] theorem Core.setTokens_clst (c : Core) (k v : Nat) : (c.setTokens k v).clst = c.clst := rfl
@[simp] theorem Core.setTokens_clstCnt (c : Core) (k v : Nat) : (c.setTokens k v).clstCnt = c.clstCnt := rfl
@[simp] theorem Core.setTokens_fqWait (c : Core) (k v : Nat) : (c.setTokens k v).fqWait = c.fqWait := rfl
@[simp] theorem Core.setTokens_events (c : Core) (k v : Nat) : (c.setTokens k v).events = c.events := rfl
@[simp] theorem Core.setTokens_lease (c : Core) (k v : Nat) : (c.setTokens k v).lease = c.lease := rfl

/-! ### Core.setReserved -/

@[simp] theorem Core.setReserved_ctx (c : Core) (k v : Nat) : (c.setReserved k v).ctx = c.ctx := rfl
@[simp] theorem Core.setReserved_seqs (c : Core) (k v : Nat) : (c.setReserved k v).seqs = c.seqs := rfl
@[simp] theorem Core.setReserved_sys (c : Core) (k v : Nat) : (c.setReserved k v).sys = c.sys := rfl
@[simp] theorem Core.setReserved_cycle (c : Core) (k v : Nat) : (c.setReserved k v).cycle = c.cycle := rfl
@[simp] theorem Core.setReserved_tok (c : Core) (k v : Nat) : (c.setReserved k v).tok = c.tok := rfl
@[simp] theorem Core.setReserved_cells (c : Core) (k v : Nat) : (c.setReserved k v).cells = c.cells := rfl
@[simp] theorem Core.setReserved_neg (c : Core) (k v : Nat) : (c.setReserved k v).neg = c.neg := rfl
@[simp] theorem Core.setReserved_mx (c : Core) (k v : Nat) : (c.setReserved k v).mx = c.mx := rfl
@[simp] theorem Core.setReserved_nestTab (c : Core) (k v : Nat) : (c.setReserved k v).nestTab = c.nestTab := rfl
@[simp] theorem Core.setReserved_nest (c : Core) (k v : Nat) : (c.setReserved k v).nest = c.nest := rfl
@[simp] theorem Core.setReserved_reel (c : Core) (k v : Nat) : (c.setReserved k v).reel = c.reel := rfl
@[simp] theorem Core.setReserved_reelAbort (c : Core) (k v : Nat) : (c.setReserved k v).reelAbort = c.reelAbort := rfl
@[simp] theorem Core.setReserved_cueq (c : Core) (k v : Nat) : (c.setReserved k v).cueq = c.cueq := rfl
@[simp] theorem Core.setReserved_cueWay (c : Core) (k v : Nat) : (c.setReserved k v).cueWay = c.cueWay := rfl
@[simp] theorem Core.setReserved_cueBack (c : Core) (k v : Nat) : (c.setReserved k v).cueBack = c.cueBack := rfl
@[simp] theorem Core.setReserved_streams (c : Core) (k v : Nat) : (c.setReserved k v).streams = c.streams := rfl
@[simp] theorem Core.setReserved_grids (c : Core) (k v : Nat) : (c.setReserved k v).grids = c.grids := rfl
@[simp] theorem Core.setReserved_flags (c : Core) (k v : Nat) : (c.setReserved k v).flags = c.flags := rfl
@[simp] theorem Core.setReserved_bufs (c : Core) (k v : Nat) : (c.setReserved k v).bufs = c.bufs := rfl
@[simp] theorem Core.setReserved_scopes (c : Core) (k v : Nat) : (c.setReserved k v).scopes = c.scopes := rfl
@[simp] theorem Core.setReserved_ldq (c : Core) (k v : Nat) : (c.setReserved k v).ldq = c.ldq := rfl
@[simp] theorem Core.setReserved_stq (c : Core) (k v : Nat) : (c.setReserved k v).stq = c.stq := rfl
@[simp] theorem Core.setReserved_freeze (c : Core) (k v : Nat) : (c.setReserved k v).freeze = c.freeze := rfl
@[simp] theorem Core.setReserved_notice (c : Core) (k v : Nat) : (c.setReserved k v).notice = c.notice := rfl
@[simp] theorem Core.setReserved_paused (c : Core) (k v : Nat) : (c.setReserved k v).paused = c.paused := rfl
@[simp] theorem Core.setReserved_snap (c : Core) (k v : Nat) : (c.setReserved k v).snap = c.snap := rfl
@[simp] theorem Core.setReserved_icache (c : Core) (k v : Nat) : (c.setReserved k v).icache = c.icache := rfl
@[simp] theorem Core.setReserved_scales (c : Core) (k v : Nat) : (c.setReserved k v).scales = c.scales := rfl
@[simp] theorem Core.setReserved_tlb (c : Core) (k v : Nat) : (c.setReserved k v).tlb = c.tlb := rfl
@[simp] theorem Core.setReserved_l1 (c : Core) (k v : Nat) : (c.setReserved k v).l1 = c.l1 := rfl
@[simp] theorem Core.setReserved_arrayAt (c : Core) (k v : Nat) : (c.setReserved k v).arrayAt = c.arrayAt := rfl
@[simp] theorem Core.setReserved_clst (c : Core) (k v : Nat) : (c.setReserved k v).clst = c.clst := rfl
@[simp] theorem Core.setReserved_clstCnt (c : Core) (k v : Nat) : (c.setReserved k v).clstCnt = c.clstCnt := rfl
@[simp] theorem Core.setReserved_fqWait (c : Core) (k v : Nat) : (c.setReserved k v).fqWait = c.fqWait := rfl
@[simp] theorem Core.setReserved_events (c : Core) (k v : Nat) : (c.setReserved k v).events = c.events := rfl
@[simp] theorem Core.setReserved_lease (c : Core) (k v : Nat) : (c.setReserved k v).lease = c.lease := rfl

/-! ### Core.setAcc -/

@[simp] theorem Core.setAcc_ctx (c : Core) (i r k : Nat) (v : W32) : (c.setAcc i r k v).ctx = c.ctx := rfl
@[simp] theorem Core.setAcc_seqs (c : Core) (i r k : Nat) (v : W32) : (c.setAcc i r k v).seqs = c.seqs := rfl
@[simp] theorem Core.setAcc_sys (c : Core) (i r k : Nat) (v : W32) : (c.setAcc i r k v).sys = c.sys := rfl
@[simp] theorem Core.setAcc_cycle (c : Core) (i r k : Nat) (v : W32) : (c.setAcc i r k v).cycle = c.cycle := rfl
@[simp] theorem Core.setAcc_tok (c : Core) (i r k : Nat) (v : W32) : (c.setAcc i r k v).tok = c.tok := rfl
@[simp] theorem Core.setAcc_resv (c : Core) (i r k : Nat) (v : W32) : (c.setAcc i r k v).resv = c.resv := rfl
@[simp] theorem Core.setAcc_cells (c : Core) (i r k : Nat) (v : W32) : (c.setAcc i r k v).cells = c.cells := rfl
@[simp] theorem Core.setAcc_neg (c : Core) (i r k : Nat) (v : W32) : (c.setAcc i r k v).neg = c.neg := rfl
@[simp] theorem Core.setAcc_nestTab (c : Core) (i r k : Nat) (v : W32) : (c.setAcc i r k v).nestTab = c.nestTab := rfl
@[simp] theorem Core.setAcc_nest (c : Core) (i r k : Nat) (v : W32) : (c.setAcc i r k v).nest = c.nest := rfl
@[simp] theorem Core.setAcc_reel (c : Core) (i r k : Nat) (v : W32) : (c.setAcc i r k v).reel = c.reel := rfl
@[simp] theorem Core.setAcc_reelAbort (c : Core) (i r k : Nat) (v : W32) : (c.setAcc i r k v).reelAbort = c.reelAbort := rfl
@[simp] theorem Core.setAcc_cueq (c : Core) (i r k : Nat) (v : W32) : (c.setAcc i r k v).cueq = c.cueq := rfl
@[simp] theorem Core.setAcc_cueWay (c : Core) (i r k : Nat) (v : W32) : (c.setAcc i r k v).cueWay = c.cueWay := rfl
@[simp] theorem Core.setAcc_cueBack (c : Core) (i r k : Nat) (v : W32) : (c.setAcc i r k v).cueBack = c.cueBack := rfl
@[simp] theorem Core.setAcc_streams (c : Core) (i r k : Nat) (v : W32) : (c.setAcc i r k v).streams = c.streams := rfl
@[simp] theorem Core.setAcc_grids (c : Core) (i r k : Nat) (v : W32) : (c.setAcc i r k v).grids = c.grids := rfl
@[simp] theorem Core.setAcc_flags (c : Core) (i r k : Nat) (v : W32) : (c.setAcc i r k v).flags = c.flags := rfl
@[simp] theorem Core.setAcc_bufs (c : Core) (i r k : Nat) (v : W32) : (c.setAcc i r k v).bufs = c.bufs := rfl
@[simp] theorem Core.setAcc_scopes (c : Core) (i r k : Nat) (v : W32) : (c.setAcc i r k v).scopes = c.scopes := rfl
@[simp] theorem Core.setAcc_ldq (c : Core) (i r k : Nat) (v : W32) : (c.setAcc i r k v).ldq = c.ldq := rfl
@[simp] theorem Core.setAcc_stq (c : Core) (i r k : Nat) (v : W32) : (c.setAcc i r k v).stq = c.stq := rfl
@[simp] theorem Core.setAcc_freeze (c : Core) (i r k : Nat) (v : W32) : (c.setAcc i r k v).freeze = c.freeze := rfl
@[simp] theorem Core.setAcc_notice (c : Core) (i r k : Nat) (v : W32) : (c.setAcc i r k v).notice = c.notice := rfl
@[simp] theorem Core.setAcc_paused (c : Core) (i r k : Nat) (v : W32) : (c.setAcc i r k v).paused = c.paused := rfl
@[simp] theorem Core.setAcc_snap (c : Core) (i r k : Nat) (v : W32) : (c.setAcc i r k v).snap = c.snap := rfl
@[simp] theorem Core.setAcc_icache (c : Core) (i r k : Nat) (v : W32) : (c.setAcc i r k v).icache = c.icache := rfl
@[simp] theorem Core.setAcc_scales (c : Core) (i r k : Nat) (v : W32) : (c.setAcc i r k v).scales = c.scales := rfl
@[simp] theorem Core.setAcc_tlb (c : Core) (i r k : Nat) (v : W32) : (c.setAcc i r k v).tlb = c.tlb := rfl
@[simp] theorem Core.setAcc_l1 (c : Core) (i r k : Nat) (v : W32) : (c.setAcc i r k v).l1 = c.l1 := rfl
@[simp] theorem Core.setAcc_arrayAt (c : Core) (i r k : Nat) (v : W32) : (c.setAcc i r k v).arrayAt = c.arrayAt := rfl
@[simp] theorem Core.setAcc_clst (c : Core) (i r k : Nat) (v : W32) : (c.setAcc i r k v).clst = c.clst := rfl
@[simp] theorem Core.setAcc_clstCnt (c : Core) (i r k : Nat) (v : W32) : (c.setAcc i r k v).clstCnt = c.clstCnt := rfl
@[simp] theorem Core.setAcc_fqWait (c : Core) (i r k : Nat) (v : W32) : (c.setAcc i r k v).fqWait = c.fqWait := rfl
@[simp] theorem Core.setAcc_events (c : Core) (i r k : Nat) (v : W32) : (c.setAcc i r k v).events = c.events := rfl
@[simp] theorem Core.setAcc_lease (c : Core) (i r k : Nat) (v : W32) : (c.setAcc i r k v).lease = c.lease := rfl

/-! ### Core.setFill -/

@[simp] theorem Core.setFill_ctx (c : Core) (k : Nat) (b : Bool) : (c.setFill k b).ctx = c.ctx := rfl
@[simp] theorem Core.setFill_seqs (c : Core) (k : Nat) (b : Bool) : (c.setFill k b).seqs = c.seqs := rfl
@[simp] theorem Core.setFill_sys (c : Core) (k : Nat) (b : Bool) : (c.setFill k b).sys = c.sys := rfl
@[simp] theorem Core.setFill_cycle (c : Core) (k : Nat) (b : Bool) : (c.setFill k b).cycle = c.cycle := rfl
@[simp] theorem Core.setFill_tok (c : Core) (k : Nat) (b : Bool) : (c.setFill k b).tok = c.tok := rfl
@[simp] theorem Core.setFill_resv (c : Core) (k : Nat) (b : Bool) : (c.setFill k b).resv = c.resv := rfl
@[simp] theorem Core.setFill_cells (c : Core) (k : Nat) (b : Bool) : (c.setFill k b).cells = c.cells := rfl
@[simp] theorem Core.setFill_neg (c : Core) (k : Nat) (b : Bool) : (c.setFill k b).neg = c.neg := rfl
@[simp] theorem Core.setFill_nestTab (c : Core) (k : Nat) (b : Bool) : (c.setFill k b).nestTab = c.nestTab := rfl
@[simp] theorem Core.setFill_nest (c : Core) (k : Nat) (b : Bool) : (c.setFill k b).nest = c.nest := rfl
@[simp] theorem Core.setFill_reel (c : Core) (k : Nat) (b : Bool) : (c.setFill k b).reel = c.reel := rfl
@[simp] theorem Core.setFill_reelAbort (c : Core) (k : Nat) (b : Bool) : (c.setFill k b).reelAbort = c.reelAbort := rfl
@[simp] theorem Core.setFill_cueq (c : Core) (k : Nat) (b : Bool) : (c.setFill k b).cueq = c.cueq := rfl
@[simp] theorem Core.setFill_cueWay (c : Core) (k : Nat) (b : Bool) : (c.setFill k b).cueWay = c.cueWay := rfl
@[simp] theorem Core.setFill_cueBack (c : Core) (k : Nat) (b : Bool) : (c.setFill k b).cueBack = c.cueBack := rfl
@[simp] theorem Core.setFill_streams (c : Core) (k : Nat) (b : Bool) : (c.setFill k b).streams = c.streams := rfl
@[simp] theorem Core.setFill_grids (c : Core) (k : Nat) (b : Bool) : (c.setFill k b).grids = c.grids := rfl
@[simp] theorem Core.setFill_flags (c : Core) (k : Nat) (b : Bool) : (c.setFill k b).flags = c.flags := rfl
@[simp] theorem Core.setFill_bufs (c : Core) (k : Nat) (b : Bool) : (c.setFill k b).bufs = c.bufs := rfl
@[simp] theorem Core.setFill_scopes (c : Core) (k : Nat) (b : Bool) : (c.setFill k b).scopes = c.scopes := rfl
@[simp] theorem Core.setFill_ldq (c : Core) (k : Nat) (b : Bool) : (c.setFill k b).ldq = c.ldq := rfl
@[simp] theorem Core.setFill_stq (c : Core) (k : Nat) (b : Bool) : (c.setFill k b).stq = c.stq := rfl
@[simp] theorem Core.setFill_freeze (c : Core) (k : Nat) (b : Bool) : (c.setFill k b).freeze = c.freeze := rfl
@[simp] theorem Core.setFill_notice (c : Core) (k : Nat) (b : Bool) : (c.setFill k b).notice = c.notice := rfl
@[simp] theorem Core.setFill_paused (c : Core) (k : Nat) (b : Bool) : (c.setFill k b).paused = c.paused := rfl
@[simp] theorem Core.setFill_snap (c : Core) (k : Nat) (b : Bool) : (c.setFill k b).snap = c.snap := rfl
@[simp] theorem Core.setFill_icache (c : Core) (k : Nat) (b : Bool) : (c.setFill k b).icache = c.icache := rfl
@[simp] theorem Core.setFill_scales (c : Core) (k : Nat) (b : Bool) : (c.setFill k b).scales = c.scales := rfl
@[simp] theorem Core.setFill_tlb (c : Core) (k : Nat) (b : Bool) : (c.setFill k b).tlb = c.tlb := rfl
@[simp] theorem Core.setFill_l1 (c : Core) (k : Nat) (b : Bool) : (c.setFill k b).l1 = c.l1 := rfl
@[simp] theorem Core.setFill_arrayAt (c : Core) (k : Nat) (b : Bool) : (c.setFill k b).arrayAt = c.arrayAt := rfl
@[simp] theorem Core.setFill_clst (c : Core) (k : Nat) (b : Bool) : (c.setFill k b).clst = c.clst := rfl
@[simp] theorem Core.setFill_clstCnt (c : Core) (k : Nat) (b : Bool) : (c.setFill k b).clstCnt = c.clstCnt := rfl
@[simp] theorem Core.setFill_fqWait (c : Core) (k : Nat) (b : Bool) : (c.setFill k b).fqWait = c.fqWait := rfl
@[simp] theorem Core.setFill_events (c : Core) (k : Nat) (b : Bool) : (c.setFill k b).events = c.events := rfl
@[simp] theorem Core.setFill_lease (c : Core) (k : Nat) (b : Bool) : (c.setFill k b).lease = c.lease := rfl

/-! ### Core.setBuf -/

@[simp] theorem Core.setBuf_ctx (c : Core) (e : Nat) (b : Buf) : (c.setBuf e b).ctx = c.ctx := rfl
@[simp] theorem Core.setBuf_seqs (c : Core) (e : Nat) (b : Buf) : (c.setBuf e b).seqs = c.seqs := rfl
@[simp] theorem Core.setBuf_sys (c : Core) (e : Nat) (b : Buf) : (c.setBuf e b).sys = c.sys := rfl
@[simp] theorem Core.setBuf_cycle (c : Core) (e : Nat) (b : Buf) : (c.setBuf e b).cycle = c.cycle := rfl
@[simp] theorem Core.setBuf_tok (c : Core) (e : Nat) (b : Buf) : (c.setBuf e b).tok = c.tok := rfl
@[simp] theorem Core.setBuf_resv (c : Core) (e : Nat) (b : Buf) : (c.setBuf e b).resv = c.resv := rfl
@[simp] theorem Core.setBuf_cells (c : Core) (e : Nat) (b : Buf) : (c.setBuf e b).cells = c.cells := rfl
@[simp] theorem Core.setBuf_neg (c : Core) (e : Nat) (b : Buf) : (c.setBuf e b).neg = c.neg := rfl
@[simp] theorem Core.setBuf_mx (c : Core) (e : Nat) (b : Buf) : (c.setBuf e b).mx = c.mx := rfl
@[simp] theorem Core.setBuf_nestTab (c : Core) (e : Nat) (b : Buf) : (c.setBuf e b).nestTab = c.nestTab := rfl
@[simp] theorem Core.setBuf_nest (c : Core) (e : Nat) (b : Buf) : (c.setBuf e b).nest = c.nest := rfl
@[simp] theorem Core.setBuf_reel (c : Core) (e : Nat) (b : Buf) : (c.setBuf e b).reel = c.reel := rfl
@[simp] theorem Core.setBuf_reelAbort (c : Core) (e : Nat) (b : Buf) : (c.setBuf e b).reelAbort = c.reelAbort := rfl
@[simp] theorem Core.setBuf_cueq (c : Core) (e : Nat) (b : Buf) : (c.setBuf e b).cueq = c.cueq := rfl
@[simp] theorem Core.setBuf_cueWay (c : Core) (e : Nat) (b : Buf) : (c.setBuf e b).cueWay = c.cueWay := rfl
@[simp] theorem Core.setBuf_cueBack (c : Core) (e : Nat) (b : Buf) : (c.setBuf e b).cueBack = c.cueBack := rfl
@[simp] theorem Core.setBuf_streams (c : Core) (e : Nat) (b : Buf) : (c.setBuf e b).streams = c.streams := rfl
@[simp] theorem Core.setBuf_grids (c : Core) (e : Nat) (b : Buf) : (c.setBuf e b).grids = c.grids := rfl
@[simp] theorem Core.setBuf_flags (c : Core) (e : Nat) (b : Buf) : (c.setBuf e b).flags = c.flags := rfl
@[simp] theorem Core.setBuf_scopes (c : Core) (e : Nat) (b : Buf) : (c.setBuf e b).scopes = c.scopes := rfl
@[simp] theorem Core.setBuf_ldq (c : Core) (e : Nat) (b : Buf) : (c.setBuf e b).ldq = c.ldq := rfl
@[simp] theorem Core.setBuf_stq (c : Core) (e : Nat) (b : Buf) : (c.setBuf e b).stq = c.stq := rfl
@[simp] theorem Core.setBuf_freeze (c : Core) (e : Nat) (b : Buf) : (c.setBuf e b).freeze = c.freeze := rfl
@[simp] theorem Core.setBuf_notice (c : Core) (e : Nat) (b : Buf) : (c.setBuf e b).notice = c.notice := rfl
@[simp] theorem Core.setBuf_paused (c : Core) (e : Nat) (b : Buf) : (c.setBuf e b).paused = c.paused := rfl
@[simp] theorem Core.setBuf_snap (c : Core) (e : Nat) (b : Buf) : (c.setBuf e b).snap = c.snap := rfl
@[simp] theorem Core.setBuf_icache (c : Core) (e : Nat) (b : Buf) : (c.setBuf e b).icache = c.icache := rfl
@[simp] theorem Core.setBuf_scales (c : Core) (e : Nat) (b : Buf) : (c.setBuf e b).scales = c.scales := rfl
@[simp] theorem Core.setBuf_tlb (c : Core) (e : Nat) (b : Buf) : (c.setBuf e b).tlb = c.tlb := rfl
@[simp] theorem Core.setBuf_l1 (c : Core) (e : Nat) (b : Buf) : (c.setBuf e b).l1 = c.l1 := rfl
@[simp] theorem Core.setBuf_arrayAt (c : Core) (e : Nat) (b : Buf) : (c.setBuf e b).arrayAt = c.arrayAt := rfl
@[simp] theorem Core.setBuf_clst (c : Core) (e : Nat) (b : Buf) : (c.setBuf e b).clst = c.clst := rfl
@[simp] theorem Core.setBuf_clstCnt (c : Core) (e : Nat) (b : Buf) : (c.setBuf e b).clstCnt = c.clstCnt := rfl
@[simp] theorem Core.setBuf_fqWait (c : Core) (e : Nat) (b : Buf) : (c.setBuf e b).fqWait = c.fqWait := rfl
@[simp] theorem Core.setBuf_events (c : Core) (e : Nat) (b : Buf) : (c.setBuf e b).events = c.events := rfl
@[simp] theorem Core.setBuf_lease (c : Core) (e : Nat) (b : Buf) : (c.setBuf e b).lease = c.lease := rfl

/-! ### Seq.setReg -/

@[simp] theorem Seq.setReg_pc (q0 : Seq) (r : BitVec 5) (v : Word) : (q0.setReg r v).pc = q0.pc := rfl
@[simp] theorem Seq.setReg_sys (q0 : Seq) (r : BitVec 5) (v : Word) : (q0.setReg r v).sys = q0.sys := rfl
@[simp] theorem Seq.setReg_run (q0 : Seq) (r : BitVec 5) (v : Word) : (q0.setReg r v).run = q0.run := rfl
@[simp] theorem Seq.setReg_latch (q0 : Seq) (r : BitVec 5) (v : Word) : (q0.setReg r v).latch = q0.latch := rfl
@[simp] theorem Seq.setReg_wait (q0 : Seq) (r : BitVec 5) (v : Word) : (q0.setReg r v).wait = q0.wait := rfl
@[simp] theorem Seq.setReg_mark (q0 : Seq) (r : BitVec 5) (v : Word) : (q0.setReg r v).mark = q0.mark := rfl
@[simp] theorem Seq.setReg_hist (q0 : Seq) (r : BitVec 5) (v : Word) : (q0.setReg r v).hist = q0.hist := rfl
@[simp] theorem Seq.setReg_jumped (q0 : Seq) (r : BitVec 5) (v : Word) : (q0.setReg r v).jumped = q0.jumped := rfl
@[simp] theorem Seq.setReg_queue (q0 : Seq) (r : BitVec 5) (v : Word) : (q0.setReg r v).queue = q0.queue := rfl
@[simp] theorem Seq.setReg_flights (q0 : Seq) (r : BitVec 5) (v : Word) : (q0.setReg r v).flights = q0.flights := rfl
@[simp] theorem Seq.setReg_last (q0 : Seq) (r : BitVec 5) (v : Word) : (q0.setReg r v).last = q0.last := rfl
@[simp] theorem Seq.setReg_occ (q0 : Seq) (r : BitVec 5) (v : Word) : (q0.setReg r v).occ = q0.occ := rfl
@[simp] theorem Seq.setReg_age (q0 : Seq) (r : BitVec 5) (v : Word) : (q0.setReg r v).age = q0.age := rfl
@[simp] theorem Seq.setReg_halting (q0 : Seq) (r : BitVec 5) (v : Word) : (q0.setReg r v).halting = q0.halting := rfl
@[simp] theorem Seq.setReg_skipBp (q0 : Seq) (r : BitVec 5) (v : Word) : (q0.setReg r v).skipBp = q0.skipBp := rfl
@[simp] theorem Seq.setReg_xo (q0 : Seq) (r : BitVec 5) (v : Word) : (q0.setReg r v).xo = q0.xo := rfl
@[simp] theorem Seq.setReg_remote (q0 : Seq) (r : BitVec 5) (v : Word) : (q0.setReg r v).remote = q0.remote := rfl
@[simp] theorem Seq.setReg_notice (q0 : Seq) (r : BitVec 5) (v : Word) : (q0.setReg r v).notice = q0.notice := rfl

/-! ### Seq.setSys -/

@[simp] theorem Seq.setSys_pc (q0 : Seq) (k : Nat) (v : Word) : (q0.setSys k v).pc = q0.pc := rfl
@[simp] theorem Seq.setSys_regs (q0 : Seq) (k : Nat) (v : Word) : (q0.setSys k v).regs = q0.regs := rfl
@[simp] theorem Seq.setSys_run (q0 : Seq) (k : Nat) (v : Word) : (q0.setSys k v).run = q0.run := rfl
@[simp] theorem Seq.setSys_latch (q0 : Seq) (k : Nat) (v : Word) : (q0.setSys k v).latch = q0.latch := rfl
@[simp] theorem Seq.setSys_wait (q0 : Seq) (k : Nat) (v : Word) : (q0.setSys k v).wait = q0.wait := rfl
@[simp] theorem Seq.setSys_mark (q0 : Seq) (k : Nat) (v : Word) : (q0.setSys k v).mark = q0.mark := rfl
@[simp] theorem Seq.setSys_hist (q0 : Seq) (k : Nat) (v : Word) : (q0.setSys k v).hist = q0.hist := rfl
@[simp] theorem Seq.setSys_jumped (q0 : Seq) (k : Nat) (v : Word) : (q0.setSys k v).jumped = q0.jumped := rfl
@[simp] theorem Seq.setSys_queue (q0 : Seq) (k : Nat) (v : Word) : (q0.setSys k v).queue = q0.queue := rfl
@[simp] theorem Seq.setSys_flights (q0 : Seq) (k : Nat) (v : Word) : (q0.setSys k v).flights = q0.flights := rfl
@[simp] theorem Seq.setSys_last (q0 : Seq) (k : Nat) (v : Word) : (q0.setSys k v).last = q0.last := rfl
@[simp] theorem Seq.setSys_occ (q0 : Seq) (k : Nat) (v : Word) : (q0.setSys k v).occ = q0.occ := rfl
@[simp] theorem Seq.setSys_age (q0 : Seq) (k : Nat) (v : Word) : (q0.setSys k v).age = q0.age := rfl
@[simp] theorem Seq.setSys_halting (q0 : Seq) (k : Nat) (v : Word) : (q0.setSys k v).halting = q0.halting := rfl
@[simp] theorem Seq.setSys_skipBp (q0 : Seq) (k : Nat) (v : Word) : (q0.setSys k v).skipBp = q0.skipBp := rfl
@[simp] theorem Seq.setSys_xo (q0 : Seq) (k : Nat) (v : Word) : (q0.setSys k v).xo = q0.xo := rfl
@[simp] theorem Seq.setSys_remote (q0 : Seq) (k : Nat) (v : Word) : (q0.setSys k v).remote = q0.remote := rfl
@[simp] theorem Seq.setSys_notice (q0 : Seq) (k : Nat) (v : Word) : (q0.setSys k v).notice = q0.notice := rfl

/-! ### Bay.setRing -/

@[simp] theorem Bay.setRing_mib (b0 : Bay) (e : Nat) (r : Ring) : (b0.setRing e r).mib = b0.mib := rfl
@[simp] theorem Bay.setRing_drain (b0 : Bay) (e : Nat) (r : Ring) : (b0.setRing e r).drain = b0.drain := rfl
@[simp] theorem Bay.setRing_tlb (b0 : Bay) (e : Nat) (r : Ring) : (b0.setRing e r).tlb = b0.tlb := rfl
@[simp] theorem Bay.setRing_line (b0 : Bay) (e : Nat) (r : Ring) : (b0.setRing e r).line = b0.line := rfl

/-! ### Quad.setSys -/

@[simp] theorem Quad.setSys_grants (k0 : Quad) (k : Nat) (v : Word) : (k0.setSys k v).grants = k0.grants := rfl
@[simp] theorem Quad.setSys_asks (k0 : Quad) (k : Nat) (v : Word) : (k0.setSys k v).asks = k0.asks := rfl
@[simp] theorem Quad.setSys_late (k0 : Quad) (k : Nat) (v : Word) : (k0.setSys k v).late = k0.late := rfl
@[simp] theorem Quad.setSys_turn (k0 : Quad) (k : Nat) (v : Word) : (k0.setSys k v).turn = k0.turn := rfl

/-! ### Stack.setSys -/

@[simp] theorem Stack.setSys_fqRoot (k0 : Stack) (k : Nat) (v : Word) : (k0.setSys k v).fqRoot = k0.fqRoot := rfl
@[simp] theorem Stack.setSys_fqKey (k0 : Stack) (k : Nat) (v : Word) : (k0.setSys k v).fqKey = k0.fqKey := rfl
@[simp] theorem Stack.setSys_board (k0 : Stack) (k : Nat) (v : Word) : (k0.setSys k v).board = k0.board := rfl
@[simp] theorem Stack.setSys_clock (k0 : Stack) (k : Nat) (v : Word) : (k0.setSys k v).clock = k0.clock := rfl
@[simp] theorem Stack.setSys_gated (k0 : Stack) (k : Nat) (v : Word) : (k0.setSys k v).gated = k0.gated := rfl
@[simp] theorem Stack.setSys_holds (k0 : Stack) (k : Nat) (v : Word) : (k0.setSys k v).holds = k0.holds := rfl
@[simp] theorem Stack.setSys_wakes (k0 : Stack) (k : Nat) (v : Word) : (k0.setSys k v).wakes = k0.wakes := rfl
@[simp] theorem Stack.setSys_wakeAt (k0 : Stack) (k : Nat) (v : Word) : (k0.setSys k v).wakeAt = k0.wakeAt := rfl
@[simp] theorem Stack.setSys_turn (k0 : Stack) (k : Nat) (v : Word) : (k0.setSys k v).turn = k0.turn := rfl
@[simp] theorem Stack.setSys_launched (k0 : Stack) (k : Nat) (v : Word) : (k0.setSys k v).launched = k0.launched := rfl

/-! ### Pkg.setSys -/

@[simp] theorem Pkg.setSys_seqNums (p0 : Pkg) (k : Nat) (v : Word) : (p0.setSys k v).seqNums = p0.seqNums := rfl
@[simp] theorem Pkg.setSys_disabled (p0 : Pkg) (k : Nat) (v : Word) : (p0.setSys k v).disabled = p0.disabled := rfl
@[simp] theorem Pkg.setSys_retired (p0 : Pkg) (k : Nat) (v : Word) : (p0.setSys k v).retired = p0.retired := rfl
@[simp] theorem Pkg.setSys_fatal (p0 : Pkg) (k : Nat) (v : Word) : (p0.setSys k v).fatal = p0.fatal := rfl
@[simp] theorem Pkg.setSys_boots (p0 : Pkg) (k : Nat) (v : Word) : (p0.setSys k v).boots = p0.boots := rfl
@[simp] theorem Pkg.setSys_fqLog (p0 : Pkg) (k : Nat) (v : Word) : (p0.setSys k v).fqLog = p0.fqLog := rfl
@[simp] theorem Pkg.setSys_report (p0 : Pkg) (k : Nat) (v : Word) : (p0.setSys k v).report = p0.report := rfl
@[simp] theorem Pkg.setSys_vfs (p0 : Pkg) (k : Nat) (v : Word) : (p0.setSys k v).vfs = p0.vfs := rfl
@[simp] theorem Pkg.setSys_replays (p0 : Pkg) (k : Nat) (v : Word) : (p0.setSys k v).replays = p0.replays := rfl
@[simp] theorem Pkg.setSys_permitLog (p0 : Pkg) (k : Nat) (v : Word) : (p0.setSys k v).permitLog = p0.permitLog := rfl
@[simp] theorem Pkg.setSys_errorLog (p0 : Pkg) (k : Nat) (v : Word) : (p0.setSys k v).errorLog = p0.errorLog := rfl

/-! ### Tables -/

theorem Tab.get_put_same {α : Type} (t : Tab α) (k : Nat) (v d : α) : Tab.get (Tab.put t k v) k d = v := by
  induction t with
  | nil => simp [Tab.put, Tab.get]
  | cons p r ih =>
    obtain ⟨k', v'⟩ := p
    simp only [Tab.put]
    split
    · simp [Tab.get]
    · split
      · simp [Tab.get]
      · rename_i h; simp [Tab.get, h, ih]

theorem Tab.get_put_other {α : Type} (t : Tab α) (k j : Nat) (v d : α) (h : j ≠ k) :
    Tab.get (Tab.put t k v) j d = Tab.get t j d := by
  induction t with
  | nil => simp [Tab.put, Tab.get, Ne.symm h]
  | cons p r ih =>
    obtain ⟨k', v'⟩ := p
    simp only [Tab.put]
    split
    · simp [Tab.get, Ne.symm h]
    · split
      · rename_i h2; subst h2; simp [Tab.get, Ne.symm h]
      · simp [Tab.get, ih]

theorem Tab.get_del_same {α : Type} (t : Tab α) (k : Nat) (d : α) : Tab.get (Tab.del t k) k d = d := by
  induction t with
  | nil => simp [Tab.del, Tab.get]
  | cons p r ih =>
    obtain ⟨k', v'⟩ := p
    by_cases h : k' = k
    · subst h; simpa [Tab.del] using ih
    · simp only [Tab.del, List.filter_cons, bne_iff_ne, ne_eq, h, not_false_eq_true, if_true, Tab.get, if_false]
      exact ih

theorem Tab.get_del_other {α : Type} (t : Tab α) (k j : Nat) (d : α) (h : j ≠ k) :
    Tab.get (Tab.del t k) j d = Tab.get t j d := by
  induction t with
  | nil => simp [Tab.del, Tab.get]
  | cons p r ih =>
    obtain ⟨k', v'⟩ := p
    by_cases h2 : k' = k
    · subst h2
      have : Tab.del ((k', v') :: r) k' = Tab.del r k' := by simp [Tab.del]
      rw [this, ih]; simp [Tab.get, Ne.symm h]
    · have : Tab.del ((k', v') :: r) k = (k', v') :: Tab.del r k := by simp [Tab.del, h2]
      rw [this]; simp [Tab.get, ih]

/-- A sparse table reads back what was written. -/
@[simp] theorem Tab.get_put0_same {α : Type} [DecidableEq α] (z : α) (t : Tab α) (k : Nat) (v : α) :
    Tab.get (Tab.put0 z t k v) k z = v := by
  unfold Tab.put0
  split
  · rename_i h; rw [h]; exact Tab.get_del_same t k z
  · exact Tab.get_put_same t k v z

/-- A write leaves every other key alone. -/
theorem Tab.get_put0_other {α : Type} [DecidableEq α] (z : α) (t : Tab α) (k j : Nat) (v d : α) (h : j ≠ k) :
    Tab.get (Tab.put0 z t k v) j d = Tab.get t j d := by
  unfold Tab.put0
  split
  · exact Tab.get_del_other t k j d h
  · exact Tab.get_put_other t k j v d h

/-! ### Cores and sequencers -/

@[simp] theorem Four.get_set_same {α : Type} (f : Four α) (q : SeqId) (v : α) : (f.set q v).get q = v := by
  cases q <;> rfl

theorem Four.get_set_other {α : Type} (f : Four α) (q r : SeqId) (v : α) (h : r ≠ q) : (f.set q v).get r = f.get r := by
  cases q <;> cases r <;> first | rfl | exact absurd rfl h

@[simp] theorem Four.set_get {α : Type} (f : Four α) (q : SeqId) : f.set q (f.get q) = f := by
  cases q <;> rfl

@[simp] theorem Four.set_set {α : Type} (f : Four α) (q : SeqId) (v w : α) : (f.set q v).set q w = f.set q w := by
  cases q <;> rfl

@[simp] theorem State.core_setCore_same (s : State) (n : Nat) (c : Core) : (s.setCore n c).core n = c :=
  Tab.get_put_same _ _ _ _

theorem State.core_setCore_other (s : State) (n m : Nat) (c : Core) (h : m ≠ n) : (s.setCore n c).core m = s.core m :=
  Tab.get_put_other _ _ _ _ _ h

@[simp] theorem State.core_modCore_same (s : State) (n : Nat) (g : Core → Core) : (s.modCore n g).core n = g (s.core n) :=
  State.core_setCore_same _ _ _

theorem State.core_modCore_other (s : State) (n m : Nat) (g : Core → Core) (h : m ≠ n) : (s.modCore n g).core m = s.core m :=
  State.core_setCore_other _ _ _ _ h

@[simp] theorem State.core_setSeq_same (s : State) (n : Nat) (q : SeqId) (v : Seq) :
    (s.setSeq n q v).core n = (s.core n).setSeq q v := State.core_modCore_same _ _ _

theorem State.core_setSeq_other (s : State) (n m : Nat) (q : SeqId) (v : Seq) (h : m ≠ n) :
    (s.setSeq n q v).core m = s.core m := State.core_modCore_other _ _ _ _ h

@[simp] theorem State.core_modSeq_same (s : State) (n : Nat) (q : SeqId) (g : Seq → Seq) :
    (s.modSeq n q g).core n = (s.core n).setSeq q (g (s.seq n q)) := State.core_setSeq_same _ _ _ _

theorem State.core_modSeq_other (s : State) (n m : Nat) (q : SeqId) (g : Seq → Seq) (h : m ≠ n) :
    (s.modSeq n q g).core m = s.core m := State.core_setSeq_other _ _ _ _ _ h

@[simp] theorem Core.setSeq_get_same (c : Core) (q : SeqId) (v : Seq) : (c.setSeq q v).seqs.get q = v :=
  Four.get_set_same _ _ _

theorem Core.setSeq_get_other (c : Core) (q r : SeqId) (v : Seq) (h : r ≠ q) : (c.setSeq q v).seqs.get r = c.seqs.get r :=
  Four.get_set_other _ _ _ _ h

@[simp] theorem State.seq_setSeq_same (s : State) (n : Nat) (q : SeqId) (v : Seq) : (s.setSeq n q v).seq n q = v := by
  simp [State.seq]

@[simp] theorem State.seq_modSeq_same (s : State) (n : Nat) (q : SeqId) (g : Seq → Seq) :
    (s.modSeq n q g).seq n q = g (s.seq n q) := by simp [State.seq]

theorem State.seq_setSeq_other (s : State) (n m : Nat) (q r : SeqId) (v : Seq) (h : ¬(m = n ∧ r = q)) :
    (s.setSeq n q v).seq m r = s.seq m r := by
  unfold State.seq
  by_cases hm : m = n
  · subst hm
    have hr : r ≠ q := fun e => h ⟨rfl, e⟩
    rw [State.core_setSeq_same, Core.setSeq_get_other _ _ _ _ hr]
  · rw [State.core_setSeq_other _ _ _ _ _ hm]

/-- s[n] reads back what was written. -/
@[simp] theorem Seq.reg_setReg_same (q0 : Seq) (r : BitVec 5) (v : Word) : (q0.setReg r v).reg r = v := by
  simp [Seq.reg, Seq.setReg]

theorem Seq.reg_setReg_other (q0 : Seq) (r t : BitVec 5) (v : Word) (h : t ≠ r) : (q0.setReg r v).reg t = q0.reg t := by
  have : r.toNat ≠ t.toNat := fun e => h (BitVec.eq_of_toNat_eq e.symm)
  simp [Seq.reg, Seq.setReg, this]

@[simp] theorem Seq.sysreg_setSys_same (q0 : Seq) (k : Nat) (v : Word) : (q0.setSys k v).sysreg k = v :=
  Tab.get_put_same _ _ _ _

theorem Seq.sysreg_setSys_other (q0 : Seq) (k j : Nat) (v : Word) (h : j ≠ k) : (q0.setSys k v).sysreg j = q0.sysreg j :=
  Tab.get_put_other _ _ _ _ _ h

@[simp] theorem Core.sysreg_setSys_same (c : Core) (k : Nat) (v : Word) : (c.setSys k v).sysreg k = v :=
  Tab.get_put_same _ _ _ _

theorem Core.sysreg_setSys_other (c : Core) (k j : Nat) (v : Word) (h : j ≠ k) : (c.setSys k v).sysreg j = c.sysreg j :=
  Tab.get_put_other _ _ _ _ _ h

/-- A cell of the matrix file reads back what was written. -/
@[simp] theorem Core.cell_setCell_same (c : Core) (k : Nat) (v : W32) : (c.setCell k v).cell k = v :=
  Tab.get_put0_same _ _ _ _

theorem Core.cell_setCell_other (c : Core) (k j : Nat) (v : W32) (h : j ≠ k) : (c.setCell k v).cell j = c.cell j :=
  Tab.get_put0_other _ _ _ _ _ _ h

end Sys2Proof.Machine
end

