-- ==== Sys2Proof/Laws/Memory.lean ====
section
/-! SUPPORT. The canonical form of memory is kept by every operation over it, and a byte reads back what was written (R214, R239; DESIGN CHOICE, log 6). -/

namespace Sys2Proof.Machine

/-! ### Tables in order -/

theorem Tab.sorted_cons {α : Type} (p : Nat × α) (r : Tab α) :
    Tab.sorted (p :: r) = true ↔ (∀ x ∈ r, p.1 < x.1) ∧ Tab.sorted r = true := by
  obtain ⟨k, v⟩ := p
  simp [Tab.sorted]

theorem Tab.mem_put {α : Type} (t : Tab α) (k : Nat) (v : α) (x : Nat × α) (h : x ∈ Tab.put t k v) : x = (k, v) ∨ x ∈ t := by
  induction t with
  | nil => simpa [Tab.put] using h
  | cons p r ih =>
    obtain ⟨k', v'⟩ := p
    simp only [Tab.put] at h
    split at h
    · simpa using h
    · split at h
      · rcases List.mem_cons.1 h with h | h
        · exact .inl h
        · exact .inr (List.mem_cons_of_mem _ h)
      · rcases List.mem_cons.1 h with h | h
        · exact .inr (h ▸ List.mem_cons_self)
        · rcases ih h with h | h
          · exact .inl h
          · exact .inr (List.mem_cons_of_mem _ h)

theorem Tab.sorted_put {α : Type} (t : Tab α) (k : Nat) (v : α) (h : Tab.sorted t = true) : Tab.sorted (Tab.put t k v) = true := by
  induction t with
  | nil => simp [Tab.put, Tab.sorted]
  | cons p r ih =>
    obtain ⟨k', v'⟩ := p
    rw [Tab.sorted_cons] at h
    simp only [Tab.put]
    split
    · rename_i hk
      rw [Tab.sorted_cons, Tab.sorted_cons]
      refine ⟨fun x hx => ?_, h⟩
      rcases List.mem_cons.1 hx with rfl | hx
      · exact hk
      · exact Nat.lt_trans hk (h.1 x hx)
    · split
      · rename_i hk; subst hk; rw [Tab.sorted_cons]; exact h
      · rename_i h1 h2
        rw [Tab.sorted_cons]
        refine ⟨fun x hx => ?_, ih h.2⟩
        rcases Tab.mem_put _ _ _ _ hx with rfl | hx
        · dsimp only; omega
        · exact h.1 x hx

theorem Tab.sorted_filter {α : Type} (t : Tab α) (g : Nat × α → Bool) (h : Tab.sorted t = true) : Tab.sorted (t.filter g) = true := by
  induction t with
  | nil => rfl
  | cons p r ih =>
    rw [Tab.sorted_cons] at h
    rw [List.filter_cons]
    split
    · rw [Tab.sorted_cons]
      exact ⟨fun x hx => h.1 x (List.mem_filter.1 hx).1, ih h.2⟩
    · exact ih h.2

theorem Tab.sorted_put0 {α : Type} [DecidableEq α] (z : α) (t : Tab α) (k : Nat) (v : α) (h : Tab.sorted t = true) :
    Tab.sorted (Tab.put0 z t k v) = true := by
  unfold Tab.put0
  split
  · exact Tab.sorted_filter _ _ h
  · exact Tab.sorted_put _ _ _ h

/-! ### Bytes -/

theorem Memory.wf_iff (m : List Host.Cell) : Memory.wf m = true ↔ Tab.sorted m = true ∧ ∀ p ∈ m, p.2 ≠ 0 := by
  simp only [Memory.wf, Bool.and_eq_true, List.all_eq_true, bne_iff_ne]

/-- Writing a byte keeps the canonical form. -/
theorem Memory.put_wf (m : List Host.Cell) (a : Nat) (v : Byte) (h : Memory.wf m = true) : Memory.wf (Memory.put m a v) = true := by
  rw [Memory.wf_iff] at h ⊢
  refine ⟨Tab.sorted_put0 _ _ _ _ h.1, fun p hp => ?_⟩
  unfold Memory.put Tab.put0 at hp
  split at hp
  · exact h.2 p (List.mem_filter.1 hp).1
  · rename_i hv
    rcases Tab.mem_put _ _ _ _ hp with rfl | hp
    · exact hv
    · exact h.2 p hp

/-- A fold of byte writes keeps the canonical form. -/
theorem Memory.fold_put_wf {β : Type} (l : List β) (a : β → Nat) (v : β → Byte) (m : List Host.Cell) (h : Memory.wf m = true) :
    Memory.wf (l.foldl (fun m i => Memory.put m (a i) (v i)) m) = true := by
  induction l generalizing m with
  | nil => exact h
  | cons x r ih => exact ih _ (Memory.put_wf _ _ _ h)

/-- A filter of the listed bytes keeps the canonical form. -/
theorem Memory.filter_wf (m : List Host.Cell) (g : Host.Cell → Bool) (h : Memory.wf m = true) : Memory.wf (m.filter g) = true := by
  rw [Memory.wf_iff] at h ⊢
  exact ⟨Tab.sorted_filter _ _ h.1, fun p hp => h.2 p (List.mem_filter.1 hp).1⟩

@[simp] theorem Memory.get_put_same (m : List Host.Cell) (a : Nat) (v : Byte) : Memory.get (Memory.put m a v) a = v :=
  Tab.get_put0_same _ _ _ _

theorem Memory.get_put_other (m : List Host.Cell) (a b : Nat) (v : Byte) (h : b ≠ a) : Memory.get (Memory.put m a v) b = Memory.get m b :=
  Tab.get_put0_other _ _ _ _ _ _ h

/-! ### Operations over the whole memory -/

/-- A fold of steps that each keep the canonical form keeps it. -/
theorem State.fold_wf {β : Type} (l : List β) (g : State → β → State)
    (hg : ∀ s x, Memory.wf s.mem = true → Memory.wf (g s x).mem = true) (s : State) (h : Memory.wf s.mem = true) :
    Memory.wf (l.foldl g s).mem = true := by
  induction l generalizing s with
  | nil => exact h
  | cons x r ih => exact ih _ (hg _ _ h)

@[simp] theorem State.correct_mem (s : State) (b : Nat) : (s.correct b).mem = s.mem := rfl

/-- Corrections, logs and healed words leave every byte as it was. -/
@[simp] theorem State.readNote_mem (s : State) (pa n : Nat) : (s.readNote pa n).mem = s.mem := by
  unfold State.readNote
  generalize s.symbolsIn pa n = l
  induction l generalizing s with
  | nil => rfl
  | cons b r ih => rw [List.foldl_cons, ih, State.correct_mem]

@[simp] theorem State.writeNote_mem (s : State) (pa n : Nat) : (s.writeNote pa n).mem = s.mem := by
  show ((s.heal pa n).readNote pa n).mem = s.mem
  rw [State.readNote_mem]; rfl

@[simp] theorem State.charge_mem (s : State) (n bits : Nat) : (s.charge n bits).mem = s.mem := by
  unfold State.charge
  split
  · rfl
  · dsimp only
    split <;> rfl

@[simp] theorem State.putCell_mem (s : State) (n k : Nat) (v : W32) : (s.putCell n k v).mem = s.mem := by
  simp [State.putCell]

@[simp] theorem State.mailbox_mem (s : State) (n : Nat) (v : Word) : (s.mailbox n v).mem = s.mem := by
  unfold State.mailbox
  split <;> rfl

theorem State.rekey_wf (s : State) (key : Option Nat) (b : Nat) (h : Memory.wf s.mem = true) : Memory.wf (s.rekey key b).mem = true := by
  unfold State.rekey
  split
  · exact h
  · exact Memory.fold_put_wf _ _ _ _ h

theorem State.windowWrite_wf (s : State) (n w off size : Nat) (v : Word) (h : Memory.wf s.mem = true) :
    Memory.wf (s.windowWrite n w off size v).mem = true := by
  unfold State.windowWrite
  split
  · exact State.fold_wf _ _ (fun s x hs => by simpa using hs) _ h
  · exact Memory.fold_put_wf _ _ _ _ h
  · exact h
  · split <;> simpa using h
  · simpa using h

theorem State.deviceWrite_wf (s : State) (p off size : Nat) (v : Word) (h : Memory.wf s.mem = true) :
    Memory.wf (s.deviceWrite p off size v).mem = true := by
  unfold State.deviceWrite
  split
  · split
    · simpa using h
    · split
      · exact Memory.fold_put_wf _ _ _ _ h
      · exact h
  · split <;> simpa using h

/-- A write to physical memory keeps the canonical form. -/
theorem State.physWrite_wf (s : State) (key : Option Nat) (pa size : Nat) (v : Word) (h : Memory.wf s.mem = true) :
    Memory.wf (s.physWrite key pa size v).mem = true := by
  unfold State.physWrite
  split
  · dsimp only
    have h1 : Memory.wf (if key = none ∧ s.blockKey (pa / 16) = none then s else s.rekey key (pa / 16)).mem = true := by
      split
      · exact h
      · exact State.rekey_wf _ _ _ h
    generalize (if key = none ∧ s.blockKey (pa / 16) = none then s else s.rekey key (pa / 16)) = s1 at h1
    have h2 := Memory.fold_put_wf (List.range size) (fun i => pa + i) (valByte v) s1.mem h1
    split
    · exact h2
    · simpa using h2
  · exact State.windowWrite_wf _ _ _ _ _ _ h
  · exact State.deviceWrite_wf _ _ _ _ _ h
  · exact h

theorem State.performAll_wf (s : State) (l : List Store) (h : Memory.wf s.mem = true) : Memory.wf (s.performAll l).mem = true :=
  State.fold_wf _ _ (fun s x hs => State.physWrite_wf s x.key x.addr x.size x.val hs) _ h

theorem State.drainQueue_wf (s : State) (n : Nat) (q : SeqId) (h : Memory.wf s.mem = true) : Memory.wf (s.drainQueue n q).mem = true :=
  State.performAll_wf _ _ (by simpa using h)

theorem State.issueStores_wf (s : State) (n : Nat) (q : SeqId) (hold : Bool) (tag : Nat) (l : List Store) (h : Memory.wf s.mem = true) :
    Memory.wf (s.issueStores n q hold tag l).mem = true := by
  unfold State.issueStores
  split
  · exact h
  · split
    · simpa using h
    · exact State.performAll_wf _ _ (State.drainQueue_wf _ _ _ h)

/-- Issuing an instruction keeps the canonical form where its own effect does. -/
theorem State.commit_wf (s : State) (c : Code) (f : Fields) (d : Done) (h : Memory.wf d.st.mem = true) :
    Memory.wf (s.commit c f d).mem = true := by
  unfold State.commit
  dsimp only
  split
  · simpa using h
  · split
    · exact State.issueStores_wf _ _ _ _ _ _ (by simpa using h)
    · rw [State.modCore_mem]
      exact State.issueStores_wf _ _ _ _ _ _ (by simpa using h)

end Sys2Proof.Machine
end

