-- ==== Sys2Proof/Laws/Ops.lean ====
section
/-! SUPPORT. What the shared operations do, said once: issue, the interlock, accesses, and what an issued instruction leaves as it was. -/

namespace Sys2Proof.Machine

/-! ### Issue -/

/-- What a ready instruction does is what its body's answer says. -/
theorem issued_eq {c : Code} {f : Fields} {body : State → Eff} {s : State} (h : s.ready c f = true) :
    issued c f body s = .next (s.settleEff c f (body (s.view c f))) := by
  simp only [State.ready, Bool.and_eq_true, Option.isNone_iff_eq_none, beq_iff_eq] at h
  obtain ⟨⟨⟨h1, h2⟩, h3⟩, h4⟩ := h
  simp [issued, State.issue, h1, h2, h3, State.execute, h4, State.runBody, State.view]

/-- An instruction with no result for the matrix file is never crowded out. -/
theorem State.crowded_quiet {s : State} {f : Fields} {d : Done} (h : d.lands = []) : s.crowded f d = false := by
  simp [State.crowded, h]

/-- A ready instruction whose body answers done d has effect d, while there is room for its results in flight. -/
theorem issued_ready {c : Code} {f : Fields} {body : State → Eff} {s : State} {d : Done} (h : s.ready c f = true)
    (hb : body (s.view c f) = .done d) (hr : s.crowded f d = false) : issued c f body s = .next (s.commit c f d) := by
  rw [issued_eq h, hb]
  simp [State.settleEff, hr]

/-- The same, with the stall where there is none: the whole of what it does. -/
theorem issued_does {i : Instr} {c : Code} {f : Fields} {body : State → Eff} {s : State} {d : Done} (he : exec i s = issued c f body s)
    (h : s.ready c f = true) (hb : body (s.view c f) = .done d) : Does i c f s d := by
  unfold Does
  rw [he, issued_eq h, hb]
  exact ⟨fun hr => by simp [State.settleEff, hr], fun hr => by simp [State.settleEff, hr]⟩

/-- A ready instruction whose effect is a whole next state. -/
theorem issued_whole {c : Code} {f : Fields} {body : State → Eff} {s t : State} (h : s.ready c f = true)
    (hb : body (s.view c f) = .whole t) : issued c f body s = .next t := by
  rw [issued_eq h, hb]; rfl

/-- A ready instruction whose body traps takes that fault. -/
theorem issued_trap {c : Code} {f : Fields} {body : State → Eff} {s : State} {cause : Nat} {a : Word} (h : s.ready c f = true)
    (hb : body (s.view c f) = .trap cause a) : issued c f body s = .next (s.takeFault cause a) := by
  rw [issued_eq h, hb]; rfl

/-- A ready instruction whose resource is not there waits. -/
theorem issued_wait {c : Code} {f : Fields} {body : State → Eff} {s : State} {kind : Nat} {id : Word} (h : s.ready c f = true)
    (hb : body (s.view c f) = .wait kind id) : issued c f body s = .next (s.waitFor kind id) := by
  rw [issued_eq h, hb]; rfl

/-- An encoding check that fails is the instruction's fault, with nothing else done. -/
theorem issued_illegal {c : Code} {f : Fields} {body : State → Eff} {s : State} {cause : Nat} {a : Word}
    (h : encodingFault c f s.node s.me (s.privileged s.node) = some (cause, a)) :
    issued c f body s = .next (s.takeFault cause a) := by
  simp [issued, State.issue, h]

/-- Clear accesses are made in the state they pass to. -/
theorem State.access_clear {s : State} {want : Want} {size : Nat} {vas : List Word} (k : State → Eff)
    (h : s.clear want size vas = true) : s.access want size vas k = k (s.passed want size vas) := by
  simp only [State.clear, Bool.and_eq_true, Bool.not_eq_true', beq_iff_eq, Option.isNone_iff_eq_none] at h
  obtain ⟨⟨h1, h2⟩, h3⟩ := h
  simp only [State.access, h1, Bool.false_eq_true, if_false, h2, ne_eq, not_true_eq_false, h3, State.passed]

/-! ### The interlock (R97) -/

theorem any_congr_false {α : Type} (l : List α) (g : α → Bool) (h : ∀ x, g x = false) : l.any g = false := by
  induction l with
  | nil => rfl
  | cons x r ih => simp [h x, ih]

/-- Uses that name no cell let every result stay in flight. -/
theorem State.interlock_none (s : State) (uses : List Res) (h : ∀ k, uses.any (fun r => resHas r (2000 + k)) = false) :
    s.interlock uses = s := by
  unfold State.interlock
  simp only [h, any_congr_false _ _ (fun _ => rfl), Bool.false_eq_true, if_false]

theorem resHas_reg (n k : Nat) (h : n < 2000) : resHas (.reg n) (2000 + k) = false := by
  simp only [resHas, atomsOf, List.contains_cons, List.contains_nil, Bool.or_false, beq_eq_false_iff_ne]
  intro e
  have e' : 2000 + k = _ := e
  omega

theorem resHas_negative (k : Nat) : resHas .negative (2000 + k) = false := by
  simp only [resHas, atomsOf, List.contains_cons, List.contains_nil, Bool.or_false, beq_eq_false_iff_ne]
  intro e
  have e' : 2000 + k = _ := e
  omega

theorem resHas_stream (q k : Nat) (h : q < 1000) : resHas (.stream q) (2000 + k) = false := by
  simp only [resHas, atomsOf, List.contains_cons, List.contains_nil, Bool.or_false, beq_eq_false_iff_ne]
  intro e
  have e' : 2000 + k = _ := e
  omega

theorem resHas_grid (q k : Nat) (h : q < 1000) : resHas (.grid q) (2000 + k) = false := by
  simp only [resHas, atomsOf, List.contains_cons, List.contains_nil, Bool.or_false, beq_eq_false_iff_ne]
  intro e
  have e' : 2000 + k = _ := e
  omega

/-- A resource that names no cell of the matrix file. -/
def Res.noCell (r : Res) : Bool :=
  match r with
  | .reg n => decide (n < 2000)
  | .negative => true
  | .stream q => decide (q < 1000)
  | .grid g => decide (g < 1000)
  | _ => false

theorem Res.noCell_has (r : Res) (k : Nat) (h : r.noCell = true) : resHas r (2000 + k) = false := by
  cases r <;> simp only [Res.noCell, decide_eq_true_eq, Bool.false_eq_true] at h
  · exact resHas_reg _ _ h
  · exact resHas_negative _
  · exact resHas_stream _ _ h
  · exact resHas_grid _ _ h

/-- Only HGL, HGS and HGW have uses that a grid slot decides, only MGO uses that a table decides, and only MFP and MTP uses that s[A] decides. -/
theorem State.uses_eq (s : State) (c : Nat) (f : Fields) (i : OpInfo) (hi : opInfo c = some i) (hg : c / 16 < 0x79 ∨ 0x7B < c / 16)
    (hm : c / 16 ≠ 0x61) (hr : c / 16 ≠ 0xC7) : s.uses c f = usesOf c i f s.mySeq := by
  unfold State.uses gridUses nestUses remoteUses
  simp only [hi, if_neg hm, if_neg hr, List.append_nil]
  split
  · rename_i h; exact absurd (show c / 16 = 0x79 from h) (by omega)
  · rename_i h; exact absurd (show c / 16 = 0x7A from h) (by omega)
  · rename_i h; exact absurd (show c / 16 = 0x7B from h) (by omega)
  · simp

/-- An instruction that names no cell of the matrix file reads the state as it is. -/
theorem State.view_self (s : State) (c : Nat) (f : Fields) (i : OpInfo) (hi : opInfo c = some i) (hg : c / 16 < 0x79 ∨ 0x7B < c / 16) (hm : c / 16 ≠ 0x61)
    (hr : c / 16 ≠ 0xC7) (hu : (usesOf c i f s.mySeq).all Res.noCell = true) : s.view c f = s := by
  unfold State.view
  rw [State.uses_eq s c f i hi hg hm hr]
  refine State.interlock_none _ _ (fun k => ?_)
  rw [List.any_eq_false]
  intro r hr
  rw [Res.noCell_has r k (List.all_eq_true.1 hu r hr)]
  decide

/-! ### Keys that are destroyed (R380) -/

/-- Destroying keys changes the save areas and the counter of keys alone. -/
theorem State.destroyKeys_frame (s : State) (gone : Ctx → Bool) : ∃ l k, s.destroyKeys gone = { s with saved := l, nextTag := k } := by
  unfold State.destroyKeys
  split
  · exact ⟨_, _, rfl⟩
  · exact ⟨_, _, rfl⟩

/-! ### TLBs, the L1 data cache and what a walk notes (R13, R221, R378) -/

/-- The newest entry of a TLB is there, whatever it held. -/
theorem addTlb_mem (l : List TlbEntry) (e : TlbEntry) {size : Nat} (h : 0 < size) : e ∈ addTlb l e size := by
  unfold addTlb
  rw [List.drop_append_of_le_length (by omega)]
  simp

/-- A TLB never holds more than its size. -/
theorem addTlb_length (l : List TlbEntry) (e : TlbEntry) (size : Nat) : (addTlb l e size).length ≤ size := by
  unfold addTlb
  simp only [List.length_drop, List.length_append, List.length_cons, List.length_nil]
  omega

/-- A correction counts and is logged; memory and its marks stay. -/
theorem State.correct_frame (s : State) (b : Nat) :
    (s.correct b).cores = s.cores ∧ (s.correct b).mem = s.mem ∧ (s.correct b).bad = s.bad ∧ (s.correct b).weak = s.weak := ⟨rfl, rfl, rfl, rfl⟩

theorem State.corrects_frame (l : List Nat) (s : State) :
    (l.foldl State.correct s).cores = s.cores ∧ (l.foldl State.correct s).mem = s.mem ∧
    (l.foldl State.correct s).bad = s.bad ∧ (l.foldl State.correct s).weak = s.weak := by
  induction l generalizing s with
  | nil => exact ⟨rfl, rfl, rfl, rfl⟩
  | cons b r ih => exact ih (s.correct b)

/-- What a walk notes leaves the cores and memory. -/
theorem State.noteWalk_frame (s : State) (n : Nat) (va : Word) :
    (s.noteWalk n va).cores = s.cores ∧ (s.noteWalk n va).mem = s.mem ∧ (s.noteWalk n va).bad = s.bad ∧ (s.noteWalk n va).weak = s.weak :=
  State.corrects_frame _ s

theorem State.noteWalk_core (s : State) (n m : Nat) (va : Word) : (s.noteWalk n va).core m = s.core m := by
  unfold State.core
  rw [(s.noteWalk_frame n va).1]

/-- A sector that comes into the cache changes the cache alone. -/
theorem Core.fillSector_frame (c : Core) (pa : Nat) : ∃ l, c.fillSector pa = { c with l1 := l } := by
  unfold Core.fillSector
  dsimp only
  split
  · exact ⟨_, rfl⟩
  · exact ⟨_, rfl⟩

theorem Core.fillSectors_frame (l : List Nat) (c : Core) : ∃ k, l.foldl Core.fillSector c = { c with l1 := k } := by
  induction l generalizing c with
  | nil => exact ⟨c.l1, rfl⟩
  | cons pa r ih =>
    obtain ⟨k, hk⟩ := Core.fillSector_frame c pa
    obtain ⟨k', hk'⟩ := ih (c.fillSector pa)
    exact ⟨k', by rw [List.foldl_cons, hk', hk]⟩

/-- What reads bring into a core's cache changes that cache alone. -/
theorem State.fillL1_frame (s : State) (n : Nat) (read : Bool) (vas : List Word) :
    s.fillL1 n read vas = s ∨ ∃ l, s.fillL1 n read vas = s.modCore n (fun c => { c with l1 := l }) := by
  unfold State.fillL1
  split
  · obtain ⟨l, hl⟩ := Core.fillSectors_frame (s.l1Misses n vas) (s.core n)
    exact .inr ⟨l, by unfold State.modCore; exact congrArg (s.setCore n) hl⟩
  · exact .inl rfl

/-- A write brings nothing into the cache. -/
@[simp] theorem State.fillL1_write (s : State) (n : Nat) (vas : List Word) : s.fillL1 n false vas = s := rfl

/-! ### Launches over several packages (R401) -/

/-- The entry of a placement of several packages counts. -/
theorem State.launchCount_countLaunch (s : State) (pkg : Nat) (image cores : List Nat) (h : 1 < (pkgsOf cores).length) :
    (s.countLaunch pkg image cores).launchCount pkg image cores = s.launchCount pkg image cores + 1 := by
  unfold State.countLaunch
  rw [if_neg (by omega)]
  simp [State.launchCount]

/-- A placement within one package has nothing to count. -/
theorem State.countLaunch_one (s : State) (pkg : Nat) (image cores : List Nat) (h : (pkgsOf cores).length ≤ 1) :
    s.countLaunch pkg image cores = s := if_pos h

/-- No placed data of launch k waits for a package that has left the launch. -/
theorem State.leavePlaced_due (s : State) (pkg k : Nat) (image cores : List Nat) (p : Placed) (hp : p ∈ (s.leavePlaced pkg k image cores).placed)
    (hk : p.launch = k ∧ p.image = image ∧ p.cores = cores) : pkg ∉ p.due := by
  simp only [State.leavePlaced, List.mem_map] at hp
  obtain ⟨p0, -, rfl⟩ := hp
  split at hk
  · rename_i h
    rw [if_pos h]
    simp
  · rename_i h
    exact absurd hk h

/-! ### The array (R172, R185) -/

/-- A pass takes the array, and nothing else of the core. -/
@[simp] theorem Core.takeArray_arrayAt (c : Core) (elem k : Nat) :
    (c.takeArray elem k).arrayAt = some (c.cycle + BitVec.ofNat 64 ((if elem = 0 then 4 else 8) * k)) := rfl
theorem Core.takeArray_frame (c : Core) (elem k : Nat) : { c.takeArray elem k with arrayAt := c.arrayAt } = c := rfl

/-- An array that no pass has taken accepts one. -/
theorem Core.arrayBusy_free (c : Core) (h : c.arrayAt = none) : c.arrayBusy = false := by simp [Core.arrayBusy, h]

/-! ### The line of an atomic (R300) -/

/-- Taking a line changes caches alone. -/
theorem State.dropLine_frame (s : State) (pkg keep pa : Nat) : ∃ l, s.dropLine pkg keep pa = { s with cores := l } := by
  unfold State.dropLine
  dsimp only
  split
  · exact ⟨_, rfl⟩
  · exact ⟨_, rfl⟩

/-- A core of whose cache a line is taken keeps everything but that line. -/
theorem State.dropLine_core (s : State) (pkg keep pa n : Nat) :
    (s.dropLine pkg keep pa).core n = s.core n ∨ (s.dropLine pkg keep pa).core n = { s.core n with l1 := (s.core n).l1.filter (fun x => x.line != pa / 128) } := by
  unfold State.dropLine
  dsimp only
  split
  · unfold State.core
    dsimp only
    generalize s.cores = t
    induction t with
    | nil => exact .inl rfl
    | cons p r ih =>
      obtain ⟨m, c⟩ := p
      rw [List.map_cons]
      split <;> simp only [Tab.get] <;> by_cases h : m = n
      · simp [h]
      · simpa [h] using ih
      · simp [h]
      · simpa [h] using ih
  · exact .inl rfl

theorem State.takeLine_frame (s : State) (n : Nat) (va : Word) : ∃ l, s.takeLine n va = { s with cores := l } := by
  unfold State.takeLine
  dsimp only
  split
  · exact ⟨_, rfl⟩
  · split
    · exact ⟨_, rfl⟩
    · split
      · exact State.dropLine_frame ..
      · split
        · exact State.dropLine_frame ..
        · exact ⟨_, rfl⟩

/-! ### Words that a queued store replaces (R378) -/

/-- A sequencer with no store in its queue is assured of nothing. -/
theorem State.assured_quiet (s : State) (h : s.mySeq.queue = []) : s.assured = s := by simp [State.assured, h]

/-- What a queue assures changes the marks of words alone. -/
theorem State.assured_frame (s : State) : ∃ l k, s.assured = { s with bad := l, weak := k } := by
  unfold State.assured
  dsimp only
  split
  · exact ⟨_, _, rfl⟩
  · exact ⟨_, _, rfl⟩

/-! ### Leases (R353, R357) -/

/-- A quadrant in which no lease is over keeps its permits. -/
theorem State.expireAll_none (s : State) (quad : Nat) (h : ∀ p ∈ (s.quad quad).grants, p.over (s.stack (quad / 4)).clock = false) : s.expireAll quad = s := by
  unfold State.expireAll
  rw [List.filter_eq_nil_iff.2 (fun p hp => by simp [h p hp])]
  rfl

/-- Time ends nothing in a stack in which no lease is over. -/
theorem State.leasesDue_none (s : State) (stack : Nat) (hq : ∀ k < 4, ∀ p ∈ (s.quad (4 * stack + k)).grants, p.over (s.stack stack).clock = false)
    (hc : ∀ p ∈ s.cores, p.2.leaseOver (s.stack stack).clock = false) : s.leasesDue stack = s := by
  have hk : ∀ k < 4, s.expireAll (4 * stack + k) = s := fun k hk => s.expireAll_none _ (by
    rw [show (4 * stack + k) / 4 = stack by omega]; exact hq k hk)
  have h0 := hk 0 (by omega)
  have h1 := hk 1 (by omega)
  have h2 := hk 2 (by omega)
  have h3 := hk 3 (by omega)
  unfold State.leasesDue
  simp only [show List.range 4 = [0, 1, 2, 3] from rfl, List.foldl_cons, List.foldl_nil, h0, h1, h2, h3]
  rw [List.filter_eq_nil_iff.2 (fun p hp => by simp [hc p hp])]
  rfl

/-! ### Entries that a package missed (R401) -/

/-- With nothing missed, nothing is counted late. -/
theorem State.takeMiss_none (s : State) (pkg : Nat) (image cores : List Nat) (h : s.missed = []) : s.takeMiss pkg image cores = s := by
  simp [State.takeMiss, h]

theorem State.takeMisses_none (s : State) (pkg : Nat) (image cores : List Nat) (h : s.missed = []) : s.takeMisses pkg image cores = s := by
  simp [State.takeMisses, h]

/-- What counts late changes the counts and the list of what was missed alone. -/
theorem State.takeMiss_frame (s : State) (pkg : Nat) (image cores : List Nat) : ∃ l k, s.takeMiss pkg image cores = { s with missed := l, launches := k } := by
  unfold State.takeMiss State.countLaunch
  split
  · split
    · exact ⟨_, _, rfl⟩
    · exact ⟨_, _, rfl⟩
  · exact ⟨_, _, rfl⟩

end Sys2Proof.Machine
end

