-- ==== Sys2Proof/Laws/Commit.lean ====
section
/-! SUPPORT. What issuing an instruction changes and what it leaves (R76, R90, R91): the tokens, the sequencer that issues, and nothing else. -/

namespace Sys2Proof.Machine

/-! ### Tokens -/

/-- A core that differs in tokens only. -/
def Core.onlyTokens (c d : Core) : Prop := d = { c with tok := d.tok, resv := d.resv }

theorem Core.onlyTokens_refl (c : Core) : c.onlyTokens c := rfl

theorem Core.onlyTokens_trans {c d e : Core} (h : c.onlyTokens d) (g : d.onlyTokens e) : c.onlyTokens e := by
  unfold Core.onlyTokens at *
  rw [g, h]

theorem Core.onlyTokens_fold {β : Type} (l : List β) (g : Core → β → Core) (hg : ∀ (c : Core) (x : β), c.onlyTokens (g c x)) (c : Core) :
    c.onlyTokens (l.foldl g c) := by
  induction l generalizing c with
  | nil => exact rfl
  | cons x r ih => exact Core.onlyTokens_trans (hg c x) (ih _)

theorem Core.popAll_only (c : Core) (me : SeqId) (m : BitVec 4) : c.onlyTokens (c.popAll me m) :=
  by
  apply Core.onlyTokens_fold
  intro c x
  rfl

theorem Core.reserve_only (c : Core) (me : SeqId) (l : List (SeqId × Nat)) : c.onlyTokens (c.reserve me l) :=
  by
  apply Core.onlyTokens_fold
  intro c x
  rfl

theorem Core.place_only (c : Core) (me : SeqId) (l : List (SeqId × Nat)) : c.onlyTokens (c.place me l) :=
  by
  apply Core.onlyTokens_fold
  intro c x
  rfl

theorem Core.unreserve_only (c : Core) (me : SeqId) (l : List (SeqId × Nat)) : c.onlyTokens (c.unreserve me l) :=
  by
  apply Core.onlyTokens_fold
  intro c x
  rfl

theorem Core.giveBack_only (c : Core) (me : SeqId) (m : BitVec 4) : c.onlyTokens (c.giveBack me m) :=
  by
  apply Core.onlyTokens_fold
  intro c x
  dsimp only
  split <;> rfl

theorem Core.onlyTokens_setSeq {c d : Core} (h : c.onlyTokens d) (q : SeqId) (v : Seq) : (c.setSeq q v).onlyTokens (d.setSeq q v) := by
  unfold Core.onlyTokens at h
  rw [h]; rfl

/-! ### Plain memory, read by an access -/

theorem State.plainByte_congr {s t : State} (hm : t.mem = s.mem) (hk : t.keyed = s.keyed) (key : Option Nat) (pa : Nat) :
    t.plainByte key pa = s.plainByte key pa := by
  unfold State.plainByte State.viewBlock State.blockKey State.rawBlock
  rw [hm, hk]

/-- Updates of node n's core touch no other node and no memory. -/
theorem OnlyNode.of_modCore (s : State) (n : Nat) (g : Core → Core) : OnlyNode n s (s.modCore n g) :=
  { turn := rfl, cores := fun _ hm => State.core_modCore_other _ _ _ _ hm, bays := rfl, quads := rfl, dies := rfl, pkgs := rfl,
    domain := rfl, marks := ⟨rfl, rfl, rfl, rfl⟩, bytes := fun _ _ => State.plainByte_congr rfl rfl _ _ }

theorem OnlyNode.of_modSeq (s : State) (n : Nat) (q : SeqId) (g : Seq → Seq) : OnlyNode n s (s.modSeq n q g) :=
  OnlyNode.of_modCore s n (fun c => c.setSeq q (g (s.seq n q)))

theorem OnlyNode.refl (n : Nat) (s : State) : OnlyNode n s s :=
  { turn := rfl, cores := fun _ _ => rfl, bays := rfl, quads := rfl, dies := rfl, pkgs := rfl, domain := rfl,
    marks := ⟨rfl, rfl, rfl, rfl⟩, bytes := fun _ _ => rfl }

theorem OnlyNode.trans {n : Nat} {s t u : State} (h : OnlyNode n s t) (g : OnlyNode n t u) : OnlyNode n s u :=
  { turn := g.turn.trans h.turn, cores := fun m hm => (g.cores m hm).trans (h.cores m hm), bays := g.bays.trans h.bays,
    quads := g.quads.trans h.quads, dies := g.dies.trans h.dies, pkgs := g.pkgs.trans h.pkgs,
    domain := g.domain.trans h.domain,
    marks := ⟨g.marks.1.trans h.marks.1, g.marks.2.1.trans h.marks.2.1, g.marks.2.2.1.trans h.marks.2.2.1, g.marks.2.2.2.trans h.marks.2.2.2⟩,
    bytes := fun key pa => (g.bytes key pa).trans (h.bytes key pa) }

theorem OnlyNode.withTag {n : Nat} {s u : State} (h : OnlyNode n s u) (k : Nat) : OnlyNode n s { u with nextTag := k } :=
  { turn := h.turn, cores := h.cores, bays := h.bays, quads := h.quads, dies := h.dies, pkgs := h.pkgs, domain := h.domain,
    marks := h.marks, bytes := h.bytes }

/-! ### An instruction that lands nothing in the matrix file and stores nothing -/

theorem OnlySeq.refl (q : SeqId) (c : Core) : OnlySeq q c c := by
  unfold OnlySeq; rw [Four.set_get]

theorem OnlySeq.trans {q : SeqId} {c d e : Core} (h : OnlySeq q c d) (g : OnlySeq q d e) : OnlySeq q c e := by
  unfold OnlySeq at *
  rw [g, h]
  simp

theorem OnlySeq.of_setSeq (q : SeqId) (c : Core) (v : Seq) : OnlySeq q c (c.setSeq q v) := by
  unfold OnlySeq; rw [Core.setSeq_get_same]; rfl

theorem OnlySeq.of_tokens {c d : Core} (q : SeqId) (h : c.onlyTokens d) : OnlySeq q c d := by
  unfold OnlySeq; unfold Core.onlyTokens at h; rw [h]; simp

theorem Core.onlyTokens_seqs {c d : Core} (h : c.onlyTokens d) : d.seqs = c.seqs := by rw [h]

/-- Two sequencers that differ in what they have in flight only. -/
def Seq.butFlights (v w : Seq) : Prop := w = { v with flights := w.flights }

/-- u differs from s in node n's sequencer q, which is v but for its flights, and in tokens only. -/
structure Moved (n : Nat) (q : SeqId) (v : Seq) (s u : State) : Prop where
  node : OnlyNode n s u
  core : OnlySeq q (s.core n) (u.core n)
  seq  : v.butFlights (u.seq n q)

/-- The sequencer moves. -/
theorem Moved.of_modSeq (n : Nat) (q : SeqId) (s : State) (g : Seq → Seq) : Moved n q (g (s.seq n q)) s (s.modSeq n q g) :=
  { node := OnlyNode.of_modSeq _ _ _ _,
    core := by rw [State.core_modSeq_same]; exact OnlySeq.of_setSeq _ _ _,
    seq := by rw [State.seq_modSeq_same]; rfl }

/-- Then tokens move. -/
theorem Moved.tokens {n : Nat} {q : SeqId} {v : Seq} {s u : State} (h : Moved n q v s u) (g : Core → Core)
    (hg : ∀ k : Core, k.onlyTokens (g k)) : Moved n q v s (u.modCore n g) :=
  { node := h.node.trans (OnlyNode.of_modCore _ _ _),
    core := by rw [State.core_modCore_same]; exact h.core.trans (OnlySeq.of_tokens _ (hg _)),
    seq := by unfold State.seq; rw [State.core_modCore_same, Core.onlyTokens_seqs (hg _)]; exact h.seq }

/-- Then something stays in flight. -/
theorem Moved.flies {n : Nat} {q : SeqId} {v : Seq} {s u : State} (h : Moved n q v s u) (fl : Flight) :
    Moved n q v s (u.modSeq n q (fun w => { w with flights := w.flights ++ [fl] })) :=
  { node := h.node.trans (OnlyNode.of_modSeq _ _ _ _),
    core := by rw [State.core_modSeq_same]; exact h.core.trans (OnlySeq.of_setSeq _ _ _),
    seq := by rw [State.seq_modSeq_same, h.seq]; rfl }

/-- A tag is taken. -/
theorem Moved.tag {n : Nat} {q : SeqId} {v : Seq} {s u : State} (h : Moved n q v s u) (k : Nat) : Moved n q v s { u with nextTag := k } :=
  { node := h.node.withTag k, core := h.core, seq := h.seq }

/-- What follows d's own effect at issue: the sequencer moves, tokens move, and nothing else of the machine changes. -/
theorem State.commit_quiet (s : State) (c : Code) (f : Fields) (d : Done) (i : OpInfo) (hi : opInfo c = some i)
    (hr : i.runs ≠ .cpOnly) (hl : d.lands = []) (hs : d.stores = []) :
    Moved s.node s.me (((d.st.seq s.node s.me).advance c f d s.mySeq).issuedAt (s.core s.node).cycle (s.occupancy c f)) d.st
      (s.commit c f d) := by
  have steps : stepsOf c f = 0 := by simp [stepsOf, hi, hr]
  have pops := Core.popAll_only (me := s.me) (m := f.pop)
  have res := Core.reserve_only (me := s.me) (l := pushList f.push ++ d.extra)
  have m1 := Moved.of_modSeq s.node s.me d.st (fun q => (q.advance c f d s.mySeq).issuedAt (s.core s.node).cycle (s.occupancy c f))
  unfold State.commit
  simp only [steps, Core.addSteps, if_true, hl, hs, State.issueStores, List.isEmpty_nil, List.foldl_nil]
  split
  · exact m1.tokens _ (fun k => Core.onlyTokens_trans (pops k) (res _))
  · split
    · exact ((m1.tokens _ (fun k => Core.onlyTokens_trans (pops k) (res _))).flies _).tag _
    · exact (m1.tokens _ pops).tokens _ (fun k => Core.onlyTokens_trans (res k) (Core.place_only _ _ _))

theorem State.cur_commit_quiet {s t : State} {n : Nat} (h : OnlyNode n s t) : t.node = s.node ∧ t.me = s.me := by
  unfold State.node State.me; rw [h.turn]; exact ⟨rfl, rfl⟩

/-- A sequencer that moves on keeps its registers but for those it writes, and goes where the instruction says. -/
theorem Seq.moved {v w u : Seq} {c : Code} {f : Fields} {d : Done} {now : Word} {occ : Nat}
    (h : ((v.advance c f d u).issuedAt now occ).butFlights w) :
    w.regs = v.regs ∧ w.pc = d.target.getD (u.pc + instrLen f) ∧ KeptSeq v w := by
  rw [h]
  exact ⟨rfl, rfl, { sys := rfl, run := rfl, latch := rfl, mark := rfl, queue := rfl, remote := rfl, halting := rfl, notice := rfl }⟩

/-- An instruction that only writes one scalar register. -/
theorem commit_writesReg (s : State) (c : Code) (f : Fields) (r : BitVec 5) (v : Word) (tgt : Option Word) (i : OpInfo)
    (hi : opInfo c = some i) (hr : i.runs ≠ .cpOnly) :
    WritesReg s (s.commit c f { st := s.setReg r v, target := tgt }) r v (tgt.getD (s.nextPc f)) := by
  have m := State.commit_quiet s c f { st := s.setReg r v, target := tgt } i hi hr rfl rfl
  have w : Moved s.node s.me (s.mySeq.setReg r v) s (s.setReg r v) := Moved.of_modSeq s.node s.me s (fun q => q.setReg r v)
  have n2 := w.node.trans m.node
  obtain ⟨en, em⟩ := State.cur_commit_quiet n2
  have hseq : (s.setReg r v).seq s.node s.me = s.mySeq.setReg r v := State.seq_modSeq_same _ _ _ _
  obtain ⟨h1, h2, h3⟩ := Seq.moved m.seq
  rw [hseq] at h1 h3
  have regs : ∀ x, (State.mySeq (s.commit c f { st := s.setReg r v, target := tgt })).reg x = (s.mySeq.setReg r v).reg x := fun x => by
    unfold State.mySeq Seq.reg; rw [en, em, h1]; rfl
  refine { value := ?_, others := fun x hx => ?_, pc := ?_, seq := ?_, core := ?_, node := n2 }
  · rw [regs]; exact Seq.reg_setReg_same _ _ _
  · rw [regs]; exact Seq.reg_setReg_other _ _ _ _ hx
  · unfold State.mySeq; rw [en, em, h2]; rfl
  · unfold State.mySeq; rw [en, em]
    exact { sys := h3.sys, run := h3.run, latch := h3.latch, mark := h3.mark, queue := h3.queue, remote := h3.remote,
            halting := h3.halting, notice := h3.notice }
  · unfold State.myCore; rw [en]; exact w.core.trans m.core

/-- An instruction that only moves PC. -/
theorem commit_onlyMoves (s : State) (c : Code) (f : Fields) (tgt : Option Word) (x : List (SeqId × Nat)) (i : OpInfo)
    (hi : opInfo c = some i) (hr : i.runs ≠ .cpOnly) :
    OnlyMoves s (s.commit c f { st := s, target := tgt, extra := x }) (tgt.getD (s.nextPc f)) := by
  have m := State.commit_quiet s c f { st := s, target := tgt, extra := x } i hi hr rfl rfl
  obtain ⟨en, em⟩ := State.cur_commit_quiet m.node
  obtain ⟨h1, h2, h3⟩ := Seq.moved m.seq
  refine { regs := ?_, pc := ?_, seq := ?_, core := ?_, node := m.node }
  · unfold State.mySeq; rw [en, em]; exact h1
  · unfold State.mySeq; rw [en, em]; exact h2
  · unfold State.mySeq; rw [en, em]; exact h3
  · unfold State.myCore; rw [en]; exact m.core

/-! ### The same, from issue -/

/-- A ready instruction outside the matrix file whose body writes one scalar register. -/
theorem issued_writesReg (c : Nat) (i : OpInfo) (f : Fields) (s : State) (hi : opInfo c = some i) (hg : c / 16 < 0x79 ∨ 0x7B < c / 16)
    (hm : c / 16 ≠ 0x61) (hc : c / 16 ≠ 0xC7) (hu : (usesOf c i f s.mySeq).all Res.noCell = true) (hr : i.runs ≠ .cpOnly) (body : State → Eff) (r : BitVec 5) (v : Word)
    (tgt : Option Word) (hb : body s = .done { st := s.setReg r v, target := tgt }) (h : s.ready c f = true) :
    ∃ t, issued c f body s = .next t ∧ WritesReg s t r v (tgt.getD (s.nextPc f)) :=
  ⟨_, issued_ready h (by rw [State.view_self s c f i hi hg hm hc hu]; exact hb) (State.crowded_quiet rfl), commit_writesReg s c f r v tgt i hi hr⟩

/-- A ready instruction outside the matrix file whose body only moves PC, and tokens beside PUSH. -/
theorem issued_onlyMoves (c : Nat) (i : OpInfo) (f : Fields) (s : State) (hi : opInfo c = some i) (hg : c / 16 < 0x79 ∨ 0x7B < c / 16)
    (hm : c / 16 ≠ 0x61) (hc : c / 16 ≠ 0xC7) (hu : (usesOf c i f s.mySeq).all Res.noCell = true) (hr : i.runs ≠ .cpOnly) (body : State → Eff) (tgt : Option Word)
    (x : List (SeqId × Nat)) (hb : body s = .done { st := s, target := tgt, extra := x }) (h : s.ready c f = true) :
    ∃ t, issued c f body s = .next t ∧ OnlyMoves s t (tgt.getD (s.nextPc f)) :=
  ⟨_, issued_ready h (by rw [State.view_self s c f i hi hg hm hc hu]; exact hb) (State.crowded_quiet rfl), commit_onlyMoves s c f tgt x i hi hr⟩

end Sys2Proof.Machine
end

