-- ==== Sys2Proof/Laws/PerInstr.lean ====
section
/-! SUPPORT. Encoding.Statement, instruction by instruction: decoding by table undoes what the encoder's tables say of the instruction. -/

namespace Sys2Proof.Laws

/-- The decoder's tables give the instruction back from what the encoder's tables say of it. -/
def Encoding.Statement (i : Instr) : Prop :=
  (∀ c f, codeOf i = some (c, f) → coreOf c f = some i) ∧
    (∀ op d a, op5Of i = some (op, d, a) → shortOf2 op d a = i) ∧
    (∀ op d a b, op6Of i = some (op, d, a, b) → shortOf4 op d a b = i)

theorem Encoding.core {i : Instr} {c : Code} {f : Fields} (h : codeOf i = some (c, f)) (h2 : op5Of i = none) (h4 : op6Of i = none)
    (g : coreOf c f = some i) : Encoding.Statement i := by
  refine ⟨fun x y e => ?_, fun _ _ _ e => ?_, fun _ _ _ _ e => ?_⟩
  · rw [h] at e; cases e; exact g
  · rw [h2] at e; cases e
  · rw [h4] at e; cases e

theorem Encoding.two {i : Instr} {op d a : BitVec 5} (h : codeOf i = none) (h2 : op5Of i = some (op, d, a)) (h4 : op6Of i = none)
    (g : shortOf2 op d a = i) : Encoding.Statement i := by
  refine ⟨fun _ _ e => ?_, fun _ _ _ e => ?_, fun _ _ _ _ e => ?_⟩
  · rw [h] at e; cases e
  · rw [h2] at e; cases e; exact g
  · rw [h4] at e; cases e

theorem Encoding.four {i : Instr} {op : BitVec 6} {d a b : BitVec 8} (h : codeOf i = none) (h2 : op5Of i = none)
    (h4 : op6Of i = some (op, d, a, b)) (g : shortOf4 op d a b = i) : Encoding.Statement i := by
  refine ⟨fun _ _ e => ?_, fun _ _ _ e => ?_, fun _ _ _ _ e => ?_⟩
  · rw [h] at e; cases e
  · rw [h2] at e; cases e
  · rw [h4] at e; cases e; exact g

theorem Encoding.event {i : Instr} (h : codeOf i = none) (h2 : op5Of i = none) (h4 : op6Of i = none) : Encoding.Statement i := by
  refine ⟨fun _ _ e => ?_, fun _ _ _ e => ?_, fun _ _ _ _ e => ?_⟩
  · rw [h] at e; cases e
  · rw [h2] at e; cases e
  · rw [h4] at e; cases e

theorem Encoding.nop (f : Fields) : Encoding.Statement (.nop f) := Encoding.core rfl rfl rfl rfl
theorem Encoding.halt (f : Fields) : Encoding.Statement (.halt f) := Encoding.core rfl rfl rfl rfl
theorem Encoding.waitc (f : Fields) : Encoding.Statement (.waitc f) := Encoding.core rfl rfl rfl rfl
theorem Encoding.br (f : Fields) : Encoding.Statement (.br f) := Encoding.core rfl rfl rfl rfl
theorem Encoding.brcEq (f : Fields) : Encoding.Statement (.brcEq f) := Encoding.core rfl rfl rfl rfl
theorem Encoding.brcNe (f : Fields) : Encoding.Statement (.brcNe f) := Encoding.core rfl rfl rfl rfl
theorem Encoding.brcLt (f : Fields) : Encoding.Statement (.brcLt f) := Encoding.core rfl rfl rfl rfl
theorem Encoding.brcGe (f : Fields) : Encoding.Statement (.brcGe f) := Encoding.core rfl rfl rfl rfl
theorem Encoding.brcLtn (f : Fields) : Encoding.Statement (.brcLtn f) := Encoding.core rfl rfl rfl rfl
theorem Encoding.brcGen (f : Fields) : Encoding.Statement (.brcGen f) := Encoding.core rfl rfl rfl rfl
theorem Encoding.brcBset (f : Fields) : Encoding.Statement (.brcBset f) := Encoding.core rfl rfl rfl rfl
theorem Encoding.brcBclr (f : Fields) : Encoding.Statement (.brcBclr f) := Encoding.core rfl rfl rfl rfl
theorem Encoding.brciEq (f : Fields) : Encoding.Statement (.brciEq f) := Encoding.core rfl rfl rfl rfl
theorem Encoding.brciNe (f : Fields) : Encoding.Statement (.brciNe f) := Encoding.core rfl rfl rfl rfl
theorem Encoding.brciLt (f : Fields) : Encoding.Statement (.brciLt f) := Encoding.core rfl rfl rfl rfl
theorem Encoding.brciGe (f : Fields) : Encoding.Statement (.brciGe f) := Encoding.core rfl rfl rfl rfl
theorem Encoding.brciLtn (f : Fields) : Encoding.Statement (.brciLtn f) := Encoding.core rfl rfl rfl rfl
theorem Encoding.brciGen (f : Fields) : Encoding.Statement (.brciGen f) := Encoding.core rfl rfl rfl rfl
theorem Encoding.brciBset (f : Fields) : Encoding.Statement (.brciBset f) := Encoding.core rfl rfl rfl rfl
theorem Encoding.brciBclr (f : Fields) : Encoding.Statement (.brciBclr f) := Encoding.core rfl rfl rfl rfl
theorem Encoding.loop (f : Fields) : Encoding.Statement (.loop f) := Encoding.core rfl rfl rfl rfl
theorem Encoding.call (f : Fields) : Encoding.Statement (.call f) := Encoding.core rfl rfl rfl rfl
theorem Encoding.jmpr (f : Fields) : Encoding.Statement (.jmpr f) := Encoding.core rfl rfl rfl rfl
theorem Encoding.callr (f : Fields) : Encoding.Statement (.callr f) := Encoding.core rfl rfl rfl rfl
theorem Encoding.ret (f : Fields) : Encoding.Statement (.ret f) := Encoding.core rfl rfl rfl rfl
theorem Encoding.add (f : Fields) : Encoding.Statement (.add f) := Encoding.core rfl rfl rfl rfl
theorem Encoding.sub (f : Fields) : Encoding.Statement (.sub f) := Encoding.core rfl rfl rfl rfl
theorem Encoding.and (f : Fields) : Encoding.Statement (.and f) := Encoding.core rfl rfl rfl rfl
theorem Encoding.or (f : Fields) : Encoding.Statement (.or f) := Encoding.core rfl rfl rfl rfl
theorem Encoding.xor (f : Fields) : Encoding.Statement (.xor f) := Encoding.core rfl rfl rfl rfl
theorem Encoding.andn (f : Fields) : Encoding.Statement (.andn f) := Encoding.core rfl rfl rfl rfl
theorem Encoding.shl (f : Fields) : Encoding.Statement (.shl f) := Encoding.core rfl rfl rfl rfl
theorem Encoding.shr (f : Fields) : Encoding.Statement (.shr f) := Encoding.core rfl rfl rfl rfl
theorem Encoding.sar (f : Fields) : Encoding.Statement (.sar f) := Encoding.core rfl rfl rfl rfl
theorem Encoding.rol (f : Fields) : Encoding.Statement (.rol f) := Encoding.core rfl rfl rfl rfl
theorem Encoding.min (f : Fields) : Encoding.Statement (.min f) := Encoding.core rfl rfl rfl rfl
theorem Encoding.max (f : Fields) : Encoding.Statement (.max f) := Encoding.core rfl rfl rfl rfl
theorem Encoding.minn (f : Fields) : Encoding.Statement (.minn f) := Encoding.core rfl rfl rfl rfl
theorem Encoding.maxn (f : Fields) : Encoding.Statement (.maxn f) := Encoding.core rfl rfl rfl rfl
theorem Encoding.slt (f : Fields) : Encoding.Statement (.slt f) := Encoding.core rfl rfl rfl rfl
theorem Encoding.sltn (f : Fields) : Encoding.Statement (.sltn f) := Encoding.core rfl rfl rfl rfl
theorem Encoding.addi (f : Fields) : Encoding.Statement (.addi f) := Encoding.core rfl rfl rfl rfl
theorem Encoding.subi (f : Fields) : Encoding.Statement (.subi f) := Encoding.core rfl rfl rfl rfl
theorem Encoding.andi (f : Fields) : Encoding.Statement (.andi f) := Encoding.core rfl rfl rfl rfl
theorem Encoding.ori (f : Fields) : Encoding.Statement (.ori f) := Encoding.core rfl rfl rfl rfl
theorem Encoding.xori (f : Fields) : Encoding.Statement (.xori f) := Encoding.core rfl rfl rfl rfl
theorem Encoding.andni (f : Fields) : Encoding.Statement (.andni f) := Encoding.core rfl rfl rfl rfl
theorem Encoding.shli (f : Fields) : Encoding.Statement (.shli f) := Encoding.core rfl rfl rfl rfl
theorem Encoding.shri (f : Fields) : Encoding.Statement (.shri f) := Encoding.core rfl rfl rfl rfl
theorem Encoding.sari (f : Fields) : Encoding.Statement (.sari f) := Encoding.core rfl rfl rfl rfl
theorem Encoding.roli (f : Fields) : Encoding.Statement (.roli f) := Encoding.core rfl rfl rfl rfl
theorem Encoding.mini (f : Fields) : Encoding.Statement (.mini f) := Encoding.core rfl rfl rfl rfl
theorem Encoding.maxi (f : Fields) : Encoding.Statement (.maxi f) := Encoding.core rfl rfl rfl rfl
theorem Encoding.minni (f : Fields) : Encoding.Statement (.minni f) := Encoding.core rfl rfl rfl rfl
theorem Encoding.maxni (f : Fields) : Encoding.Statement (.maxni f) := Encoding.core rfl rfl rfl rfl
theorem Encoding.slti (f : Fields) : Encoding.Statement (.slti f) := Encoding.core rfl rfl rfl rfl
theorem Encoding.sltni (f : Fields) : Encoding.Statement (.sltni f) := Encoding.core rfl rfl rfl rfl
theorem Encoding.mul (f : Fields) : Encoding.Statement (.mul f) := Encoding.core rfl rfl rfl rfl
theorem Encoding.mulh (f : Fields) : Encoding.Statement (.mulh f) := Encoding.core rfl rfl rfl rfl
theorem Encoding.mulhn (f : Fields) : Encoding.Statement (.mulhn f) := Encoding.core rfl rfl rfl rfl
theorem Encoding.div (f : Fields) : Encoding.Statement (.div f) := Encoding.core rfl rfl rfl rfl
theorem Encoding.divn (f : Fields) : Encoding.Statement (.divn f) := Encoding.core rfl rfl rfl rfl
theorem Encoding.rem (f : Fields) : Encoding.Statement (.rem f) := Encoding.core rfl rfl rfl rfl
theorem Encoding.remn (f : Fields) : Encoding.Statement (.remn f) := Encoding.core rfl rfl rfl rfl
theorem Encoding.clz (f : Fields) : Encoding.Statement (.clz f) := Encoding.core rfl rfl rfl rfl
theorem Encoding.ctz (f : Fields) : Encoding.Statement (.ctz f) := Encoding.core rfl rfl rfl rfl
theorem Encoding.popc (f : Fields) : Encoding.Statement (.popc f) := Encoding.core rfl rfl rfl rfl
theorem Encoding.brev (f : Fields) : Encoding.Statement (.brev f) := Encoding.core rfl rfl rfl rfl
theorem Encoding.sext (f : Fields) : Encoding.Statement (.sext f) := Encoding.core rfl rfl rfl rfl
theorem Encoding.zext (f : Fields) : Encoding.Statement (.zext f) := Encoding.core rfl rfl rfl rfl
theorem Encoding.sel (f : Fields) : Encoding.Statement (.sel f) := Encoding.core rfl rfl rfl rfl
theorem Encoding.li (f : Fields) : Encoding.Statement (.li f) := Encoding.core rfl rfl rfl rfl
theorem Encoding.lui (f : Fields) : Encoding.Statement (.lui f) := Encoding.core rfl rfl rfl rfl
theorem Encoding.mov (f : Fields) : Encoding.Statement (.mov f) := Encoding.core rfl rfl rfl rfl
theorem Encoding.mfs (f : Fields) : Encoding.Statement (.mfs f) := Encoding.core rfl rfl rfl rfl
theorem Encoding.mts (f : Fields) : Encoding.Statement (.mts f) := Encoding.core rfl rfl rfl rfl
theorem Encoding.lds (f : Fields) : Encoding.Statement (.lds f) := Encoding.core rfl rfl rfl rfl
theorem Encoding.sts (f : Fields) : Encoding.Statement (.sts f) := Encoding.core rfl rfl rfl rfl
theorem Encoding.tokw (f : Fields) : Encoding.Statement (.tokw f) := Encoding.core rfl rfl rfl rfl
theorem Encoding.toks (f : Fields) : Encoding.Statement (.toks f) := Encoding.core rfl rfl rfl rfl
theorem Encoding.nop2b (d a : BitVec 5) : Encoding.Statement (.nop2b d a) := Encoding.two rfl rfl rfl rfl
theorem Encoding.add2b (d a : BitVec 5) : Encoding.Statement (.add2b d a) := Encoding.two rfl rfl rfl rfl
theorem Encoding.sub2b (d a : BitVec 5) : Encoding.Statement (.sub2b d a) := Encoding.two rfl rfl rfl rfl
theorem Encoding.and2b (d a : BitVec 5) : Encoding.Statement (.and2b d a) := Encoding.two rfl rfl rfl rfl
theorem Encoding.or2b (d a : BitVec 5) : Encoding.Statement (.or2b d a) := Encoding.two rfl rfl rfl rfl
theorem Encoding.xor2b (d a : BitVec 5) : Encoding.Statement (.xor2b d a) := Encoding.two rfl rfl rfl rfl
theorem Encoding.andn2b (d a : BitVec 5) : Encoding.Statement (.andn2b d a) := Encoding.two rfl rfl rfl rfl
theorem Encoding.shl2b (d a : BitVec 5) : Encoding.Statement (.shl2b d a) := Encoding.two rfl rfl rfl rfl
theorem Encoding.shr2b (d a : BitVec 5) : Encoding.Statement (.shr2b d a) := Encoding.two rfl rfl rfl rfl
theorem Encoding.sar2b (d a : BitVec 5) : Encoding.Statement (.sar2b d a) := Encoding.two rfl rfl rfl rfl
theorem Encoding.rol2b (d a : BitVec 5) : Encoding.Statement (.rol2b d a) := Encoding.two rfl rfl rfl rfl
theorem Encoding.min2b (d a : BitVec 5) : Encoding.Statement (.min2b d a) := Encoding.two rfl rfl rfl rfl
theorem Encoding.max2b (d a : BitVec 5) : Encoding.Statement (.max2b d a) := Encoding.two rfl rfl rfl rfl
theorem Encoding.minn2b (d a : BitVec 5) : Encoding.Statement (.minn2b d a) := Encoding.two rfl rfl rfl rfl
theorem Encoding.maxn2b (d a : BitVec 5) : Encoding.Statement (.maxn2b d a) := Encoding.two rfl rfl rfl rfl
theorem Encoding.slt2b (d a : BitVec 5) : Encoding.Statement (.slt2b d a) := Encoding.two rfl rfl rfl rfl
theorem Encoding.sltn2b (d a : BitVec 5) : Encoding.Statement (.sltn2b d a) := Encoding.two rfl rfl rfl rfl
theorem Encoding.mul2b (d a : BitVec 5) : Encoding.Statement (.mul2b d a) := Encoding.two rfl rfl rfl rfl
theorem Encoding.mulh2b (d a : BitVec 5) : Encoding.Statement (.mulh2b d a) := Encoding.two rfl rfl rfl rfl
theorem Encoding.mulhn2b (d a : BitVec 5) : Encoding.Statement (.mulhn2b d a) := Encoding.two rfl rfl rfl rfl
theorem Encoding.div2b (d a : BitVec 5) : Encoding.Statement (.div2b d a) := Encoding.two rfl rfl rfl rfl
theorem Encoding.divn2b (d a : BitVec 5) : Encoding.Statement (.divn2b d a) := Encoding.two rfl rfl rfl rfl
theorem Encoding.rem2b (d a : BitVec 5) : Encoding.Statement (.rem2b d a) := Encoding.two rfl rfl rfl rfl
theorem Encoding.remn2b (d a : BitVec 5) : Encoding.Statement (.remn2b d a) := Encoding.two rfl rfl rfl rfl
theorem Encoding.clz2b (d a : BitVec 5) : Encoding.Statement (.clz2b d a) := Encoding.two rfl rfl rfl rfl
theorem Encoding.ctz2b (d a : BitVec 5) : Encoding.Statement (.ctz2b d a) := Encoding.two rfl rfl rfl rfl
theorem Encoding.popc2b (d a : BitVec 5) : Encoding.Statement (.popc2b d a) := Encoding.two rfl rfl rfl rfl
theorem Encoding.brev2b (d a : BitVec 5) : Encoding.Statement (.brev2b d a) := Encoding.two rfl rfl rfl rfl
theorem Encoding.sextI82b (d a : BitVec 5) : Encoding.Statement (.sextI82b d a) := Encoding.two rfl rfl rfl rfl
theorem Encoding.sextI162b (d a : BitVec 5) : Encoding.Statement (.sextI162b d a) := Encoding.two rfl rfl rfl rfl
theorem Encoding.sextI322b (d a : BitVec 5) : Encoding.Statement (.sextI322b d a) := Encoding.two rfl rfl rfl rfl
theorem Encoding.mov2b (d a : BitVec 5) : Encoding.Statement (.mov2b d a) := Encoding.two rfl rfl rfl rfl
theorem Encoding.vmov (f : Fields) : Encoding.Statement (.vmov f) := Encoding.core rfl rfl rfl rfl
theorem Encoding.vand (f : Fields) : Encoding.Statement (.vand f) := Encoding.core rfl rfl rfl rfl
theorem Encoding.vor (f : Fields) : Encoding.Statement (.vor f) := Encoding.core rfl rfl rfl rfl
theorem Encoding.vxor (f : Fields) : Encoding.Statement (.vxor f) := Encoding.core rfl rfl rfl rfl
theorem Encoding.vandn (f : Fields) : Encoding.Statement (.vandn f) := Encoding.core rfl rfl rfl rfl
theorem Encoding.vadd (f : Fields) : Encoding.Statement (.vadd f) := Encoding.core rfl rfl rfl rfl
theorem Encoding.vsub (f : Fields) : Encoding.Statement (.vsub f) := Encoding.core rfl rfl rfl rfl
theorem Encoding.vmin (f : Fields) : Encoding.Statement (.vmin f) := Encoding.core rfl rfl rfl rfl
theorem Encoding.vmax (f : Fields) : Encoding.Statement (.vmax f) := Encoding.core rfl rfl rfl rfl
theorem Encoding.vminn (f : Fields) : Encoding.Statement (.vminn f) := Encoding.core rfl rfl rfl rfl
theorem Encoding.vmaxn (f : Fields) : Encoding.Statement (.vmaxn f) := Encoding.core rfl rfl rfl rfl
theorem Encoding.vmul (f : Fields) : Encoding.Statement (.vmul f) := Encoding.core rfl rfl rfl rfl
theorem Encoding.vmulh (f : Fields) : Encoding.Statement (.vmulh f) := Encoding.core rfl rfl rfl rfl
theorem Encoding.vshl (f : Fields) : Encoding.Statement (.vshl f) := Encoding.core rfl rfl rfl rfl
theorem Encoding.vshr (f : Fields) : Encoding.Statement (.vshr f) := Encoding.core rfl rfl rfl rfl
theorem Encoding.vsar (f : Fields) : Encoding.Statement (.vsar f) := Encoding.core rfl rfl rfl rfl
theorem Encoding.vavg (f : Fields) : Encoding.Statement (.vavg f) := Encoding.core rfl rfl rfl rfl
theorem Encoding.vcmpEq (f : Fields) : Encoding.Statement (.vcmpEq f) := Encoding.core rfl rfl rfl rfl
theorem Encoding.vcmpNe (f : Fields) : Encoding.Statement (.vcmpNe f) := Encoding.core rfl rfl rfl rfl
theorem Encoding.vcmpLt (f : Fields) : Encoding.Statement (.vcmpLt f) := Encoding.core rfl rfl rfl rfl
theorem Encoding.vcmpGe (f : Fields) : Encoding.Statement (.vcmpGe f) := Encoding.core rfl rfl rfl rfl
theorem Encoding.vcmpLtn (f : Fields) : Encoding.Statement (.vcmpLtn f) := Encoding.core rfl rfl rfl rfl
theorem Encoding.vcmpGen (f : Fields) : Encoding.Statement (.vcmpGen f) := Encoding.core rfl rfl rfl rfl
theorem Encoding.vsel (f : Fields) : Encoding.Statement (.vsel f) := Encoding.core rfl rfl rfl rfl
theorem Encoding.vabs (f : Fields) : Encoding.Statement (.vabs f) := Encoding.core rfl rfl rfl rfl
theorem Encoding.vclz (f : Fields) : Encoding.Statement (.vclz f) := Encoding.core rfl rfl rfl rfl
theorem Encoding.vpopc (f : Fields) : Encoding.Statement (.vpopc f) := Encoding.core rfl rfl rfl rfl
theorem Encoding.vredAdd (f : Fields) : Encoding.Statement (.vredAdd f) := Encoding.core rfl rfl rfl rfl
theorem Encoding.vredMin (f : Fields) : Encoding.Statement (.vredMin f) := Encoding.core rfl rfl rfl rfl
theorem Encoding.vredMax (f : Fields) : Encoding.Statement (.vredMax f) := Encoding.core rfl rfl rfl rfl
theorem Encoding.vredMinn (f : Fields) : Encoding.Statement (.vredMinn f) := Encoding.core rfl rfl rfl rfl
theorem Encoding.vredMaxn (f : Fields) : Encoding.Statement (.vredMaxn f) := Encoding.core rfl rfl rfl rfl
theorem Encoding.vredAnd (f : Fields) : Encoding.Statement (.vredAnd f) := Encoding.core rfl rfl rfl rfl
theorem Encoding.vredOr (f : Fields) : Encoding.Statement (.vredOr f) := Encoding.core rfl rfl rfl rfl
theorem Encoding.vredXor (f : Fields) : Encoding.Statement (.vredXor f) := Encoding.core rfl rfl rfl rfl
theorem Encoding.vaddin (f : Fields) : Encoding.Statement (.vaddin f) := Encoding.core rfl rfl rfl rfl
theorem Encoding.vsubin (f : Fields) : Encoding.Statement (.vsubin f) := Encoding.core rfl rfl rfl rfl
theorem Encoding.vnegin (f : Fields) : Encoding.Statement (.vnegin f) := Encoding.core rfl rfl rfl rfl
theorem Encoding.vnotin (f : Fields) : Encoding.Statement (.vnotin f) := Encoding.core rfl rfl rfl rfl
theorem Encoding.vrotin (f : Fields) : Encoding.Statement (.vrotin f) := Encoding.core rfl rfl rfl rfl
theorem Encoding.vmulin (f : Fields) : Encoding.Statement (.vmulin f) := Encoding.core rfl rfl rfl rfl
theorem Encoding.vbrevin (f : Fields) : Encoding.Statement (.vbrevin f) := Encoding.core rfl rfl rfl rfl
theorem Encoding.vswap (f : Fields) : Encoding.Statement (.vswap f) := Encoding.core rfl rfl rfl rfl
theorem Encoding.vcswap (f : Fields) : Encoding.Statement (.vcswap f) := Encoding.core rfl rfl rfl rfl
theorem Encoding.vrevl (f : Fields) : Encoding.Statement (.vrevl f) := Encoding.core rfl rfl rfl rfl
theorem Encoding.vrotl (f : Fields) : Encoding.Statement (.vrotl f) := Encoding.core rfl rfl rfl rfl
theorem Encoding.vbfly (f : Fields) : Encoding.Statement (.vbfly f) := Encoding.core rfl rfl rfl rfl
theorem Encoding.vmaxk (f : Fields) : Encoding.Statement (.vmaxk f) := Encoding.core rfl rfl rfl rfl
theorem Encoding.vmink (f : Fields) : Encoding.Statement (.vmink f) := Encoding.core rfl rfl rfl rfl
theorem Encoding.vmaxnk (f : Fields) : Encoding.Statement (.vmaxnk f) := Encoding.core rfl rfl rfl rfl
theorem Encoding.vminnk (f : Fields) : Encoding.Statement (.vminnk f) := Encoding.core rfl rfl rfl rfl
theorem Encoding.vabsk (f : Fields) : Encoding.Statement (.vabsk f) := Encoding.core rfl rfl rfl rfl
theorem Encoding.vuncx (f : Fields) : Encoding.Statement (.vuncx f) := Encoding.core rfl rfl rfl rfl
theorem Encoding.vunabs (f : Fields) : Encoding.Statement (.vunabs f) := Encoding.core rfl rfl rfl rfl
theorem Encoding.npush (f : Fields) : Encoding.Statement (.npush f) := Encoding.core rfl rfl rfl rfl
theorem Encoding.nunpush (f : Fields) : Encoding.Statement (.nunpush f) := Encoding.core rfl rfl rfl rfl
theorem Encoding.npop (f : Fields) : Encoding.Statement (.npop f) := Encoding.core rfl rfl rfl rfl
theorem Encoding.ndrop (f : Fields) : Encoding.Statement (.ndrop f) := Encoding.core rfl rfl rfl rfl
theorem Encoding.nspill (f : Fields) : Encoding.Statement (.nspill f) := Encoding.core rfl rfl rfl rfl
theorem Encoding.nfill (f : Fields) : Encoding.Statement (.nfill f) := Encoding.core rfl rfl rfl rfl
theorem Encoding.ndepth (f : Fields) : Encoding.Statement (.ndepth f) := Encoding.core rfl rfl rfl rfl
theorem Encoding.erase (f : Fields) : Encoding.Statement (.erase f) := Encoding.core rfl rfl rfl rfl
theorem Encoding.vmov4b (d a b : BitVec 8) : Encoding.Statement (.vmov4b d a b) := Encoding.four rfl rfl rfl rfl
theorem Encoding.vand4b (d a b : BitVec 8) : Encoding.Statement (.vand4b d a b) := Encoding.four rfl rfl rfl rfl
theorem Encoding.vor4b (d a b : BitVec 8) : Encoding.Statement (.vor4b d a b) := Encoding.four rfl rfl rfl rfl
theorem Encoding.vxor4b (d a b : BitVec 8) : Encoding.Statement (.vxor4b d a b) := Encoding.four rfl rfl rfl rfl
theorem Encoding.vandn4b (d a b : BitVec 8) : Encoding.Statement (.vandn4b d a b) := Encoding.four rfl rfl rfl rfl
theorem Encoding.vadd4b (d a b : BitVec 8) : Encoding.Statement (.vadd4b d a b) := Encoding.four rfl rfl rfl rfl
theorem Encoding.vsub4b (d a b : BitVec 8) : Encoding.Statement (.vsub4b d a b) := Encoding.four rfl rfl rfl rfl
theorem Encoding.vmul4b (d a b : BitVec 8) : Encoding.Statement (.vmul4b d a b) := Encoding.four rfl rfl rfl rfl
theorem Encoding.vmin4b (d a b : BitVec 8) : Encoding.Statement (.vmin4b d a b) := Encoding.four rfl rfl rfl rfl
theorem Encoding.vmax4b (d a b : BitVec 8) : Encoding.Statement (.vmax4b d a b) := Encoding.four rfl rfl rfl rfl
theorem Encoding.vminn4b (d a b : BitVec 8) : Encoding.Statement (.vminn4b d a b) := Encoding.four rfl rfl rfl rfl
theorem Encoding.vmaxn4b (d a b : BitVec 8) : Encoding.Statement (.vmaxn4b d a b) := Encoding.four rfl rfl rfl rfl
theorem Encoding.vshl4b (d a b : BitVec 8) : Encoding.Statement (.vshl4b d a b) := Encoding.four rfl rfl rfl rfl
theorem Encoding.vshr4b (d a b : BitVec 8) : Encoding.Statement (.vshr4b d a b) := Encoding.four rfl rfl rfl rfl
theorem Encoding.vsar4b (d a b : BitVec 8) : Encoding.Statement (.vsar4b d a b) := Encoding.four rfl rfl rfl rfl
theorem Encoding.vavg4b (d a b : BitVec 8) : Encoding.Statement (.vavg4b d a b) := Encoding.four rfl rfl rfl rfl
theorem Encoding.vaddI164b (d a b : BitVec 8) : Encoding.Statement (.vaddI164b d a b) := Encoding.four rfl rfl rfl rfl
theorem Encoding.vsubI164b (d a b : BitVec 8) : Encoding.Statement (.vsubI164b d a b) := Encoding.four rfl rfl rfl rfl
theorem Encoding.vaddI84b (d a b : BitVec 8) : Encoding.Statement (.vaddI84b d a b) := Encoding.four rfl rfl rfl rfl
theorem Encoding.vsubI84b (d a b : BitVec 8) : Encoding.Statement (.vsubI84b d a b) := Encoding.four rfl rfl rfl rfl
theorem Encoding.vmaxI164b (d a b : BitVec 8) : Encoding.Statement (.vmaxI164b d a b) := Encoding.four rfl rfl rfl rfl
theorem Encoding.vminI164b (d a b : BitVec 8) : Encoding.Statement (.vminI164b d a b) := Encoding.four rfl rfl rfl rfl
theorem Encoding.vmulI164b (d a b : BitVec 8) : Encoding.Statement (.vmulI164b d a b) := Encoding.four rfl rfl rfl rfl
theorem Encoding.vmulhI164b (d a b : BitVec 8) : Encoding.Statement (.vmulhI164b d a b) := Encoding.four rfl rfl rfl rfl
theorem Encoding.vaddin4b (d a b : BitVec 8) : Encoding.Statement (.vaddin4b d a b) := Encoding.four rfl rfl rfl rfl
theorem Encoding.vsubin4b (d a b : BitVec 8) : Encoding.Statement (.vsubin4b d a b) := Encoding.four rfl rfl rfl rfl
theorem Encoding.vnegin4b (d a b : BitVec 8) : Encoding.Statement (.vnegin4b d a b) := Encoding.four rfl rfl rfl rfl
theorem Encoding.vnotin4b (d a b : BitVec 8) : Encoding.Statement (.vnotin4b d a b) := Encoding.four rfl rfl rfl rfl
theorem Encoding.vswap4b (d a b : BitVec 8) : Encoding.Statement (.vswap4b d a b) := Encoding.four rfl rfl rfl rfl
theorem Encoding.vpopc4b (d a b : BitVec 8) : Encoding.Statement (.vpopc4b d a b) := Encoding.four rfl rfl rfl rfl
theorem Encoding.vrevl4b (d a b : BitVec 8) : Encoding.Statement (.vrevl4b d a b) := Encoding.four rfl rfl rfl rfl
theorem Encoding.vabs4b (d a b : BitVec 8) : Encoding.Statement (.vabs4b d a b) := Encoding.four rfl rfl rfl rfl
theorem Encoding.vmaxk4b (d a b : BitVec 8) : Encoding.Statement (.vmaxk4b d a b) := Encoding.four rfl rfl rfl rfl
theorem Encoding.vmink4b (d a b : BitVec 8) : Encoding.Statement (.vmink4b d a b) := Encoding.four rfl rfl rfl rfl
theorem Encoding.vmaxnk4b (d a b : BitVec 8) : Encoding.Statement (.vmaxnk4b d a b) := Encoding.four rfl rfl rfl rfl
theorem Encoding.vminnk4b (d a b : BitVec 8) : Encoding.Statement (.vminnk4b d a b) := Encoding.four rfl rfl rfl rfl
theorem Encoding.vabsk4b (d a b : BitVec 8) : Encoding.Statement (.vabsk4b d a b) := Encoding.four rfl rfl rfl rfl
theorem Encoding.vuncx4b (d a b : BitVec 8) : Encoding.Statement (.vuncx4b d a b) := Encoding.four rfl rfl rfl rfl
theorem Encoding.vunabs4b (d a b : BitVec 8) : Encoding.Statement (.vunabs4b d a b) := Encoding.four rfl rfl rfl rfl
theorem Encoding.erase4b (d a b : BitVec 8) : Encoding.Statement (.erase4b d a b) := Encoding.four rfl rfl rfl rfl
theorem Encoding.vfadd4b (d a b : BitVec 8) : Encoding.Statement (.vfadd4b d a b) := Encoding.four rfl rfl rfl rfl
theorem Encoding.vfsub4b (d a b : BitVec 8) : Encoding.Statement (.vfsub4b d a b) := Encoding.four rfl rfl rfl rfl
theorem Encoding.vfmul4b (d a b : BitVec 8) : Encoding.Statement (.vfmul4b d a b) := Encoding.four rfl rfl rfl rfl
theorem Encoding.vfma4b (d a b : BitVec 8) : Encoding.Statement (.vfma4b d a b) := Encoding.four rfl rfl rfl rfl
theorem Encoding.vfms4b (d a b : BitVec 8) : Encoding.Statement (.vfms4b d a b) := Encoding.four rfl rfl rfl rfl
theorem Encoding.vfnma4b (d a b : BitVec 8) : Encoding.Statement (.vfnma4b d a b) := Encoding.four rfl rfl rfl rfl
theorem Encoding.vfmacE4b (d a b : BitVec 8) : Encoding.Statement (.vfmacE4b d a b) := Encoding.four rfl rfl rfl rfl
theorem Encoding.vfmin4b (d a b : BitVec 8) : Encoding.Statement (.vfmin4b d a b) := Encoding.four rfl rfl rfl rfl
theorem Encoding.vfmax4b (d a b : BitVec 8) : Encoding.Statement (.vfmax4b d a b) := Encoding.four rfl rfl rfl rfl
theorem Encoding.vfdiv4b (d a b : BitVec 8) : Encoding.Statement (.vfdiv4b d a b) := Encoding.four rfl rfl rfl rfl
theorem Encoding.vfsqrt4b (d a b : BitVec 8) : Encoding.Statement (.vfsqrt4b d a b) := Encoding.four rfl rfl rfl rfl
theorem Encoding.vfrcp4b (d a b : BitVec 8) : Encoding.Statement (.vfrcp4b d a b) := Encoding.four rfl rfl rfl rfl
theorem Encoding.vfrsq4b (d a b : BitVec 8) : Encoding.Statement (.vfrsq4b d a b) := Encoding.four rfl rfl rfl rfl
theorem Encoding.vfexp24b (d a b : BitVec 8) : Encoding.Statement (.vfexp24b d a b) := Encoding.four rfl rfl rfl rfl
theorem Encoding.vflog24b (d a b : BitVec 8) : Encoding.Statement (.vflog24b d a b) := Encoding.four rfl rfl rfl rfl
theorem Encoding.vfabs4b (d a b : BitVec 8) : Encoding.Statement (.vfabs4b d a b) := Encoding.four rfl rfl rfl rfl
theorem Encoding.vfaddBf164b (d a b : BitVec 8) : Encoding.Statement (.vfaddBf164b d a b) := Encoding.four rfl rfl rfl rfl
theorem Encoding.vfmaBf164b (d a b : BitVec 8) : Encoding.Statement (.vfmaBf164b d a b) := Encoding.four rfl rfl rfl rfl
theorem Encoding.vfnegin4b (d a b : BitVec 8) : Encoding.Statement (.vfnegin4b d a b) := Encoding.four rfl rfl rfl rfl
theorem Encoding.vmovE4b (d a b : BitVec 8) : Encoding.Statement (.vmovE4b d a b) := Encoding.four rfl rfl rfl rfl
theorem Encoding.vaddE4b (d a b : BitVec 8) : Encoding.Statement (.vaddE4b d a b) := Encoding.four rfl rfl rfl rfl
theorem Encoding.vfaddE4b (d a b : BitVec 8) : Encoding.Statement (.vfaddE4b d a b) := Encoding.four rfl rfl rfl rfl
theorem Encoding.vfmulE4b (d a b : BitVec 8) : Encoding.Statement (.vfmulE4b d a b) := Encoding.four rfl rfl rfl rfl
theorem Encoding.vfmaE4b (d a b : BitVec 8) : Encoding.Statement (.vfmaE4b d a b) := Encoding.four rfl rfl rfl rfl
theorem Encoding.vfadd (f : Fields) : Encoding.Statement (.vfadd f) := Encoding.core rfl rfl rfl rfl
theorem Encoding.vfsub (f : Fields) : Encoding.Statement (.vfsub f) := Encoding.core rfl rfl rfl rfl
theorem Encoding.vfmul (f : Fields) : Encoding.Statement (.vfmul f) := Encoding.core rfl rfl rfl rfl
theorem Encoding.vfmin (f : Fields) : Encoding.Statement (.vfmin f) := Encoding.core rfl rfl rfl rfl
theorem Encoding.vfmax (f : Fields) : Encoding.Statement (.vfmax f) := Encoding.core rfl rfl rfl rfl
theorem Encoding.vfdiv (f : Fields) : Encoding.Statement (.vfdiv f) := Encoding.core rfl rfl rfl rfl
theorem Encoding.vfscale (f : Fields) : Encoding.Statement (.vfscale f) := Encoding.core rfl rfl rfl rfl
theorem Encoding.vfcopysign (f : Fields) : Encoding.Statement (.vfcopysign f) := Encoding.core rfl rfl rfl rfl
theorem Encoding.vfma (f : Fields) : Encoding.Statement (.vfma f) := Encoding.core rfl rfl rfl rfl
theorem Encoding.vfms (f : Fields) : Encoding.Statement (.vfms f) := Encoding.core rfl rfl rfl rfl
theorem Encoding.vfnma (f : Fields) : Encoding.Statement (.vfnma f) := Encoding.core rfl rfl rfl rfl
theorem Encoding.vfmac (f : Fields) : Encoding.Statement (.vfmac f) := Encoding.core rfl rfl rfl rfl
theorem Encoding.vfabs (f : Fields) : Encoding.Statement (.vfabs f) := Encoding.core rfl rfl rfl rfl
theorem Encoding.vfsqrt (f : Fields) : Encoding.Statement (.vfsqrt f) := Encoding.core rfl rfl rfl rfl
theorem Encoding.vfrcp (f : Fields) : Encoding.Statement (.vfrcp f) := Encoding.core rfl rfl rfl rfl
theorem Encoding.vfrsq (f : Fields) : Encoding.Statement (.vfrsq f) := Encoding.core rfl rfl rfl rfl
theorem Encoding.vfexp2 (f : Fields) : Encoding.Statement (.vfexp2 f) := Encoding.core rfl rfl rfl rfl
theorem Encoding.vflog2 (f : Fields) : Encoding.Statement (.vflog2 f) := Encoding.core rfl rfl rfl rfl
theorem Encoding.vffloor (f : Fields) : Encoding.Statement (.vffloor f) := Encoding.core rfl rfl rfl rfl
theorem Encoding.vfceil (f : Fields) : Encoding.Statement (.vfceil f) := Encoding.core rfl rfl rfl rfl
theorem Encoding.vftrunc (f : Fields) : Encoding.Statement (.vftrunc f) := Encoding.core rfl rfl rfl rfl
theorem Encoding.vfrint (f : Fields) : Encoding.Statement (.vfrint f) := Encoding.core rfl rfl rfl rfl
theorem Encoding.vfclass (f : Fields) : Encoding.Statement (.vfclass f) := Encoding.core rfl rfl rfl rfl
theorem Encoding.vfcmpEq (f : Fields) : Encoding.Statement (.vfcmpEq f) := Encoding.core rfl rfl rfl rfl
theorem Encoding.vfcmpNe (f : Fields) : Encoding.Statement (.vfcmpNe f) := Encoding.core rfl rfl rfl rfl
theorem Encoding.vfcmpLt (f : Fields) : Encoding.Statement (.vfcmpLt f) := Encoding.core rfl rfl rfl rfl
theorem Encoding.vfcmpLe (f : Fields) : Encoding.Statement (.vfcmpLe f) := Encoding.core rfl rfl rfl rfl
theorem Encoding.vfcmpGt (f : Fields) : Encoding.Statement (.vfcmpGt f) := Encoding.core rfl rfl rfl rfl
theorem Encoding.vfcmpGe (f : Fields) : Encoding.Statement (.vfcmpGe f) := Encoding.core rfl rfl rfl rfl
theorem Encoding.vfcmpUnord (f : Fields) : Encoding.Statement (.vfcmpUnord f) := Encoding.core rfl rfl rfl rfl
theorem Encoding.vfcmpOrd (f : Fields) : Encoding.Statement (.vfcmpOrd f) := Encoding.core rfl rfl rfl rfl
theorem Encoding.vfredAdd (f : Fields) : Encoding.Statement (.vfredAdd f) := Encoding.core rfl rfl rfl rfl
theorem Encoding.vfredMax (f : Fields) : Encoding.Statement (.vfredMax f) := Encoding.core rfl rfl rfl rfl
theorem Encoding.vfredMin (f : Fields) : Encoding.Statement (.vfredMin f) := Encoding.core rfl rfl rfl rfl
theorem Encoding.vfredAmax (f : Fields) : Encoding.Statement (.vfredAmax f) := Encoding.core rfl rfl rfl rfl
theorem Encoding.vfnegin (f : Fields) : Encoding.Statement (.vfnegin f) := Encoding.core rfl rfl rfl rfl
theorem Encoding.vcvt (f : Fields) : Encoding.Statement (.vcvt f) := Encoding.core rfl rfl rfl rfl
theorem Encoding.vqnt (f : Fields) : Encoding.Statement (.vqnt f) := Encoding.core rfl rfl rfl rfl
theorem Encoding.vdqnt (f : Fields) : Encoding.Statement (.vdqnt f) := Encoding.core rfl rfl rfl rfl
theorem Encoding.vscl (f : Fields) : Encoding.Statement (.vscl f) := Encoding.core rfl rfl rfl rfl
theorem Encoding.vpack (f : Fields) : Encoding.Statement (.vpack f) := Encoding.core rfl rfl rfl rfl
theorem Encoding.vunpk (f : Fields) : Encoding.Statement (.vunpk f) := Encoding.core rfl rfl rfl rfl
theorem Encoding.vsplit (f : Fields) : Encoding.Statement (.vsplit f) := Encoding.core rfl rfl rfl rfl
theorem Encoding.mtt (f : Fields) : Encoding.Statement (.mtt f) := Encoding.core rfl rfl rfl rfl
theorem Encoding.mgo (f : Fields) : Encoding.Statement (.mgo f) := Encoding.core rfl rfl rfl rfl
theorem Encoding.mabort (f : Fields) : Encoding.Statement (.mabort f) := Encoding.core rfl rfl rfl rfl
theorem Encoding.mma (f : Fields) : Encoding.Statement (.mma f) := Encoding.core rfl rfl rfl rfl
theorem Encoding.mlda (f : Fields) : Encoding.Statement (.mlda f) := Encoding.core rfl rfl rfl rfl
theorem Encoding.wswap (f : Fields) : Encoding.Statement (.wswap f) := Encoding.core rfl rfl rfl rfl
theorem Encoding.adrn (f : Fields) : Encoding.Statement (.adrn f) := Encoding.core rfl rfl rfl rfl
theorem Encoding.aclr (f : Fields) : Encoding.Statement (.aclr f) := Encoding.core rfl rfl rfl rfl
theorem Encoding.reelon (f : Fields) : Encoding.Statement (.reelon f) := Encoding.core rfl rfl rfl rfl
theorem Encoding.reeloff (f : Fields) : Encoding.Statement (.reeloff f) := Encoding.core rfl rfl rfl rfl
theorem Encoding.cuew (f : Fields) : Encoding.Statement (.cuew f) := Encoding.core rfl rfl rfl rfl
theorem Encoding.cuedone (f : Fields) : Encoding.Statement (.cuedone f) := Encoding.core rfl rfl rfl rfl
theorem Encoding.cuepoll (f : Fields) : Encoding.Statement (.cuepoll f) := Encoding.core rfl rfl rfl rfl
theorem Encoding.hgdef (f : Fields) : Encoding.Statement (.hgdef f) := Encoding.core rfl rfl rfl rfl
theorem Encoding.hgl (f : Fields) : Encoding.Statement (.hgl f) := Encoding.core rfl rfl rfl rfl
theorem Encoding.hgsDet (f : Fields) : Encoding.Statement (.hgsDet f) := Encoding.core rfl rfl rfl rfl
theorem Encoding.hgsRel (f : Fields) : Encoding.Statement (.hgsRel f) := Encoding.core rfl rfl rfl rfl
theorem Encoding.hgw (f : Fields) : Encoding.Statement (.hgw f) := Encoding.core rfl rfl rfl rfl
theorem Encoding.vldUnit (f : Fields) : Encoding.Statement (.vldUnit f) := Encoding.core rfl rfl rfl rfl
theorem Encoding.vldStrd (f : Fields) : Encoding.Statement (.vldStrd f) := Encoding.core rfl rfl rfl rfl
theorem Encoding.vldGath (f : Fields) : Encoding.Statement (.vldGath f) := Encoding.core rfl rfl rfl rfl
theorem Encoding.vstUnit (f : Fields) : Encoding.Statement (.vstUnit f) := Encoding.core rfl rfl rfl rfl
theorem Encoding.vstStrd (f : Fields) : Encoding.Statement (.vstStrd f) := Encoding.core rfl rfl rfl rfl
theorem Encoding.vstScat (f : Fields) : Encoding.Statement (.vstScat f) := Encoding.core rfl rfl rfl rfl
theorem Encoding.tld (f : Fields) : Encoding.Statement (.tld f) := Encoding.core rfl rfl rfl rfl
theorem Encoding.tst (f : Fields) : Encoding.Statement (.tst f) := Encoding.core rfl rfl rfl rfl
theorem Encoding.sdef (f : Fields) : Encoding.Statement (.sdef f) := Encoding.core rfl rfl rfl rfl
theorem Encoding.cpy (f : Fields) : Encoding.Statement (.cpy f) := Encoding.core rfl rfl rfl rfl
theorem Encoding.cpyw (f : Fields) : Encoding.Statement (.cpyw f) := Encoding.core rfl rfl rfl rfl
theorem Encoding.pref (f : Fields) : Encoding.Statement (.pref f) := Encoding.core rfl rfl rfl rfl
theorem Encoding.smark (f : Fields) : Encoding.Statement (.smark f) := Encoding.core rfl rfl rfl rfl
theorem Encoding.phase (f : Fields) : Encoding.Statement (.phase f) := Encoding.core rfl rfl rfl rfl
theorem Encoding.vaultf (f : Fields) : Encoding.Statement (.vaultf f) := Encoding.core rfl rfl rfl rfl
theorem Encoding.rngclaim (f : Fields) : Encoding.Statement (.rngclaim f) := Encoding.core rfl rfl rfl rfl
theorem Encoding.rngfill (f : Fields) : Encoding.Statement (.rngfill f) := Encoding.core rfl rfl rfl rfl
theorem Encoding.rngwait (f : Fields) : Encoding.Statement (.rngwait f) := Encoding.core rfl rfl rfl rfl
theorem Encoding.rngfree (f : Fields) : Encoding.Statement (.rngfree f) := Encoding.core rfl rfl rfl rfl
theorem Encoding.bacq (f : Fields) : Encoding.Statement (.bacq f) := Encoding.core rfl rfl rfl rfl
theorem Encoding.brel (f : Fields) : Encoding.Statement (.brel f) := Encoding.core rfl rfl rfl rfl
theorem Encoding.rfadd (f : Fields) : Encoding.Statement (.rfadd f) := Encoding.core rfl rfl rfl rfl
theorem Encoding.mfset (f : Fields) : Encoding.Statement (.mfset f) := Encoding.core rfl rfl rfl rfl
theorem Encoding.flagw (f : Fields) : Encoding.Statement (.flagw f) := Encoding.core rfl rfl rfl rfl
theorem Encoding.flagclr (f : Fields) : Encoding.Statement (.flagclr f) := Encoding.core rfl rfl rfl rfl
theorem Encoding.flagrd (f : Fields) : Encoding.Statement (.flagrd f) := Encoding.core rfl rfl rfl rfl
theorem Encoding.fence (f : Fields) : Encoding.Statement (.fence f) := Encoding.core rfl rfl rfl rfl
theorem Encoding.atomAdd (f : Fields) : Encoding.Statement (.atomAdd f) := Encoding.core rfl rfl rfl rfl
theorem Encoding.atomAnd (f : Fields) : Encoding.Statement (.atomAnd f) := Encoding.core rfl rfl rfl rfl
theorem Encoding.atomOr (f : Fields) : Encoding.Statement (.atomOr f) := Encoding.core rfl rfl rfl rfl
theorem Encoding.atomXor (f : Fields) : Encoding.Statement (.atomXor f) := Encoding.core rfl rfl rfl rfl
theorem Encoding.atomMin (f : Fields) : Encoding.Statement (.atomMin f) := Encoding.core rfl rfl rfl rfl
theorem Encoding.atomMax (f : Fields) : Encoding.Statement (.atomMax f) := Encoding.core rfl rfl rfl rfl
theorem Encoding.atomMinn (f : Fields) : Encoding.Statement (.atomMinn f) := Encoding.core rfl rfl rfl rfl
theorem Encoding.atomMaxn (f : Fields) : Encoding.Statement (.atomMaxn f) := Encoding.core rfl rfl rfl rfl
theorem Encoding.atomXchg (f : Fields) : Encoding.Statement (.atomXchg f) := Encoding.core rfl rfl rfl rfl
theorem Encoding.atomCas (f : Fields) : Encoding.Statement (.atomCas f) := Encoding.core rfl rfl rfl rfl
theorem Encoding.atomFadd (f : Fields) : Encoding.Statement (.atomFadd f) := Encoding.core rfl rfl rfl rfl
theorem Encoding.atomFmin (f : Fields) : Encoding.Statement (.atomFmin f) := Encoding.core rfl rfl rfl rfl
theorem Encoding.atomFmax (f : Fields) : Encoding.Statement (.atomFmax f) := Encoding.core rfl rfl rfl rfl
theorem Encoding.vatomAdd (f : Fields) : Encoding.Statement (.vatomAdd f) := Encoding.core rfl rfl rfl rfl
theorem Encoding.vatomAnd (f : Fields) : Encoding.Statement (.vatomAnd f) := Encoding.core rfl rfl rfl rfl
theorem Encoding.vatomOr (f : Fields) : Encoding.Statement (.vatomOr f) := Encoding.core rfl rfl rfl rfl
theorem Encoding.vatomXor (f : Fields) : Encoding.Statement (.vatomXor f) := Encoding.core rfl rfl rfl rfl
theorem Encoding.vatomMin (f : Fields) : Encoding.Statement (.vatomMin f) := Encoding.core rfl rfl rfl rfl
theorem Encoding.vatomMax (f : Fields) : Encoding.Statement (.vatomMax f) := Encoding.core rfl rfl rfl rfl
theorem Encoding.vatomMinn (f : Fields) : Encoding.Statement (.vatomMinn f) := Encoding.core rfl rfl rfl rfl
theorem Encoding.vatomMaxn (f : Fields) : Encoding.Statement (.vatomMaxn f) := Encoding.core rfl rfl rfl rfl
theorem Encoding.vatomXchg (f : Fields) : Encoding.Statement (.vatomXchg f) := Encoding.core rfl rfl rfl rfl
theorem Encoding.vatomCas (f : Fields) : Encoding.Statement (.vatomCas f) := Encoding.core rfl rfl rfl rfl
theorem Encoding.vatomFadd (f : Fields) : Encoding.Statement (.vatomFadd f) := Encoding.core rfl rfl rfl rfl
theorem Encoding.vatomFmin (f : Fields) : Encoding.Statement (.vatomFmin f) := Encoding.core rfl rfl rfl rfl
theorem Encoding.vatomFmax (f : Fields) : Encoding.Statement (.vatomFmax f) := Encoding.core rfl rfl rfl rfl
theorem Encoding.scopeset (f : Fields) : Encoding.Statement (.scopeset f) := Encoding.core rfl rfl rfl rfl
theorem Encoding.xput (f : Fields) : Encoding.Statement (.xput f) := Encoding.core rfl rfl rfl rfl
theorem Encoding.xget (f : Fields) : Encoding.Statement (.xget f) := Encoding.core rfl rfl rfl rfl
theorem Encoding.clstFadd (f : Fields) : Encoding.Statement (.clstFadd f) := Encoding.core rfl rfl rfl rfl
theorem Encoding.clstFmax (f : Fields) : Encoding.Statement (.clstFmax f) := Encoding.core rfl rfl rfl rfl
theorem Encoding.clstFmin (f : Fields) : Encoding.Statement (.clstFmin f) := Encoding.core rfl rfl rfl rfl
theorem Encoding.clstIadd (f : Fields) : Encoding.Statement (.clstIadd f) := Encoding.core rfl rfl rfl rfl
theorem Encoding.clstImax (f : Fields) : Encoding.Statement (.clstImax f) := Encoding.core rfl rfl rfl rfl
theorem Encoding.trap (f : Fields) : Encoding.Statement (.trap f) := Encoding.core rfl rfl rfl rfl
theorem Encoding.eret (f : Fields) : Encoding.Statement (.eret f) := Encoding.core rfl rfl rfl rfl
theorem Encoding.brk (f : Fields) : Encoding.Statement (.brk f) := Encoding.core rfl rfl rfl rfl
theorem Encoding.wfe (f : Fields) : Encoding.Statement (.wfe f) := Encoding.core rfl rfl rfl rfl
theorem Encoding.evsig (f : Fields) : Encoding.Statement (.evsig f) := Encoding.core rfl rfl rfl rfl
theorem Encoding.synci (f : Fields) : Encoding.Statement (.synci f) := Encoding.core rfl rfl rfl rfl
theorem Encoding.tlbi (f : Fields) : Encoding.Statement (.tlbi f) := Encoding.core rfl rfl rfl rfl
theorem Encoding.csave (f : Fields) : Encoding.Statement (.csave f) := Encoding.core rfl rfl rfl rfl
theorem Encoding.crest (f : Fields) : Encoding.Statement (.crest f) := Encoding.core rfl rfl rfl rfl
theorem Encoding.mfp (f : Fields) : Encoding.Statement (.mfp f) := Encoding.core rfl rfl rfl rfl
theorem Encoding.mtp (f : Fields) : Encoding.Statement (.mtp f) := Encoding.core rfl rfl rfl rfl
theorem Encoding.yield (f : Fields) : Encoding.Statement (.yield f) := Encoding.core rfl rfl rfl rfl
theorem Encoding.krun (f : Fields) : Encoding.Statement (.krun f) := Encoding.core rfl rfl rfl rfl
theorem Encoding.strm (f : Fields) : Encoding.Statement (.strm f) := Encoding.core rfl rfl rfl rfl
theorem Encoding.sigAdd (f : Fields) : Encoding.Statement (.sigAdd f) := Encoding.core rfl rfl rfl rfl
theorem Encoding.sigSet (f : Fields) : Encoding.Statement (.sigSet f) := Encoding.core rfl rfl rfl rfl
theorem Encoding.sigWait (f : Fields) : Encoding.Statement (.sigWait f) := Encoding.core rfl rfl rfl rfl
theorem Encoding.kabort (f : Fields) : Encoding.Statement (.kabort f) := Encoding.core rfl rfl rfl rfl
theorem Encoding.stkmap (f : Fields) : Encoding.Statement (.stkmap f) := Encoding.core rfl rfl rfl rfl
theorem Encoding.permit (f : Fields) : Encoding.Statement (.permit f) := Encoding.core rfl rfl rfl rfl
theorem Encoding.prel (f : Fields) : Encoding.Statement (.prel f) := Encoding.core rfl rfl rfl rfl
theorem Encoding.lease (f : Fields) : Encoding.Statement (.lease f) := Encoding.core rfl rfl rfl rfl
theorem Encoding.opset (f : Fields) : Encoding.Statement (.opset f) := Encoding.core rfl rfl rfl rfl
theorem Encoding.gate (f : Fields) : Encoding.Statement (.gate f) := Encoding.core rfl rfl rfl rfl
theorem Encoding.icacheFill (node : Nat) (pc : Word) : Encoding.Statement (.icacheFill node pc) := Encoding.event rfl rfl rfl
theorem Encoding.instructionRetire (node : Nat) (seq : SeqId) (tag : Nat) : Encoding.Statement (.instructionRetire node seq tag) := Encoding.event rfl rfl rfl
theorem Encoding.waitTimeout (node : Nat) (seq : SeqId) : Encoding.Statement (.waitTimeout node seq) := Encoding.event rfl rfl rfl
theorem Encoding.hardwareBreakpoint (node : Nat) (seq : SeqId) : Encoding.Statement (.hardwareBreakpoint node seq) := Encoding.event rfl rfl rfl
theorem Encoding.accessPerform (node : Nat) (seq : SeqId) (path : Nat) : Encoding.Statement (.accessPerform node seq path) := Encoding.event rfl rfl rfl
theorem Encoding.pageWalk (node : Nat) (va : Word) : Encoding.Statement (.pageWalk node va) := Encoding.event rfl rfl rfl
theorem Encoding.copyChunk (node : Nat) (seq : SeqId) : Encoding.Statement (.copyChunk node seq) := Encoding.event rfl rfl rfl
theorem Encoding.nestPass (node : Nat) : Encoding.Statement (.nestPass node) := Encoding.event rfl rfl rfl
theorem Encoding.permitGrant (quad : Nat) : Encoding.Statement (.permitGrant quad) := Encoding.event rfl rfl rfl
theorem Encoding.permitLeaseExpiry (quad : Nat) : Encoding.Statement (.permitLeaseExpiry quad) := Encoding.event rfl rfl rfl
theorem Encoding.boostLeaseExpiry (node : Nat) : Encoding.Statement (.boostLeaseExpiry node) := Encoding.event rfl rfl rfl
theorem Encoding.fillCueSend (node : Nat) : Encoding.Statement (.fillCueSend node) := Encoding.event rfl rfl rfl
theorem Encoding.drainCueSend (node : Nat) : Encoding.Statement (.drainCueSend node) := Encoding.event rfl rfl rfl
theorem Encoding.cueDeliver (node : Nat) : Encoding.Statement (.cueDeliver node) := Encoding.event rfl rfl rfl
theorem Encoding.beatStart (node : Nat) : Encoding.Statement (.beatStart node) := Encoding.event rfl rfl rfl
theorem Encoding.beatSlotRead (node : Nat) : Encoding.Statement (.beatSlotRead node) := Encoding.event rfl rfl rfl
theorem Encoding.reelPromotion (node : Nat) : Encoding.Statement (.reelPromotion node) := Encoding.event rfl rfl rfl
theorem Encoding.beatMiss (node : Nat) : Encoding.Statement (.beatMiss node) := Encoding.event rfl rfl rfl
theorem Encoding.holdCheck (node : Nat) : Encoding.Statement (.holdCheck node) := Encoding.event rfl rfl rfl
theorem Encoding.cuedoneArrive (node : Nat) : Encoding.Statement (.cuedoneArrive node) := Encoding.event rfl rfl rfl
theorem Encoding.reeloffEffect (node : Nat) : Encoding.Statement (.reeloffEffect node) := Encoding.event rfl rfl rfl
theorem Encoding.reelEnd (node : Nat) : Encoding.Statement (.reelEnd node) := Encoding.event rfl rfl rfl
theorem Encoding.reelSuspend (node : Nat) : Encoding.Statement (.reelSuspend node) := Encoding.event rfl rfl rfl
theorem Encoding.phaseDrainEnd (bay : Nat) : Encoding.Statement (.phaseDrainEnd bay) := Encoding.event rfl rfl rfl
theorem Encoding.clstCombine (node : Nat) : Encoding.Statement (.clstCombine node) := Encoding.event rfl rfl rfl
theorem Encoding.remoteRequestArrive (node : Nat) (seq : SeqId) : Encoding.Statement (.remoteRequestArrive node seq) := Encoding.event rfl rfl rfl
theorem Encoding.eventDeliver (node : Nat) (seq : SeqId) : Encoding.Statement (.eventDeliver node seq) := Encoding.event rfl rfl rfl
theorem Encoding.preemptGraceEnd (node : Nat) : Encoding.Statement (.preemptGraceEnd node) := Encoding.event rfl rfl rfl
theorem Encoding.snapshotLand (node : Nat) : Encoding.Statement (.snapshotLand node) := Encoding.event rfl rfl rfl
theorem Encoding.entryIssue (stack : Nat) (entry : Nat) : Encoding.Statement (.entryIssue stack entry) := Encoding.event rfl rfl rfl
theorem Encoding.entryPromotion (stack : Nat) (entry : Nat) : Encoding.Statement (.entryPromotion stack entry) := Encoding.event rfl rfl rfl
theorem Encoding.kernelFinish (stack : Nat) (entry : Nat) : Encoding.Statement (.kernelFinish stack entry) := Encoding.event rfl rfl rfl
theorem Encoding.mboxWrite (box : Mailbox) (value : Word) : Encoding.Statement (.mboxWrite box value) := Encoding.event rfl rfl rfl
theorem Encoding.hostTlp (pkg fn addr : Nat) (op : HostOp) : Encoding.Statement (.hostTlp pkg fn addr op) := Encoding.event rfl rfl rfl
theorem Encoding.linkReplay (pkg : Nat) (link : Nat) : Encoding.Statement (.linkReplay pkg link) := Encoding.event rfl rfl rfl
theorem Encoding.clockThrottle (quad : Nat) (dt : Nat) : Encoding.Statement (.clockThrottle quad dt) := Encoding.event rfl rfl rfl
theorem Encoding.vaultRefreshRate (stack : Nat) : Encoding.Statement (.vaultRefreshRate stack) := Encoding.event rfl rfl rfl
theorem Encoding.breakEvenHoldEnd (stack : Nat) (dom : Nat) : Encoding.Statement (.breakEvenHoldEnd stack dom) := Encoding.event rfl rfl rfl
theorem Encoding.domainWake (stack : Nat) : Encoding.Statement (.domainWake stack) := Encoding.event rfl rfl rfl
theorem Encoding.coldBoot (pkg : Nat) : Encoding.Statement (.coldBoot pkg) := Encoding.event rfl rfl rfl
theorem Encoding.vaultScrub (pkg : Nat) : Encoding.Statement (.vaultScrub pkg) := Encoding.event rfl rfl rfl
theorem Encoding.getMeasurements (pkg : Nat) (nonce : List Byte) (dcc : Option Nat) : Encoding.Statement (.getMeasurements pkg nonce dcc) := Encoding.event rfl rfl rfl
theorem Encoding.fatalError (pkg : Nat) (source : Nat) : Encoding.Statement (.fatalError pkg source) := Encoding.event rfl rfl rfl
theorem Encoding.fqheadWrite (node : Nat) (value : Word) : Encoding.Statement (.fqheadWrite node value) := Encoding.event rfl rfl rfl
theorem Encoding.fqResetWrite (node : Nat) (num : Nat) (value : Word) : Encoding.Statement (.fqResetWrite node num value) := Encoding.event rfl rfl rfl
theorem Encoding.rngcfgWrite (node : Nat) (seq : SeqId) (value : Word) : Encoding.Statement (.rngcfgWrite node seq value) := Encoding.event rfl rfl rfl
theorem Encoding.bufcfgWrite (node : Nat) (seq : SeqId) (value : Word) : Encoding.Statement (.bufcfgWrite node seq value) := Encoding.event rfl rfl rfl
theorem Encoding.seqctlResume (node : Nat) (seq : SeqId) : Encoding.Statement (.seqctlResume node seq) := Encoding.event rfl rfl rfl
theorem Encoding.seqctlKill (node : Nat) (seq : SeqId) : Encoding.Statement (.seqctlKill node seq) := Encoding.event rfl rfl rfl
theorem Encoding.seqctlResumeXo (node : Nat) (seq : SeqId) : Encoding.Statement (.seqctlResumeXo node seq) := Encoding.event rfl rfl rfl
theorem Encoding.sysregWrite (node : Nat) (seq : SeqId) (num : Nat) (value : Word) : Encoding.Statement (.sysregWrite node seq num value) := Encoding.event rfl rfl rfl
theorem Encoding.fabricDomainFormation (pkgs : List Nat) : Encoding.Statement (.fabricDomainFormation pkgs) := Encoding.event rfl rfl rfl

end Sys2Proof.Laws
end

