-- ==== Sys2Proof/Tests/Slice0.lean ====
section
/-! SUPPORT. Tests: words of the spec's worked encodings, ill-formed terms that the checks refuse, single steps on small states with results from the spec's tables, and a witness for the hypotheses of each statement. -/

noncomputable section

set_option Elab.async false

namespace Sys2Proof.Tests

open Sys2Proof.Machine

/-! ## Decoding: the encodings that the spec writes out -/

/-- Fields of a 6-byte form. -/
def six (q : BitVec 3) (d a : BitVec 12) (x : BitVec 24) : Fields := ⟨.six, 0, 0, 0, false, 0, q, d, a, 0, x⟩
/-- Fields of a 12-byte form without tokens, hint, E or RC. -/
def long (q : BitVec 3) (d a b : BitVec 12) (x : BitVec 24) : Fields := ⟨.twelve, 0, 0, 0, false, 0, q, d, a, b, x⟩

/-- Table 2.11. -/
theorem test_decode_add2b : decode [0x04, 0x65] = .instr (.add2b 3 5) 2 := by decide +kernel
theorem test_decode_addi : decode [0xC1, 0x20, 0x42, 0x7F, 0xFF, 0xFD] = .instr (.addi (six 0 4 4 0xFFFFFD)) 6 := by decide +kernel
theorem test_decode_vfma4b : decode [0xAB, 0x04, 0x01, 0x89] = .instr (.vfma4b 0x04 0x01 0x89) 4 := by decide +kernel
theorem test_expand_vfma4b : internalWord (.vfma4b 0x04 0x01 0x89) = some (0x410, ⟨.four, 0, 0, 0, false, 0, 0, 4, 1, 0x409, 4⟩) := by decide +kernel
theorem test_decode_vadd : decode [0xE2, 0x14, 0x14, 0xA0, 0x07, 0x80, 0x34, 0x0C] =
    .instr (.vadd ⟨.eight, 1, 4, 0, true, 2, 2, 7, 0x803, 0x40C, 0⟩) 8 := by decide +kernel
theorem test_decode_vfma : decode [0xF2, 0x08, 0x00, 0x28, 0x10, 0x0A, 0x00, 0x10, 0x02, 0x00, 0x00, 0x03] =
    .instr (.vfma ⟨.twelve, 0, 0, 5, false, 0, 1, 0xA, 1, 2, 3⟩) 12 := by decide +kernel
/-- R33 of 03_notation and 04, 05, 07 to 17: the examples of the class chapters. -/
theorem test_decode_vfmul : decode [0xE4, 0x02, 0x10, 0x80, 0x08, 0x00, 0x24, 0x05] =
    .instr (.vfmul ⟨.eight, 1, 0, 0, true, 0, 0, 8, 2, 0x405, 0⟩) 8 := by decide +kernel
theorem test_decode_vfcmp : decode [0xE4, 0x32, 0x04, 0x00, 0x0D, 0x00, 0x9C, 0x28] =
    .instr (.vfcmpLt ⟨.eight, 0, 4, 0, false, 0, 0, 0xD, 9, 0xC28, 0⟩) 8 := by decide +kernel
theorem test_decode_brc : decode [0xC0, 0x44, 0x11, 0x7F, 0xFF, 0xFA] = .instr (.brcLt (six 0 1 2 0xFFFFFA)) 6 := by decide +kernel
theorem test_decode_vmaxk : decode [0xF1, 0x60, 0x00, 0x00, 0x10, 0x00, 0x00, 0x10, 0x00, 0x00, 0x00, 0x00] =
    .instr (.vmaxk (long 1 0 1 0 0)) 12 := by decide +kernel
theorem test_decode_vfred : decode [0xE4, 0x40, 0x00, 0x00, 0x05, 0x00, 0x00, 0x00] =
    .instr (.vfredAdd ⟨.eight, 0, 0, 0, false, 0, 0, 5, 0, 0, 0⟩) 8 := by decide +kernel
theorem test_decode_aclr : decode [0xCC, 0xE0, 0, 0, 0, 0] = .instr (.aclr (six 0 0 0 0)) 6 := by decide +kernel
theorem test_decode_mlda : decode [0xE6, 0x40, 0, 0, 0, 0, 0x03, 0x01] = .instr (.mlda ⟨.eight, 0, 0, 0, false, 0, 0, 0, 0, 0x301, 0⟩) 8 := by decide +kernel
theorem test_decode_reelon : decode [0xCE, 0, 0, 0, 0, 0] = .instr (.reelon (six 0 0 0 0)) 6 := by decide +kernel
theorem test_decode_vld : decode [0xD0, 0x00, 0x30, 0x80, 0x00, 0x40] = .instr (.vldUnit (six 2 3 1 0x40)) 6 := by decide +kernel
theorem test_decode_sdef : decode [0xD0, 0x80, 0x23, 0x80, 0x00, 0x00] = .instr (.sdef (six 0 2 7 0)) 6 := by decide +kernel
theorem test_decode_cpy : decode [0xE8, 0x50, 0x08, 0x00, 0x04, 0x00, 0x50, 0x06] =
    .instr (.cpy ⟨.eight, 0, 8, 0, false, 0, 0, 4, 5, 6, 0⟩) 8 := by decide +kernel
theorem test_decode_phase : decode [0xD1, 0x20, 0x00, 0x00, 0x00, 0x0A] = .instr (.phase (six 0 0 0 10)) 6 := by decide +kernel
theorem test_decode_smark : decode [0xD1, 0x00, 0x00, 0x05, 0x00, 0x05] = .instr (.smark (six 0 0 0 0x050005)) 6 := by decide +kernel
theorem test_decode_hgl : decode [0xE7, 0x90, 0, 0, 0x08, 0, 0, 0] = .instr (.hgl ⟨.eight, 0, 0, 0, false, 0, 0, 8, 0, 0, 0⟩) 8 := by decide +kernel
theorem test_decode_atom : decode [0xD5, 0x00, 0x20, 0x80, 0x01, 0x05] = .instr (.atomAdd (six 2 2 1 0x105)) 6 := by decide +kernel
theorem test_decode_rfadd : decode [0xD4, 0xC0, 0x31, 0x00, 0x01, 0x00] = .instr (.rfadd (six 0 3 2 0x100)) 6 := by decide +kernel
theorem test_decode_xput : decode [0xEB, 0x00, 0x08, 0x00, 0x04, 0x00, 0x50, 0x06] =
    .instr (.xput ⟨.eight, 0, 8, 0, false, 0, 0, 4, 5, 6, 0⟩) 8 := by decide +kernel
theorem test_decode_clst : decode [0xF5, 0x90, 0, 0, 0, 2, 0, 0x10, 0, 0, 0, 5] = .instr (.clstFadd (long 0 2 1 0 5)) 12 := by decide +kernel
theorem test_decode_trap : decode [0xD8, 0, 0, 0, 0, 7] = .instr (.trap (six 0 0 0 7)) 6 := by decide +kernel
theorem test_decode_mfp : decode [0xD8, 0xE0, 0x51, 0x00, 0x02, 0x80] = .instr (.mfp (six 0 5 2 0x280)) 6 := by decide +kernel
theorem test_decode_krun : decode [0xDA, 0x00, 0x31, 0, 0, 0] = .instr (.krun (six 0 3 2 0)) 6 := by decide +kernel
theorem test_decode_permit : decode [0xDC, 0x00, 0x01, 0x80, 0, 0] = .instr (.permit (six 0 0 3 0)) 6 := by decide +kernel
/-- R51: the first undefined prefix, and the last; R42: an opcode that Table 2.7 does not own. -/
theorem test_decode_undefined : decode [0xF8] = .undefinedPrefix ∧ decode [0xFF] = .undefinedPrefix ∧
    decode [0xDF, 0xE0, 0, 0, 0, 0] = .undefinedOpcode 6 := by decide +kernel
/-- The encoder writes the bytes of the examples. -/
theorem test_encode : encode (.addi (six 0 4 4 0xFFFFFD)) = [0xC1, 0x20, 0x42, 0x7F, 0xFF, 0xFD] ∧ encode (.add2b 3 5) = [0x04, 0x65] ∧
    encode (.vfma4b 0x04 0x01 0x89) = [0xAB, 0x04, 0x01, 0x89] ∧
    encode (.clstFadd (long 0 2 1 0 5)) = [0xF5, 0x90, 0, 0, 0, 2, 0, 0x10, 0, 0, 0, 5] := by decide +kernel

/-! ## Ill-formed terms, one for each check of WellFormed -/

theorem test_wellFormed : wellFormed (.addi (six 0 4 4 0xFFFFFD)) = true ∧ wellFormed (.vadd ⟨.eight, 1, 4, 0, true, 2, 2, 7, 0x803, 0x40C, 0⟩) = true := by
  decide +kernel
/-- R36: the 6-byte form carries no B. -/
theorem test_encodable : encodable (.addi ⟨.six, 0, 0, 0, false, 0, 0, 4, 4, 1, 0⟩) = false ∧ wellFormed (.addi ⟨.six, 0, 0, 0, false, 0, 0, 4, 4, 1, 0⟩) = false := by
  decide +kernel
/-- R44: ADDI does not use B. -/
theorem test_legalEncoding : legalEncoding 0x090 (long 0 4 4 1 0) = false ∧ wellFormed (.addi (long 0 4 4 1 0)) = false := by decide +kernel
/-- R32: bits above the register number are zero. -/
theorem test_legalOperands : legalOperands 0x080 (long 0 0x20 0 0 0) = false ∧ wellFormed (.add (long 0 0x20 0 0 0)) = false := by decide +kernel
/-- R30: a pair has an even INDEX. -/
theorem test_evenPairs : evenPairs 0x214 (long 3 0x101 0x100 0x102 0) = false ∧ wellFormed (.vadd (long 3 0x101 0x100 0x102 0)) = false ∧
    wellFormed (.vadd (long 3 0x104 0x100 0x102 0)) = true := by decide +kernel
/-- Events have no encoding. -/
theorem test_events_have_no_encoding : wellFormed (.linkReplay 0 0) = false := by decide +kernel

/-! ## Small states -/

def ctx0 : Ctx := { priv := true, placement := [0, 1, 2, 3], lcore := 0, conf := false, key := 0, entry := none }
/-- The page at virtual address 0 is the start of core 0's vault, readable, writable, executable and cacheable. -/
def tlb0 : TlbEntry := { tag := 0, vpage := 0, ppage := 2 ^ 28, perm := 15, level := 16 }
/-- A core of the package with a privileged context of four cores. -/
def core0 : Core := { Core.reset with ctx := some ctx0, tlb := [tlb0] }
/-- After a cold boot that has succeeded: STAGE 4, both signatures good. -/
def booted0 : State := State.reset.setPkg 0 { Pkg.reset with sys := [(0x2C0, 0x3004)] }
/-- Sequencer q of core 0 moves; nothing else is resident. -/
def at0 (q : SeqId) : State := ({ booted0 with cur := (0, q) } : State).setCore 0 core0
/-- The same with some scalar registers. -/
def regs0 (q : SeqId) (l : List (BitVec 5 × Word)) : State := l.foldl (fun s p => s.setReg p.1 p.2) (at0 q)
/-- What follows an instruction, where it answers a next state. -/
def ran (i : Instr) (s : State) : Option State := match exec i s with | .next t => some t | _ => none
/-- s[n] after an instruction. -/
def regAfter (i : Instr) (s : State) (n : BitVec 5) : Option Word := (ran i s).map (fun t => t.mySeq.reg n)
/-- PC after an instruction. -/
def pcAfter (i : Instr) (s : State) : Option Word := (ran i s).map (fun t => t.mySeq.pc)

/-- R73's example: 7 + 5; and the carry out of bit 63 is lost. -/
theorem test_add : regAfter (.add (long 0 3 1 2 0)) (regs0 .ct [(1, 7), (2, 0xFFFFFFFFFFFFFFFF)]) 3 = some 6 := by decide +kernel
theorem witness_view (q : SeqId) (c : Code) (f : Fields) : (at0 q).view c f = at0 q := by
  cases q <;> rfl

/-- The code is ready with these fields in the named sequencer of core 0. -/
def readyAll (q : SeqId) (l : List (Code × Fields)) : Bool := l.all (fun p => (at0 q).ready p.1 p.2)

/-! ## The control class: witnesses -/

theorem witness_ScalarResults : readyAll .ct (((List.range 16).map (fun k => (0x080 + k, long 0 31 31 31 0))) ++
      ((List.range 7).map (fun k => (0x0A0 + k, long 0 0 31 0 0))) ++ ((List.range 16).map (fun k => (0x090 + k, long 0 31 31 0 0x800000))) ++
      ((List.range 4).map (fun k => (0x0B0 + k, long 0 31 0 0 0))) ++ [(0x0B4, long 0 1 2 0 0), (0x0B4, long 1 1 2 0 0), (0x0B4, long 2 1 2 0 0),
        (0x0B5, long 4 1 2 0 0), (0x0B5, long 5 1 2 0 0), (0x0B5, long 6 1 2 0 0), (0x0C0, long 0 1 2 3 31), (0x0D0, long 0 1 0 0 0xFFFFFF),
        (0x0D1, long 0 1 0 0 0xFFFFFF), (0x0E0, long 0 31 0 0 0)]) = true := by decide +kernel

/-- s1 = 1, s2 = −1, so that each condition holds for one order of the operands and fails for another. -/
def cond0 : State := regs0 .ct [(1, 1), (2, 0xFFFFFFFFFFFFFFFF), (3, 2)]

theorem witness_BranchResults_ready : readyAll .ct ([(0x010, long 0 0 0 0 0x800000)] ++ ((List.range 8).map (fun k => (0x020 + k, long 0 1 2 0 0x7FFFFF))) ++
    ((List.range 6).map (fun k => (0x030 + k, long 0 1 0 0 0xFFF7FF))) ++
    [(0x036, long 0 1 0 0 0x03F800), (0x037, long 0 1 0 0 0x0007FF)]) = true := by decide +kernel
theorem witness_BranchResults_conditions : (cond0.sreg 1).toInt > (cond0.sreg 2).toInt ∧ (cond0.sreg 1).toNat < (cond0.sreg 2).toNat ∧ cond0.sreg 1 ≠ cond0.sreg 2 ∧
    cond0.sreg 1 = cond0.sreg 1 ∧ (cond0.sreg 1).getLsbD ((cond0.sreg 0).toNat % 64) = true ∧ (cond0.sreg 1).getLsbD ((cond0.sreg 3).toNat % 64) = false := by
  decide +kernel

theorem witness_LoopAndCallResults : readyAll .ct [(0x040, long 0 1 0 0 0xFFFFFE), (0x050, long 0 0 0 0 2), (0x060, long 0 0 1 0 0), (0x061, long 0 0 31 0 0),
      (0x062, long 0 0 0 0 0)] = true ∧ ((regs0 .ct [(31, 0x100)]).mySeq.reg 31).getLsbD 0 = false ∧ ((regs0 .ct [(31, 0x101)]).mySeq.reg 31).getLsbD 0 = true := by
  decide +kernel

/-- One token from CP and 15 to ST, where CT moves. -/
def tokens0 : State := (at0 .ct).modMyCore (fun c => { c with tok := [(fifo 3 2, 15), (fifo 1 3, 1)] })
theorem witness_TokenResults : tokens0.ready 0x000 ⟨.twelve, 2, 1, 0, false, 0, 0, 0, 0, 0, 0⟩ = true ∧ isDcc tokens0.node = false ∧ tokens0.hold = false ∧
    tokens0.ready 0x110 (long 0 0 0 0 0x12) = true ∧ tokens0.ready 0x111 (long 0 0 0 0 0x11) = true ∧
    tokens0.ready 0x110 ⟨.twelve, 2, 1, 0, false, 0, 0, 0, 0, 0, 0x12⟩ = true ∧ tokens0.ready 0x111 ⟨.twelve, 2, 3, 0, false, 0, 0, 0, 0, 0, 0x13⟩ = true := by
  decide +kernel
theorem witness_MissingTokensWait : codeOf (.nop (long 0 0 0 0 0)) = some (0x000, long 0 0 0 0 0) ∧
    encodingFault 0x000 ⟨.twelve, 1, 0, 0, false, 0, 0, 0, 0, 0, 0⟩ tokens0.node tokens0.me (tokens0.privileged tokens0.node) = none ∧
    tokens0.myCore.missingPops tokens0.me 0x000 ⟨.twelve, 1, 0, 0, false, 0, 0, 0, 0, 0, 0⟩ ≠ 0 ∧
    tokens0.myCore.missingPops tokens0.me 0x000 ⟨.twelve, 0, 4, 0, false, 0, 0, 0, 0, 0, 0⟩ = 0 ∧
    tokens0.myCore.shortPushes tokens0.me (placesOf 0x000 ⟨.twelve, 0, 4, 0, false, 0, 0, 0, 0, 0, 0⟩) ≠ 0 := by decide +kernel

/-- The wrong sequencer; a field not used; a privileged code without privilege; a scalar register above 31. -/
theorem witness_EncodingFaultsAreTaken : encodingFault 0x210 (long 2 0 0 0 1) 0 .ld true = some (0x03, 0) ∧ encodingFault 0x090 (long 0 0 0 1 0) 0 .ct true = some (0x01, 0) ∧
    encodingFault 0xC50 (long 0 1 2 0 0) 0 .ct false = some (0x04, 0) ∧
    encodingFault 0x080 (long 0 32 0 0 0) 0 .ct true = some (0x02, 0) ∧ encodingFault 0x214 (long 3 0x100 0x101 0x102 0) 0 .cp true = some (0x12, 1) ∧
    encodingFault 0x080 (long 0 31 31 31 0) 0 .ct true = none := by decide +kernel

/-- A 4-byte form that expands to an instruction of CP, on LD. -/
theorem witness_EncodingFaultsAreTaken_forms : (internalWord (.vadd4b 1 2 3)).map (fun p => encodingFault p.1 p.2 0 .ld true) = some (some (0x03, 0)) ∧
    (opInfo 0x080).map (fun i => (badOperand 0x080 i (long 0 32 0 0 0), sregPrivileged 0x080 true 0)) = some (some 0, false) ∧
    (opInfo 0x214).map (fun i => (badOperand 0x214 i (long 3 0x100 0x101 0x102 0), oddIndex 0x214 i (long 3 0x100 0x101 0x102 0))) = some (none, some 1) := by decide +kernel

/-- A token of its own, a mask that names itself or leaves itself out, a token on a die control core; register numbers of every kind. -/
theorem witness_EncodingFaultsAreTaken_places : (opInfo 0x000).map (fun i => (i.runs.allows 0 .ct, i.runs.allows dccBase .ld)) = some (true, true) ∧ isDcc dccBase = true ∧
    (8 : BitVec 4).getLsbD (seqNum .ct) = true ∧ (opInfo 0x110).map (fun i => i.runs.allows 0 .ct) = some true ∧ (opInfo 0x111).map (fun i => i.runs.allows 0 .ct) = some true ∧
    (0x18 : BitVec 24).getLsbD (seqNum .ct) = true ∧ (opInfo 0x880).map (fun i => i.runs.allows 0 .ld) = some true ∧ (0x040001 : BitVec 24).getLsbD (16 + seqNum .ld) = false := by
  decide +kernel
theorem witness_EncodingFaultsAreTaken_registers : (regInfo 0x30B).isNone = true ∧ regRemoteOnly 0x281 = true ∧ isDcc 0 = false ∧ (regInfo 0x281).isSome = true ∧
    (opInfo 0x0E1).map (fun i => (illegalStatic 0x0E1 i (long 0 1 0 0 0x280), illegalHere 0x0E1 (long 0 1 0 0 0x280) 0 .ct)) = some (false, false) ∧
    (opInfo 0x0E2).map (fun i => (illegalStatic 0x0E2 i (long 0 0 1 0 0), illegalHere 0x0E2 (long 0 0 1 0 0) 0 .ct)) = some (false, false) ∧
    (regInfo 0x000).map regReadOnly = some true ∧ regRemoteOnly 0x000 = false ∧ encodingFault 0x0E2 (long 0 0 1 0 0) 0 .ct true = some (0x04, 0) ∧
    encodingFault 0x0E1 (long 0 1 0 0 0x30B) 0 .ct true = some (0x01, 0) ∧ encodingFault 0x0E1 (long 0 1 0 0 0x30B) 0 .ct false = some (0x01, 0) ∧
    encodingFault 0x0E1 (long 0 1 0 0 0x2FF) 0 .ct false = some (0x04, 0) ∧ encodingFault 0x0E1 (long 0 1 0 0 0x400) 0 .ct true = some (0x01, 0) := by decide +kernel

/-- A producer of s5 with latency 4 stands just before. -/
def late0 (strict : Bool) : State := (at0 .ct).modMe (fun q => { q.setSys 0x008 (if strict then 1 else 0) with hist := [{ pc := 0x40, lat := 4, dist := 0, writes := [.reg 5] }] })
theorem witness_LatencyMismatches : ∀ b, (late0 b).mySeq.strict = b ∧ (late0 b).miss 0x080 (long 0 1 5 2 0) = some 0x40 ∧
    encodingFault 0x080 (long 0 1 5 2 0) (late0 b).node (late0 b).me ((late0 b).privileged (late0 b).node) = none ∧
    (late0 b).myCore.missingPops (late0 b).me 0x080 (long 0 1 5 2 0) = 0 ∧
    (late0 b).myCore.shortPushes (late0 b).me (placesOf 0x080 (long 0 1 5 2 0)) = 0 ∧
    (late0 b).goes (long 0 1 5 2 0) (.done { st := (late0 b).view 0x080 (long 0 1 5 2 0) }) = true ∧
    (late0 b).crowded (long 0 1 5 2 0) { st := (late0 b).view 0x080 (long 0 1 5 2 0) } = false ∧ (late0 b).goes (long 0 1 5 2 0) (.trap 0x30 0) = true := by decide +kernel

/-- A wait of kind 3 that began at cycle 0 with EXP 10; cycle c is now. -/
def waiting0 (c : Word) : State := ((at0 .ct).modMyCore (fun k => { k with cycle := c })).modMe (fun q => { q with wait := some ⟨3, 0, 0, 10⟩ })
theorem witness_WaitsAreBounded : (at0 .ct).mySeq.wait = none ∧ (waiting0 1023).mySeq.wait = some ⟨3, 0, 0, 10⟩ ∧
    ((waiting0 1023).myCore.cycle - 0).toNat < 2 ^ 10 ∧ 2 ^ 10 ≤ ((waiting0 1024).myCore.cycle - 0).toNat ∧ (3 : Nat) < 0x80 ∧ (0x08 : Nat) < 0x80 ∧
    (⟨3, 0, 0, 10⟩ : Wait).counts = true ∧ (⟨0x85, 0, 0, 10⟩ : Wait).counts = false ∧ (⟨stallKind, 0, 0, 64⟩ : Wait).counts = false := by decide +kernel

/-- An instruction of CT is in flight. -/
def flying0 : State := (at0 .ct).modMe (fun q => { q with flights := [⟨0, 0, [], [], 9, 0, 1, false⟩] })
theorem witness_HaltAndWaitcResults : (at0 .ct).ready 0x001 (long 0 0 0 0 0) = true ∧ (at0 .ct).allRetired = true ∧ flying0.ready 0x001 (long 0 0 0 0 0) = true ∧
    flying0.allRetired = false ∧ (at0 .ct).ready 0x002 (long 0 0 1 0 0) = true ∧ ((at0 .ct).sreg 1).toNat ≤ (at0 .ct).myCore.cycle.toNat ∧
    (at0 .ct).myCore.cycle.toNat < ((at0 .ct).sreg 1 + (1 : BitVec 24).signExtend 64).toNat := by decide +kernel
/-- A HALT of CT has issued, with an instruction before it in flight or without. -/
def halting0 (busy : Bool) : State := (if busy then flying0 else at0 .ct).modMe (fun q => { q with halting := some (long 0 0 0 0 0) })
theorem witness_HaltAndWaitcResults_ends : ∀ b, (halting0 b).mySeq.halting = some (long 0 0 0 0 0) ∧ (halting0 b).allRetired = !b := by decide +kernel

/-! ## Traps, system registers, scalar loads and stores: witnesses -/

/-- Cause 0x38 is delegated, with the handler at 0x200; inh is whether CT is in a handler. -/
def deleg0 (inh : Bool) : State := (at0 .ct).modMe (fun q => ((q.setSys 0x00C (2 ^ 0x38)).setSys 0x00D 0x200).setSys 0x00F (if inh then 65536 else 0))
theorem witness_TrapEntry : ((deleg0 false).seq 0 .ct).delegates 0x38 = true ∧ ((deleg0 true).seq 0 .ct).delegates 0x38 = false ∧
    ((deleg0 false).seq 0 .ct).delegates 0x01 = false := by decide +kernel

/-- Every address below 2^42 is its own page in GDDR-7, under the table at 0; the fault queue of stack 0 lies at 0x10000 with 4 slots, tail at t. -/
def queue0 (t : Word) : State := { at0 .ct with mem := [(0, 0x1D)] }.setStack 0 { Stack.reset with sys := [(0x2B0, 0x10000), (0x2B1, 2), (0x2B3, t)] }
theorem witness_FaultQueueEntries : ((queue0 3).stack (stackOf 0)).fqUsed + 1 = ((queue0 3).stack (stackOf 0)).fqSize ∧
    ((queue0 2).stack (stackOf 0)).fqUsed + 1 ≠ ((queue0 2).stack (stackOf 0)).fqSize ∧ (queue0 2).fqSlot (stackOf 0) = some 0x10080 ∧ 0x10080 % 64 = 0 ∧
    ({ queue0 2 with mem := [] } : State).fqSlot (stackOf 0) = none ∧ (({ queue0 2 with mem := [] } : State).stack (stackOf 0)).fqUsed + 1 ≠ 4 ∧
    2 ^ (((queue0 2).stack (stackOf 0)).sysreg 0x2B1).toNat = 4 := by decide +kernel

/-- The slot of a PRIV page, whose context last wrote FQBASE has key 5; and one in a scratchpad range that a drain moves. -/
def queue1 : State := ((queue0 2).setStack 0 { Stack.reset with sys := [(0x2B0, 0x400000), (0x2B1, 2), (0x2B3, 2)], fqKey := 5 }).setBay 0 { Bay.reset with drain := some ⟨2, 0, 9, []⟩ }
theorem witness_FaultQueueEntries_slots : (queue0 2).drainHit 0x10080 = false ∧ (queue0 2).fqSlotKey 0 = none ∧
    ({ queue1 with mem := [(0, 0x9D)] } : State).fqSlotKey 0 = some 5 ∧
    ({ queue1 with mem := [(0, 0x1D), (5, 0x20)] } : State).fqSlot 0 = some (2 ^ 45 + 0x400080) ∧
    ({ queue1 with mem := [(0, 0x1D), (5, 0x20)] } : State).drainHit (2 ^ 45 + 0x400080) = true := by decide +kernel

theorem witness_TrapBrkAndEretResults : (∀ b, (deleg0 b).ready 0xC10 (long 0 0 0 0 1) = true ∧ (deleg0 b).mySeq.inh = b) ∧
    (at0 .ct).ready 0xC00 (long 0 0 0 0 0xFFFF) = true ∧ (at0 .ct).ready 0xC20 (long 0 0 0 0 0xFFFF) = true ∧ ((at0 .ct).myCore.sysreg 0x298).getLsbD 0 = false ∧
    (((at0 .ct).modMyCore (fun c => c.setSys 0x298 1)).myCore.sysreg 0x298).getLsbD 0 = true ∧
    ((at0 .ct).modMyCore (fun c => c.setSys 0x298 1)).ready 0xC20 (long 0 0 0 0 0) = true := by decide +kernel

theorem witness_TwoByteForms : readyAll .ld ([(0x000, expand1 0 0 0)] ++ ((List.range 16).map (fun k => (0x080 + k, expand2 0 31 0))) ++
    ((List.range 7).map (fun k => (0x0A0 + k, expand2 0 0 31))) ++ [(0x0B0, expand1 0 0 31), (0x0B1, expand1 0 31 0), (0x0B2, expand1 0 1 2), (0x0B3, expand1 0 1 2),
      (0x0B4, expand1 0 1 2), (0x0B4, expand1 1 1 2), (0x0B4, expand1 2 1 2), (0x0E0, expand1 0 31 31)]) = true := by decide +kernel

/-- A context that holds the cores of its whole bay, or one of them only. -/
def bay0 (whole : Bool) : State := (at0 .ct).modMyCore (fun c => { c with ctx := some { ctx0 with placement := if whole then [0, 1, 2, 3] else [0] } })
theorem witness_SystemRegisterMoves : (bay0 true).ready 0x0E1 (long 0 31 0 0 0x00A) = true ∧ (bay0 true).ready 0x0E2 (long 0 0 1 0 0x202) = true ∧
    (bay0 true).holdsBay (bay0 true).node = true ∧ (bay0 false).ready 0x0E2 (long 0 0 1 0 0x203) = true ∧ (bay0 false).holdsBay (bay0 false).node = false ∧
    (bay0 false).ready 0x0E2 (long 0 0 1 0 0x002) = true ∧ isDcc 0 = false ∧ ((bay0 true).core 0).ctx = some ctx0 := by decide +kernel
theorem witness_SequencerRegisterWrites : (∀ r ∈ [(0x002, 128), (0x003, 128), (0x004, 128), (0x005, 256), (0x006, 40)],
    ((at0 .ct).seq 0 .ct).sysreg r.1 ≤ BitVec.ofNat 64 r.2) ∧ ((at0 .ct).seq 0 .ct).sysreg 0x00C &&& 0x0400000001000800 = 0 := by decide +kernel

theorem witness_LdsAndStsResults : (∀ q : BitVec 3, (at0 .ct).ready 0x0F0 (long q 1 2 0 0xFFF8) = true ∧ (at0 .ct).ready 0x100 (long q 1 2 0 0xFFF8) = true) ∧
    (at0 .ct).clear Want.load 8 [0xFFF8] = true ∧ (at0 .ct).clear Want.store 8 [0xFFF8] = true ∧ (at0 .ct).meetsQueue 0 .ct 8 [0xFFF8] = false ∧
    (at0 .ct).misses 0 [0xFFF8] = 0 ∧ ((at0 .ct).noteData 0 true 8 [0xFFF8]).l1Misses 0 [0xFFF8] = [] ∧ (at0 .ct).wordsRead 0 8 [0xFFF8] = [] ∧
    ((at0 .ct).noteData 0 true 8 [0xFFF8]).ready 0x0F0 (long 3 1 2 0 0xFFF8) = true ∧ ((at0 .ct).noteData 0 true 8 [0xFFF8]).clear Want.load 8 [0xFFF8] = true ∧
    ((at0 .ct).noteData 0 true 8 [0xFFF8]).meetsQueue 0 .ct 8 [0xFFF8] = false ∧ ((at0 .ct).noteData 0 true 8 [0xFFF8]).misses 0 [0xFFF8] = 0 ∧
    ((at0 .ct).noteData 0 true 8 [0xFFF8]).wordsRead 0 8 [0xFFF8] = [] ∧ (at0 .ct).hold = false ∧ (at0 .ct).mySeq.queue = [] ∧
    (at0 .ct).xlate 0 0xFFF8 = some { base := 2 ^ 44, shift := 16, perm := 15 } ∧ (at0 .ct).place (2 ^ 44 + 0xFFF8) = .bytes := by decide +kernel

/-- Page 1 is a hole of the vault space; page 2 is read only. -/
def checks0 : State := (at0 .ct).modMyCore (fun c => { c with tlb := [tlb0, ⟨0, 1, 2 ^ 28 + 2 ^ 11, 7, 16⟩, ⟨0, 2, 2 ^ 28 + 1, 1, 16⟩] })
theorem witness_AccessChecksInOrder : (7 : Word).toNat % 8 ≠ 0 ∧ checks0.xlate 0 0x30000 = none ∧
    checks0.xlate 0 0x10000 = some { base := 2 ^ 44 + 2 ^ 27, shift := 16, perm := 7 } ∧ checks0.place (2 ^ 44 + 2 ^ 27) = .bad ∧ paPkg (2 ^ 44 + 2 ^ 27) = pkgOf 0 ∧
    checks0.xlate 0 0x20000 = some { base := 2 ^ 44 + 65536, shift := 16, perm := 1 } ∧ checks0.place (2 ^ 44 + 65536) ≠ .bad ∧
    checks0.ready 0x0F0 (long 3 1 0 0 0x10000) = true ∧ checks0.ready 0x100 (long 3 1 0 0 0x20000) = true ∧ checks0.busy = false ∧
    checks0.drainStalls 0 [0x10000] = 0 ∧ checks0.lanesFault 0 Want.load 8 [0x10000] = some (0x10, 0x10000) ∧
    checks0.drainStalls 0 [0x20000] = 0 ∧ checks0.lanesFault 0 Want.store 8 [0x20000] = some (0x11, 0x20000) := by decide +kernel

/-- A word that answers an uncorrectable error, and an older write of the queue that covers it whole. -/
def healing0 : State := ({ at0 .ct with bad := [2 ^ 41, 2 ^ 41 + 1] } : State).modMe (fun q => { q with queue := [⟨8, .vertical, 2 ^ 44, 8, 1, none, some tlb0⟩] })
theorem witness_AccessChecksInOrder_assured : healing0.assured.bad = [2 ^ 41 + 1] ∧ healing0.lanesFault 0 Want.load 8 [0] = some (0x18, 0) ∧ healing0.assured.lanesFault 0 Want.load 8 [0] = none ∧
    checks0.assured.lanesFault 0 Want.load 8 [0x10000] = some (0x10, 0x10000) ∧ checks0.assured.lanesFault 0 Want.store 8 [0x20000] = some (0x11, 0x20000) := by decide +kernel

/-! ## The vector classes: witnesses -/

/-- No entry of a TLB serves address 0x40, and the word of the level-0 table at 0 answers an uncorrectable error. -/
def lostTable0 : State := { (at0 .ct).setCore 0 { core0 with tlb := [] } with bad := [0] }
theorem witness_AccessChecksInOrder_tables : lostTable0.xlate 0 0x40 = none ∧ (lostTable0.tableLost 0 0x40).isSome = true ∧ checks0.tableLost 0 0x30000 = none := by decide +kernel

theorem witness_WriteFormsLand : (opInfo 0x214).isSome = true ∧ (at0 .cp).hold = false ∧ opBcast 0x104 = false ∧ opPair 0x104 = true ∧ opDir 0x104 < 2 ∧ opBcast 0xC7F = false ∧
    opPair 0xC7F = false ∧ (128 : Nat) ≤ 128 := by decide +kernel
/-- Rows 0 and 1 share no cell, row 0 and row 0 all; lane 0 of row 0 and of column 0 is one cell. -/
theorem witness_WriteFormsLand_exchange : wOf (long 2 0 1 0 0) = 32 ∧ ((at0 .cp).modMe (fun q => q.setSys 0x002 2)).mySeq.vlen = 2 ∧
    [(0 : BitVec 12), 1, 0x400].all (fun o => !opBcast o && !opPair o) = true ∧ laneCells 0 0 = laneCells 0x400 0 := by decide +kernel
theorem witness_WriteFormsLand_apart : [0, 1].all (fun j => [0, 1].all (fun k => (laneCells 0 j).all (fun x =>
    !(laneCells 1 k).contains x && (j == k || !(laneCells 0 k).contains x)))) = true := by decide +kernel
theorem witness_ChargesOfWrites : (0 : Nat) < 4096 ∧ (((at0 .cp).modMyCore (fun c => c.setSys 0x042 100)).core 0).sysreg 0x042 = BitVec.ofNat 64 100 ∧ (100 : Nat) < 2 ^ 63 := by
  decide +kernel

theorem witness_VectorIntegerResults : readyAll .cp (((List.range 16).map (fun k => (0x210 + k, long (if k = 8 ∨ k = 9 then 6 else 2) 0x47F 0 0x87F 0))) ++
      ((List.range 6).map (fun k => (0x220 + k, long (if 4 ≤ k then 7 else 3) 0x104 0x57E 0x502 0))) ++ [(0x200, long 0 0 1 0 0), (0x240, long 3 0x100 0x102 0 0),
        (0x241, long 1 0 0x400 0 0), (0x242, long 2 0x400 1 0 0), (0x230, long 2 0 1 2 3)] ++
      ((List.range 8).map (fun k => (0x250 + k, long (if k = 3 ∨ k = 4 then 6 else 2) 0 0x400 0 0)))) = true ∧ 0 < (at0 .cp).mySeq.vlen := by decide +kernel
theorem witness_Issues : Issues (.vadd (long 2 1 2 3 0)) 0x214 (long 2 1 2 3 0) ∧ Issues (.vadd4b 1 2 0x83) 0x214 ⟨.four, 0, 0, 0, false, 0, 2, 1, 2, 0x403, 0⟩ ∧
    Issues (.vfmul (long 0 1 2 3 0)) 0x402 (long 0 1 2 3 0) ∧ Issues (.vmaxk (long 2 0 1 0 0)) 0x2C0 (long 2 0 1 0 0) ∧
    Issues (.vswap (long 2 0 1 0 0)) 0x290 (long 2 0 1 0 0) ∧ Issues (.vnotin (long 2 0 0 0 0)) 0x283 (long 2 0 0 0 0) ∧ Issues (.erase (long 2 0 0 0 0)) 0x2F0 (long 2 0 0 0 0) ∧
    Issues (.vfsqrt (long 0 1 2 0 0)) 0x421 (long 0 1 2 0 0) ∧ Issues (.vfma4b 4 1 0x89) 0x410 ⟨.four, 0, 0, 0, false, 0, 0, 4, 1, 0x409, 4⟩ := by
  unfold Issues; decide +kernel

theorem witness_VectorInPlaceResults : readyAll .cp [(0x280, long 2 0 1 0 0), (0x281, long 2 0 1 0 0), (0x282, long 2 0 0 0 0), (0x283, long 2 0 0 0 0), (0x284, long 2 0 1 0 0),
      (0x285, long 2 0 1 0 0), (0x286, long 2 0 0 0 0), (0x290, long 2 0 0x400 0 0), (0x291, long 2 0 1 2 0), (0x2A0, long 2 0 0 0 0), (0x2A1, long 2 0 1 0 0),
      (0x2A2, long 2 0 1 0 0)] = true ∧ ((regs0 .cp [(1, 3)]).sreg 1).toNat % 2 = 1 ∧ ((regs0 .cp [(1, 2)]).sreg 1).toNat % 2 = 0 := by decide +kernel

/-- The negative holds n planes of zeros. -/
def planes0 (n : Nat) : State := (at0 .cp).modMyCore (fun c => { c with neg := List.replicate n 0 })
theorem witness_KeepResults : readyAll .cp [(0x2C0, long 2 0 1 0 0), (0x2C1, long 2 0 1 0 0), (0x2C2, long 6 0 1 0 0), (0x2C3, long 6 0 1 0 0), (0x2C4, long 2 0 0 0 0)] = true ∧
    (at0 .cp).myCore.neg.length < 4096 ∧ (planes0 4096).myCore.neg.length = 4096 ∧ (planes0 4096).ready 0x2C0 (long 2 0 1 0 0) = true ∧
    (planes0 4096).ready 0x2C4 (long 2 0 0 0 0) = true := by decide +kernel
theorem witness_VuncxUndoesVmaxk : (at0 .cp).hold = false ∧ (at0 .cp).ready 0x2C0 (long 2 0 1 0 0) = true ∧ (at0 .cp).mySeq.vlen ≤ 128 ∧
    (ran (.vmaxk (long 2 0 1 0 0)) (at0 .cp)).any (fun t => t.ready 0x2D0 { long 2 0 1 0 0 with dly := 1 }) = true := by decide +kernel
theorem witness_NegativeResults : (planes0 1).myCore.neg = 0 :: [] ∧ (at0 .cp).myCore.neg = [] ∧ readyAll .cp [(0x2D1, long 2 0 0 0 0), (0x2D0, long 2 0 1 0 1),
      (0x2E0, long 0 0 0x400 0 31), (0x2E1, long 0 0 1 0 31), (0x2E2, long 0 0 0 0 31), (0x2E3, long 0 0 0 0 1), (0x2E6, long 0 31 0 0 0)] = true ∧
    [(0x2D1, long 2 0 0 0 0), (0x2D0, long 2 0 1 0 1), (0x2E1, long 0 0 1 0 31), (0x2E2, long 0 0 0 0 31), (0x2E3, long 0 0 0 0 1)].all
      (fun p => (planes0 1).ready p.1 p.2) = true ∧ (planes0 4096).ready 0x2E0 (long 0 0 0x400 0 31) = true ∧
    4096 ≤ ((planes0 4096).view 0x2E0 (long 0 0 0x400 0 31)).myCore.neg.length := by decide +kernel
theorem witness_SpillFillAndErase : (planes0 1).ready 0x2E4 (long 0 0 1 0 1) = true ∧ (1 : BitVec 24).toNat ≤ (planes0 1).myCore.neg.length ∧ ((planes0 1).sreg 1).toNat % 16 = 0 ∧
    (planes0 1).clear Want.store 8 (units 0 8 2) = true ∧ (at0 .cp).ready 0x2E5 (long 0 0 1 0 1) = true ∧ (at0 .cp).clear Want.load 8 (units 0 8 2) = true ∧
    (at0 .cp).ready 0x2F0 (long 3 0x502 0 0 0) = true := by decide +kernel

theorem witness_FloatResults_ready : readyAll .cp (((List.range 8).map (fun k => (0x400 + k, long 0 1 2 3 0))) ++ ((List.range 8).map (fun k => (0x430 + k, long 1 1 2 3 0))) ++
      ((List.range 11).map (fun k => (0x420 + k, long 2 1 2 0 0))) ++ ((List.range 3).map (fun k => (0x410 + k, long 3 0x100 0x102 0x104 0x106))) ++
      [(0x413, { long 1 1 2 3 4 with e := true }), (0x413, { long 0 1 2 3 4 with e := true }), (0x440, long 0 0 1 0 0), (0x441, long 0 0 1 0 0), (0x442, long 0 0 1 0 0),
        (0x443, long 0 0 1 0 0), (0x450, long 0 0 0 0 0)]) = true := by decide +kernel
/-- Lane 0 of row 1 is a signalling NaN, whose flag NV is enabled or not. -/
def nan0 (trap : Bool) : State := ((at0 .cp).modMyCore (fun c => { c with cells := [(128, 0x7F800001)] })).modMe (fun q => q.setSys 0x060 (if trap then 0x1000 else 0))
theorem witness_FloatResults_traps : (nan0 true).fpTraps ≠ 0 ∧ (nan0 false).fpTraps = 0 ∧
    allFlags [(0, (fpAdd .f32 (nan0 true).fpEnv ((nan0 true).srcLane 1 32 0) 0).fl)] &&& (nan0 true).fpTraps ≠ 0 := by decide +kernel
theorem witness_RepresentableValuesRoundToThemselves : ∀ t ∈ [Fmt.f64, Fmt.f32, Fmt.f16, Fmt.bf16, Fmt.e4m3, Fmt.e5m2], 1 < 2 ^ t.width ∧ (t.value 1).isNan = false := by
  decide +kernel
/-- 1.5, −1.5 and ±0 as operands of FP32. -/
theorem witness_FloatRounding_operands : Fmt.f32.operand false 0x3FC00000 = .fin false 12582912 (-23) ∧ Fmt.f32.operand false 0xBFC00000 = .fin true 12582912 (-23) ∧
    Fmt.f32.operand true 0x00000001 = .fin false 0 0 ∧ Fmt.f32.operand false 0x80000000 = .fin true 0 (-149) ∧ FpEnv.rne.rm < 4 ∧ (⟨3, true⟩ : FpEnv).rm < 4 := by decide +kernel
theorem witness_FloatRounding_numbers : (Fp.fin false 12582912 (-23)).number + (Fp.fin false 12582912 (-23)).number ≠ 0 ∧
    (Fp.fin false 12582912 (-23)).number + (Fp.fin true 12582912 (-23)).number = 0 ∧ (Fp.fin false 12582912 (-23)).number - (Fp.fin true 12582912 (-23)).number ≠ 0 ∧
    (Fp.fin false 12582912 (-23)).number - (Fp.fin false 12582912 (-23)).number = 0 ∧ (Fp.fin false 12582912 (-23)).number * (Fp.fin true 12582912 (-23)).number ≠ 0 ∧
    (Fp.fin false 12582912 (-23)).number * (Fp.fin true 0 (-149)).number = 0 ∧ (Fp.fin true 0 (-149)).number = 0 ∧ (Fp.fin true 12582912 (-23)).number ≠ 0 := by decide +kernel
/-- Table 6.1's limits of E4M3: 448 and 2^−6; 480 lies above, 2^−7 below, 1.5 between. -/
theorem witness_FloatRounding_limits : Fmt.e4m3.largest = 448 ∧ twoTo Fmt.e4m3.emin = 1 / 64 ∧ Fmt.e4m3.largest < magnitude (Fp.fin true 480 0).number ∧
    magnitude (Fp.fin true 1 (-7)).number < twoTo Fmt.e4m3.emin ∧ twoTo Fmt.e4m3.emin ≤ magnitude (Fp.fin true 3 (-1)).number ∧
    magnitude (Fp.fin true 3 (-1)).number ≤ Fmt.e4m3.largest := by decide +kernel
/-- Operands of FP32 on which the cases of Tables 7.2 to 7.6 part: 2, −2, 0.5, 3, the least subnormal, ±0, ±∞, and a quiet and a signalling NaN. -/
theorem witness_FloatCases_operands : Fmt.f32.operand false 0x40000000 = .fin false 8388608 (-22) ∧ Fmt.f32.operand false 0xC0000000 = .fin true 8388608 (-22) ∧
    Fmt.f32.operand false 0x40400000 = .fin false 12582912 (-22) ∧ Fmt.f32.operand false 0x80000000 = .fin true 0 (-149) ∧ Fmt.f32.operand false 1 = .fin false 1 (-149) ∧
    Fmt.f32.operand false 0x7FC00000 = .nan false ∧ Fmt.f32.operand false 0x7F800001 = .nan true ∧ Fmt.f32.operand false 0xFF800000 = .inf true := by decide +kernel
theorem witness_FloatCases_numbers : (Fp.fin false 8388608 (-22)).number = 2 ∧ (Fp.fin true 8388608 (-22)).number < 0 ∧ (Fp.fin true 0 (-149)).number = 0 ∧ twoTo 1 = 2 ∧ twoTo 0 = 1 ∧
    twoTo 1 < (Fp.fin false 12582912 (-22)).number ∧ (Fp.fin false 12582912 (-22)).number < twoTo 2 ∧ (Fp.fin false 8388608 (-23)).number = twoTo 0 ∧
    ((1 : Int) : Rat) < (Fp.fin false 12582912 (-23)).number ∧ (Fp.fin false 12582912 (-23)).number < ((1 : Int) : Rat) + 1 ∧
    magnitude (Fp.fin false 1 (-149)).number < twoTo Fmt.f32.emin ∧ twoTo Fmt.f32.emin ≤ magnitude (Fp.fin true 8388608 (-22)).number := by decide +kernel
theorem witness_FloatCases_order : (Fp.fin true 8388608 (-22)).Below (.fin false 1 (-149)) ∧ ¬ (Fp.fin true 0 (-149)).Below (.fin false 0 (-149)) ∧
    ¬ (Fp.fin false 0 (-149)).Below (.fin true 0 (-149)) ∧ (Fp.inf true).Below (.inf false) ∧ (Fp.inf true).Below (.fin true 8388608 104) := by
  have h : (Fp.fin true 8388608 (-22)).number < (Fp.fin false 1 (-149)).number ∧ ¬ (Fp.fin true 0 (-149)).number < (Fp.fin false 0 (-149)).number ∧
      ¬ (Fp.fin false 0 (-149)).number < (Fp.fin true 0 (-149)).number := by decide +kernel
  exact ⟨h.1, h.2.1, h.2.2, ⟨rfl, rfl⟩, rfl⟩
theorem witness_FloatSpecialCases : (Fmt.f32.operand false 0x7F800001).isNan = true ∧ (Fmt.f32.operand false 0x7F800000) = .inf false ∧
    (Fmt.f32.operand false 0xFF800000) = .inf true ∧ (Fmt.f32.operand false 0x80000000).isZero = true ∧ (Fmt.f32.operand true 1).isZero = true ∧ (true : Bool) ≠ false ∧
    (Fmt.f32.operand false 0x7F800000).isInf = true ∧ Fmt.f32.operand false 1 = .fin false 1 (-149) ∧ Fmt.f32.operand false 0 = .fin false 0 (-149) := by decide +kernel
theorem witness_ConversionResults : readyAll .cp [(0x500, long 0 1 2 0 1), (0x510, long 4 1 2 3 0x80), (0x520, long 0 1 2 3 0x89), (0x530, long 4 1 2 0 0),
    (0x540, long 0 1 2 0 0x10), (0x541, long 5 1 2 0 0), (0x550, long 1 0x100 2 0 0x80)] = true := by decide +kernel

/-- Sources and scales of VCVT, VQNT, VDQNT and VSPLIT: a signalling NaN, −∞, 1.5 and −1 as i8; scales zero, negative and good. -/
theorem witness_ConversionResults_lanes : (∀ k < 14, 1 < 2 ^ codeWidth k) ∧ (0x7F800001 : Nat) < 2 ^ codeWidth 8 ∧ (fmtOf (8 - 8)).operand false 0x7F800001 = .nan true ∧
    (fmtOf (8 - 8)).operand false 0xFF800000 = .inf true ∧ (fmtOf (8 - 8)).operand true 0x3FC00000 = .fin false 12582912 (-23) ∧ (0xFF : Nat) < 2 ^ codeWidth 0 ∧
    2 ^ (intWidth 0 - 1) ≤ 0xFF ∧ (Fmt.f32.operand false 0).isZero = true ∧ (2 : Nat) ^ 31 ≤ 0xBFC00000 ∧ (0xBFC00000 : Nat) < 2 ^ 32 ∧
    Fmt.f32.operand false 0x3FC00000 = .fin false 12582912 (-23) ∧ sourceOf 0 false 0xFF = .fin true 1 0 ∧ (sourceOf 12 false 0x80).isZero = true := by decide +kernel
/-- The lanes of a scale: 3.5 and −900, whose largest magnitude is 900; a NaN; an infinity; zeros alone. -/
theorem witness_ConversionResults_scales : ([0x40600000, 0xC4610000].map (Fmt.f32.operand false)).all (fun x => !x.isNan && !x.isInf && decide (magnitude x.number ≤ 900)) = true ∧
    magnitude (Fmt.f32.operand false 0xC4610000).number = 900 ∧ (Fmt.f32.operand false 0x7FC00000).isNan = true ∧ (Fmt.f32.operand true 0xFF800000).isInf = true ∧
    ([0, 0x80000000, 1].map (Fmt.f32.operand true)).all Fp.isZero = true := by decide +kernel
/-- A head that is an infinity, for a finite lane of BF16; and heads that are numbers, one of them the lane itself. -/
theorem witness_ConversionResults_heads : (fmtOf 1).value ((convLane 8 9 FpEnv.rne false 0x7F7FFFFF).bits) = .inf false ∧
    Fmt.f32.operand false 0x7F7FFFFF = .fin false 16777215 104 ∧ (fmtOf 1).value ((convLane 8 9 FpEnv.rne false 0x3FC00000).bits) = .fin false 192 (-7) ∧
    (fmtOf 1).value ((convLane 8 9 FpEnv.rne false 0x3FC00001).bits) = .fin false 192 (-7) := by decide +kernel
/-- Table 6.7. -/
theorem test_table_6_7 : [0x43E00000, 0x43E80000, 0x43E88000, 0xFF800000, 0x3A800000, 0x3AC00000, 0x7F800001].map (convLane 8 12 FpEnv.rne false) =
      [⟨0x7E, 0⟩, ⟨0x7E, flNX⟩, ⟨0x7E, flOF ||| flNX⟩, ⟨0xFE, flOF ||| flNX⟩, ⟨0, flUF ||| flNX⟩, ⟨1, flUF ||| flNX⟩, ⟨0x7F, flNV⟩] ∧
    [0x43E88000, 0xFF800000].map (convLane 8 12 FpEnv.rne true) = [⟨0x7F, flOF ||| flNX⟩, ⟨0x7F, flOF ||| flNX⟩] ∧ convLane 8 13 FpEnv.rne false 0x47700000 = ⟨0x7B, flOF ||| flNX⟩ ∧
    convLane 8 10 FpEnv.rne false 0x477FF000 = ⟨0x7C00, flOF ||| flNX⟩ ∧
    [0x42FF0000, 0xC3010000, 0xC3008000].map (convLane 8 0 FpEnv.rne false) = [⟨0x7F, flNV⟩, ⟨0x80, flNV⟩, ⟨0x80, flNX⟩] ∧
    convLane 2 8 FpEnv.rne false 0x01000001 = ⟨0x4B800000, flNX⟩ ∧ convLane 2 0 FpEnv.rne false 0x190 = ⟨0x7F, 0⟩ := by decide +kernel

/-! ## The matrix array, reels and transfers: witnesses -/

/-- A nest of one tuple of one row, one column and one K: A and B through stream 0, C through stream 1, all at address 0. -/
def table0 : List W32 := [0x100, 0x01010001, 0, 0, 0x30001] ++ List.replicate 23 0
def live0 : Nest := { table := table0, qa := [0, 0, 0, 12] ++ List.replicate 12 0, qb := [0, 0, 0, 12] ++ List.replicate 12 0,
                      qc := [0, 0, 0, 8] ++ List.replicate 12 0, idx := [0, 0, 0, 0, 0, 0], row := 0, slot := 0, lastB := none, rc := 0, paused := false, pausing := false,
                      stalled := false, pc := 0, pushes := [] }
/-- Core 0 with that table and those streams, and a nest. -/
def nest0 (x : Option Nest) : State := (at0 .ct).modMyCore (fun c => { c with nestTab := [(0, 0x100), (1, 0x01010001), (4, 0x30001)], streams := [(3, 12), (19, 8)], nest := x })

theorem witness_MmaPromotesOneRow : (at0 .cp).ready 0x630 (long 0 0 0 0 0x003FFF) = true ∧ (at0 .cp).myCore.arrayHeld = false ∧ (at0 .cp).myCore.arrayBusy = false ∧
    (0x003FFF : BitVec 24).getLsbD 16 = false ∧ (at0 .cp).mySeq.cols ≤ 128 := by decide +kernel
theorem witness_MatrixInstructionResults : readyAll .cp [(0x630, long 0 0 0 0 0), (0x640, long 0 0 1 0x301 0x40), (0x650, long 0 0 0 0 0), (0x670, long 0 0 0 0 0xFF),
      (0x660, long 0 1 0 0 0x10000), (0x660, long 0 1 0 2 0x8000)] = true ∧ (at0 .ct).ready 0x600 (long 0 0 1 0 27) = true ∧ (at0 .cp).myCore.fillsBank = false ∧
    (at0 .cp).myCore.rowReserved 1 127 = false ∧ (0x10000 : BitVec 24).toNat / 32768 % 4 = 2 ∧ (nest0 (some live0)).myCore.arrayHeld = true ∧
    [(0x630, long 0 0 0 0 0), (0x640, long 0 0 1 0x301 0x40), (0x650, long 0 0 0 0 0), (0x660, long 0 1 0 0 0x10000), (0x670, long 0 0 0 0 0)].all
      (fun p => ({ nest0 (some live0) with cur := (0, .cp) } : State).ready p.1 p.2) = true ∧ (nest0 (some live0)).myCore.rowReserved 0 0 = true := by decide +kernel
/-- A copy into the weight bank is under way. -/
def filling0 : State := (at0 .cp).modMyCore (fun c => { c with ldq := [⟨0, .weights [] 0 1 1 none false true, 0, 0, [], false, false, false, false⟩] })
/-- A pass holds the array until cycle 4. -/
def passing0 (x : Option Nest) : State := (nest0 x).modMyCore (fun c => { c with arrayAt := some 4 })
theorem witness_MatrixInstructionResults_busy : ({ passing0 none with cur := (0, .cp) } : State).ready 0x630 (long 0 0 0 0 0) = true ∧ (passing0 none).myCore.arrayBusy = true ∧
    (passing0 none).myCore.arrayHeld = false ∧ ((passing0 none).modMyCore (fun c => { c with cycle := 4 })).myCore.arrayBusy = false := by decide +kernel
theorem witness_MatrixInstructionResults_stalls : filling0.ready 0x650 (long 0 0 0 0 0) = true ∧ filling0.myCore.fillsBank = true := by decide +kernel
theorem witness_MatrixInstructionResults_traps : (nan0 true).ready 0x660 (long 0 1 0 0x301 0) = true ∧ (nan0 true).fpTraps ≠ 0 ∧
    allFlags ((drainRows (nan0 true) (long 0 2 0 1 0)).flatMap (fun j => (nan0 true).lanes.map (fun i => (i, (drainValue false .f32 (nan0 true).fpEnv false
      ((nan0 true).myCore.accCell 0 j i).toNat ((nan0 true).srcLane 1 32 i)).fl)))) &&& (nan0 true).fpTraps ≠ 0 := by decide +kernel

theorem witness_NestResults_mgo : (nest0 none).ready 0x610 (long 0 0 0 0 0) = true ∧ (nest0 none).myCore.table = table0 ∧
    (nest0 none).myCore.stream (tabBits table0 0 0 4) = live0.qa ∧ (nest0 none).myCore.stream (tabBits table0 0 4 4) = live0.qb ∧
    (nest0 none).myCore.stream (tabBits table0 0 8 4) = live0.qc ∧ tableFault table0 12 12 8 = none ∧ streamFmt live0.qa = 12 ∧ streamFmt live0.qc = 8 ∧
    streamFault live0.qa = none ∧ streamFault live0.qc = none ∧ streamScaled live0.qa = false ∧ (nest0 none).myCore.arrayHeld = false ∧
    (nest0 none).permitFree (classWeight ((nest0 none).effRc 0 (tabRc table0))) = true ∧ (nest0 none).mySeq.queue = [] := by decide +kernel
/-- MGO with this word 0 of the table and these streams. -/
def mgo0 (w : W32) (l : Tab W32) : State := (nest0 none).modMyCore (fun c => { c with nestTab := [(0, w), (1, 0x01010001), (4, 0x30001)], streams := l })
/-- The check that MGO fails there: the table's offset, then those of QA, QB and QC, then the scales of A and of B. -/
def mgoChecks0 (s : State) : Option Nat × Option Nat × Option Nat × Option Nat × Bool × Bool :=
  let c := s.myCore
  let a := c.stream (tabBits c.table 0 0 4)
  let b := c.stream (tabBits c.table 0 4 4)
  let d := c.stream (tabBits c.table 0 8 4)
  (tableFault c.table (streamFmt a) (streamFmt b) (streamFmt d), streamFault a, streamFault b, streamFault d,
    streamScaled a && decide (word a 7 ≤ nestTopA c.table a), streamScaled b && decide (word b 7 ≤ nestTopB c.table b))
theorem witness_NestResults_ready : (mgo0 0x120 [(3, 12), (19, 8), (35, 12)]).ready 0x610 (long 0 0 0 0 0) = true ∧ (mgo0 0x120 []).mySeq.queue = [] ∧
    (nest0 (some live0)).ready 0x610 (long 0 0 0 0 0) = true ∧ (nest0 (some live0)).myCore.arrayHeld = true := by decide +kernel
theorem witness_NestResults_table : mgoChecks0 (mgo0 0x120 [(3, 12), (19, 8), (35, 12)]) = (none, none, none, none, false, false) ∧
    (mgoChecks0 (mgo0 0x1000120 [(3, 12), (19, 8), (35, 12)])).1 = some 0 := by decide +kernel
theorem witness_NestResults_streams : [[(1, 0x800000), (3, 12), (19, 8), (35, 12)], [(3, 12), (19, 8), (35, 12), (37, 0x800000)], [(3, 12), (19, 8), (24, 1), (35, 12)],
      [(3, 28), (19, 8), (35, 12)], [(3, 12), (19, 8), (35, 28)]].map (fun l => mgoChecks0 (mgo0 0x120 l)) =
    [(none, some 4, none, none, false, false), (none, none, some 20, none, false, false), (none, none, none, some 32, false, false),
      (none, none, none, none, true, false), (none, none, none, none, false, true)] := by decide +kernel
/-- A nest whose lease has ended, before its core arbitrates in this cycle and after; and one whose next pass the array does not accept. -/
theorem witness_NestResults_boundaries : ((nest0 (some { live0 with pausing := true })).quad (quadOf 0)).turn ≤ 0 ∧
    0 < (((nest0 (some { live0 with pausing := true })).setQuad 0 { Quad.reset with turn := 1 }).quad (quadOf 0)).turn ∧
    ((passing0 (some live0)).core 0).arrayBusy = true ∧ ((passing0 (some live0)).core 0).live = true ∧ live0.row < live0.rowsM ∧ ((nest0 (some live0)).core 0).arrayBusy = false ∧
    ((passing0 (some { live0 with row := 1 })).judge 0 ({ live0 with row := 1 }.touches [])) = .allowed := by decide +kernel
/-- The budget of core 0's quadrant is taken by another core. -/
def taken0 (s : State) : State := s.setQuad 0 { s.quad 0 with grants := [⟨1, .ct, .explicit, 65535, none, false, 0⟩] }
theorem witness_NestResults_waits : ((taken0 (nest0 none)).quad (quadOf 0)).grants.any (fun p => p.mine 0 .ct) = false ∧ ((taken0 (nest0 none)).quad (quadOf 0)).asks = [] ∧
    ((taken0 (nest0 none)).quad (quadOf 0)).fits (classWeight ((taken0 (nest0 none)).effRc 0 (tabRc table0))) = false ∧ (taken0 (nest0 none)).mySeq.wait = none ∧
    (taken0 (nest0 none)).ready 0x610 (long 0 0 0 0 0) = true := by decide +kernel
theorem witness_NestResults_events : (nest0 (some live0)).ready 0x620 (long 0 0 0 0 0) = true ∧ (nest0 none).myCore.nest = none ∧ ((nest0 (some live0)).core 0).live = true ∧
    ((nest0 (some live0)).core 0).nest = some live0 ∧ live0.paused = false ∧ live0.pausing = false ∧ (nest0 (some live0)).judge 0 (live0.touches []) = .allowed ∧
    live0.row < live0.rowsM ∧ { live0 with row := 1 }.rowsM ≤ 1 ∧ (nest0 (some live0)).judge 0 ({ live0 with row := 1 }.touches []) = .allowed ∧ ((nest0 (some live0)).core 0).scales = [] ∧
    (State.reset.core 0).live = false ∧
    (nest0 none).judge 0 ({ live0 with qa := [0x30000, 0, 0, 12] ++ List.replicate 12 0 }.touches []) = .fault 0x10 0x30000 := by decide +kernel

/-- Two values of L0's index; the last tuple; a pass that neither fills the bank nor starts the block, and one that does. -/
theorem witness_NestResults_tuples : (0 : Nat) + 1 < levelCount (table0.set 4 0x30002) 0 ∧ (List.range 6).all (fun l => decide (levelCount table0 l ≤ 0 + 1)) = true ∧
    [0, 0, 0, 0, 0, 0].length = 6 ∧ 0 + 1 < live0.rowsM + (if live0.lastOf 3 && !tabNodrain live0.table then live0.rowsM else 0) ∧
    { live0 with row := 1 }.rowsM + (if { live0 with row := 1 }.lastOf 3 && !tabNodrain live0.table then { live0 with row := 1 }.rowsM else 0) ≤ 1 + 1 ∧
    nextTuple table0 live0.idx levels = none ∧ (nextTuple (table0.set 4 0x30002) live0.idx levels).isSome = true := by decide +kernel
theorem witness_NestResults_passes : live0.slot < 64 ∧ live0.fills = true ∧ { live0 with row := 1 }.fills = false ∧ (live0.row == 0 && live0.roleIndex 3 == 0) = true ∧
    ({ live0 with row := 1 }.row == 0) = false ∧ tabAccm table0 = false ∧ tabAccm (table0.set 0 0x80100) = true ∧ tabSparse (table0.set 0 0x4100) = true ∧ live0.klen = 1 ∧
    bankCols live0.extents 0 = 1 ∧ bankCols live0.extents 1 = 0 ∧ live0.aAddr 0 = 0 ∧ live0.bAddr 0 = 0 ∧ live0.cAddr 0 0 = 0 ∧ cWidth table0 = 4 ∧
    { live0 with row := 1 }.rowsM ≤ 1 ∧ live0.cols = 1 := by decide +kernel
/-- The bytes at address 0 are plain, and a unit of four of them is a run. -/
theorem witness_plain : (nest0 none).Plain 0 0 4 := ⟨⟨2 ^ 44, 16, 15⟩, by decide +kernel, by decide +kernel⟩
theorem witness_run : (nest0 none).Run 0 0 4 1 (2 ^ 44) ⟨2 ^ 44, 16, 15⟩ :=
  ⟨.inr (.inr (.inl rfl)), by decide +kernel, by decide +kernel, by decide +kernel, by decide +kernel, by decide +kernel⟩
theorem witness_NestResults_drains : tabElem (table0.set 2 0x3FC00000) ≠ 2 ∧ tabOfmt (table0.set 2 0x3FC00000) ≠ 3 ∧ Fmt.f32.value 0x3FC00000 = .fin false 12582912 (-23) ∧
    Fmt.f32.value (word (table0.set 2 0x3FC00000) 2) = .fin false 12582912 (-23) ∧ tabOvf (table0.set 0 0x70100) = true := by decide +kernel

/-- A legal reel configuration: FP8, a period of 64 cycles, LA 2, 8 beats, drains of one row. -/
def reelRegs0 : Core := ((((at0 .cp).core 0).setSys 0x0C1 64).setSys 0x0C2 2).setSys 0x0C3 8
def reelCore0 : Core := reelRegs0.setSys 0x0C7 1
def start0 : Reel := newReel reelCore0 (reelCore0.seqs.get .cp) 0 []
/-- Core 0 at a cycle with that configuration, a reel, and slots filled. -/
def reel0 (c : Word) (r : Option Reel) (filled : Bool) : State := ((at0 .cp).setCore 0 { reelCore0 with cycle := c, reel := r }).modMyCore (fun c => c.setFill 0 filled)
theorem witness_ReelInstructionResults : (reel0 0 none false).ready 0x700 (long 0 0 0 0 0) = true ∧
    reelConfigFault (reel0 0 none false).myCore (stretch ((reel0 0 none false).effRc 0 0)) = none ∧
    (∀ m ∈ reelFeeders (reel0 0 none false).myCore ++ [((reel0 0 none false).myCore.sysreg 0x0C6).toNat % 1024],
      (reel0 0 none false).myCore.placement.contains (globalCore 0 m) = true) ∧
    (reel0 0 none false).myCore.arrayHeld = false ∧ (reel0 0 none false).permitFree (classWeight ((reel0 0 none false).effRc 0 0)) = true ∧ (reel0 0 none false).mySeq.queue = [] ∧
    reelConfigFault (reelCore0.setSys 0x0C0 3) 1 = some 0x0C0 ∧ reelConfigFault (reelCore0.setSys 0x0C1 3) 1 = some 0x0C1 ∧
    (reelFeeders (reelCore0.setSys 0x0C5 9) ++ [0]).find? (fun m => !reelCore0.placement.contains (globalCore 0 m)) = some 9 := by decide +kernel
theorem witness_ReelInstructionResults_others : (reel0 0 (some start0) false).ready 0x710 (long 0 0 0 0 0) = true ∧ start0.closed = false ∧ { start0 with closed := true }.closed = true ∧
    readyAll .ct [(0x720, long 0 1 0 0 0), (0x740, long 0 1 0 0 0), (0x730, long 0 0 1 0 0)] = true ∧ (at0 .ct).myCore.cueq = [] ∧ (at0 .cp).myCore.reel = none := by
  decide +kernel

/-- A pass that began at cycle 128. -/
def beat0 (read : Bool) : Beat := ⟨0, 128, read, [], [], 0, 0⟩
/-- A core whose CP has halted, or whose HALT has issued. -/
def cpDone0 (halted : Bool) : Core := core0.setSeq .cp (if halted then core0.seqs.cp else { core0.seqs.cp with run := .running, halting := some (long 0 0 0 0 0) })
theorem witness_ReelEvents_beats : (reel0 128 (some start0) true).delivers 0 = true ∧ start0.holding = false ∧ start0.off = false ∧ start0.suspending = false ∧
    ((reel0 128 (some start0) true).core 0).beatTime start0 = true ∧ ((reel0 127 (some start0) true).core 0).beatTime start0 = false ∧
    ((reel0 128 (some start0) true).core 0).beatReady start0 = true ∧ ((reel0 128 (some start0) false).core 0).beatReady start0 = false ∧ start0.abortPolicy = false ∧
    { start0 with abortPolicy := true }.abortPolicy = true ∧ ((reel0 128 none true).core 0).beatTime { start0 with holding := true } = true ∧
    ((reel0 128 none false).core 0).beatReady { start0 with holding := true } = false ∧ { start0 with off := true }.off = true ∧
    ((reel0 128 none true).core 0).beatTime { start0 with off := true } = true ∧ (∀ b, (cpDone0 b).cpDone = true) ∧ (cpDone0 true).seqs.cp.run = .halted := by decide +kernel
theorem witness_ReelEvents_passes : { start0 with begun := [beat0 false] }.begun.find? (fun b => !b.read) = some (beat0 false) ∧
    ((reel0 (128 + BitVec.ofNat 64 start0.occ) none true).core 0).cycle = (beat0 false).start + BitVec.ofNat 64 start0.occ ∧
    ((reel0 (128 + BitVec.ofNat 64 start0.latency) none true).core 0).cycle = (beat0 true).start + BitVec.ofNat 64 start0.latency ∧
    { start0 with begun := [beat0 true] }.begun = beat0 true :: [] ∧ (beat0 true).read = true ∧ (beat0 false).prior = [] ∧ 0 < start0.cols ∧ 0 < min start0.klen 128 ∧
    (0, (7 : Byte)) ∈ { beat0 false with prior := [(0, 7)] }.prior := by decide +kernel
theorem witness_ReelEvents_cues_others : ∀ k, k ≠ 0 → (((reel0 0 none false).modMyCore (fun c => { c with cueWay := [⟨0, 1⟩] })).core k).cueWay = [] := by
  intro k hk
  cases k with
  | zero => exact absurd rfl hk
  | succ k => rfl
/-- Core 1 holds a context too. -/
def reel1 : State := (reel0 0 (some start0) false).setCore 1 core0
theorem witness_ReelEvents_cues : reel1.cueRoom 1 = true ∧ (reel1.core 1).ctx.isSome = true ∧ (reel1.core 1).cueq.length < 16 ∧ recordDrain 0x80000000 = true ∧ recordDrain 0 = false ∧
    { start0 with due := [⟨0x80000000, 1⟩] }.due = ⟨0x80000000, 1⟩ :: [] ∧ { start0 with closed := true }.closed = true ∧ start0.susp = false ∧
    (({ start0 with out := [⟨0, 1⟩] } : Reel).due ++ ({ start0 with out := [⟨0, 1⟩] } : Reel).out).all (fun q => !recordDrain q.record) = true ∧
    { start0 with suspending := true }.suspending = true ∧ ((reel0 128 none false).core 0).cycle = start0.next ∧
    start0.draining = false ∧ { start0 with draining := true }.draining = true ∧ Tab.sorted (reel0 0 none false).cores = true ∧ (1 : Nat) ≠ 0 := by decide +kernel
/-- The record w is on its way back to core 0, whose reel awaits it. -/
def answer0 (w : Word) : State := (reel0 0 (some { start0 with out := [⟨w, 1⟩] }) false).modMyCore (fun c => { c with cueBack := [⟨w, 1⟩] })
theorem witness_ReelEvents_answers : ∀ d, recordDrain (if d then 0x80000000 else 0) = d ∧ ((answer0 (if d then 0x80000000 else 0)).core 0).cueBack = [⟨if d then 0x80000000 else 0, 1⟩] ∧
    ((answer0 (if d then 0x80000000 else 0)).core 0).ctx.isSome = true ∧ recordGen (if d then 0x80000000 else 0) = ((answer0 (if d then 0x80000000 else 0)).core 0).reelGen := by
  decide +kernel

/-- None of these misses is of this cycle; a beat held since this cycle, and a reel that a miss of this cycle drains. -/
theorem witness_ReelEvents_missed : (∀ d : Bool, ((answer0 (if d then 0x80000000 else 0)).core 0).missedNow = false) ∧
    ((reel0 0 (some { start0 with holding := true, next := BitVec.ofNat 64 start0.period }) false).core 0).missedNow = true := by decide +kernel

/-- Two active lanes. -/
def two0 (q : SeqId) : State := (at0 q).modMe (fun k => k.setSys 0x002 2)
theorem witness_VectorLoadAndStoreResults : (two0 .ld).ready 0x800 (long 2 1 1 0 0x100) = true ∧ (two0 .ld).ready 0x801 (long 2 1 1 2 0x100) = true ∧ (two0 .ld).ready 0x802 (long 2 1 1 2 0) = true ∧
    (two0 .st).ready 0x810 (long 2 1 1 0 0x100) = true ∧ (two0 .st).ready 0x811 (long 2 1 1 2 0x100) = true ∧ (two0 .st).ready 0x812 (long 2 1 1 2 0) = true ∧
    (two0 .ld).clear Want.load 4 [0x100, 0x104] = true ∧ (two0 .st).clear Want.store 4 [0x100, 0x100] = true ∧ (two0 .ld).ready 0x840 (long 0 15 1 0 0x40) = true ∧
    (two0 .ld).clear Want.load 4 (units 0x40 4 16) = true ∧ (1 : Word).toNat % 64 ≠ 0 ∧ (two0 .ld).ready 0x870 (long 0 0 1 0 0) = true := by decide +kernel
/-- Stream 0 is a block of bytes at address 0; s1 = 64 and s2 = 2^20 + 4. -/
def copies0 (q : SeqId) : State := (regs0 q [(1, 2 ^ 21), (2, 2 ^ 20 + 4), (3, 64)]).modMyCore (fun c => { c with streams := [(3, 12)] })
theorem witness_CopyInstructionsQueue : (copies0 .ld).ready 0x820 (long 2 0 0 0 0) = true ∧ (copies0 .st).ready 0x830 (long 2 0 0 0 0) = true ∧
    opIndex 0 + (copies0 .ld).mySeq.rows ≤ 128 ∧ streamFault ((copies0 .ld).myCore.stream 0) = none ∧ streamFmt ((copies0 .ld).myCore.stream 0) = 12 ∧
    (streamBase ((copies0 .ld).myCore.stream 0) + (copies0 .ld).sreg 0).toNat % 4 = 0 ∧ (streamPitch ((copies0 .ld).myCore.stream 0)).toNat % 4 = 0 ∧
    [(0x850, SeqId.ld), (0xB00, .st), (0xB10, .ld)].all (fun p => [2, 3, 4].all (fun k => (copies0 p.2).ready p.1 (long 0 0 1 k 0))) = true ∧
    rangesMeet ((copies0 .ld).sreg 0) ((copies0 .ld).sreg 1) (2 ^ 20 + 4) = false ∧ (copies0 .ld).permitFree 2 = true ∧ (copies0 .ld).ready 0x860 (long 0 0 0 0 0) = true ∧
    streamScaled ((copies0 .ld).myCore.stream 0) = false := by decide +kernel
/-- A copy of LD into window 0x06, the stream registers of core 0, is under way, the window's first page being at address 0x10000. -/
def slotCopy0 (q : SeqId) : State := (copies0 q).modMyCore (fun c => { (c.setTransfers q [⟨0, .bytes 0x10000 0 64 false false true, 0, 0, [], false, false, false, false⟩]) with
  tlb := [tlb0, ⟨0, 1, 3 * 2 ^ 28 + 6 * 2 ^ 8, 15, 16⟩] })
theorem witness_CopyInstructionsQueue_slots : (slotCopy0 .ld).copiesInto 6 = true ∧ (slotCopy0 .st).copiesInto 6 = true ∧ (copies0 .ld).copiesInto 6 = false ∧ (copies0 .st).copiesInto 6 = false ∧
    (slotCopy0 .ld).ready 0x820 (long 2 0 0 0 0) = true ∧ (slotCopy0 .st).ready 0x830 (long 2 0 0 0 0) = true ∧ (slotCopy0 .ld).ready 0x860 (long 0 0 0 0 0) = true := by decide +kernel
theorem witness_CopyInstructionsQueue_issues : (match issueCopy (copies0 .ld) (long 0 0 1 3 0) (.bytes 0 (2 ^ 21) 64 false false true) false with
    | .done _ => true | _ => false) = true := by decide +kernel
/-- A transfer of 4 bytes, or of three chunks, or one that reads a page that is not mapped. -/
def xfer0 (src : Word) (len : Nat) (pausing : Bool) : Transfer := ⟨0, .bytes 0 src len false false true, 0, 0, [], false, pausing, false, false⟩
def xfers0 (t : Transfer) : State := (at0 .ld).modMyCore (fun c => { c with ldq := [t] })
theorem witness_CopyChunks : ((xfers0 (xfer0 64 4 false)).core 0).live = true ∧ ((xfers0 (xfer0 64 4 false)).core 0).transfers .ld = xfer0 64 4 false :: [] ∧
    (match (xfers0 (xfer0 64 4 false)).copyChunk 0 (xfer0 64 4 false).copy 0 with | .done _ => true | _ => false) = true ∧ (xfer0 64 4 false).copy.chunks ≤ 0 + 1 ∧
    0 + 1 < (xfer0 0x8000 0x4000 false).copy.chunks ∧ (match (xfers0 (xfer0 0x8000 0x4000 false)).copyChunk 0 (xfer0 0x8000 0x4000 false).copy 0 with | .done _ => true | _ => false) = true ∧
    (match (xfers0 (xfer0 0x30000 4 false)).copyChunk 0 (xfer0 0x30000 4 false).copy 0 with | .fault c va => c == 0x10 && va == 0x30000 | _ => false) = true ∧
    isDcc 0 = false ∧ (at0 .ld).myCore.transfers .ld = [] := by decide +kernel

theorem witness_CopyChunks_boundaries : ((xfers0 (xfer0 64 4 true)).core 0).transfers .ld = xfer0 64 4 true :: [] ∧ (xfer0 64 4 true).paused = false ∧
    ((xfers0 (xfer0 64 4 true)).quad (quadOf 0)).turn ≤ 0 ∧ 0 < (((xfers0 (xfer0 64 4 true)).setQuad 0 { Quad.reset with turn := 1 }).quad (quadOf 0)).turn := by decide +kernel
/-- The chunks of each kind of transfer, all of them at address 0 of the same page. -/
def chunkDone0 (c : Copy) (j : Nat) : Bool := match (nest0 none).copyChunk 0 c j with | .done _ => true | _ => false
theorem witness_CopyChunks_kinds : chunkDone0 (.bytes 0 64 4 false false true) 0 = true ∧ (min 4 (pieceStart 0 1) - pieceStart 0 0) / 4 = 1 ∧
    chunkDone0 (.tile false false 0 32 1 1 0 4) 0 = true ∧ chunkDone0 (.tile true true 0 32 1 1 0 4) 0 = true ∧ (32 : Nat) ≤ 32 ∧ opBcast 0 = false ∧ opPair 0 = false ∧ opDir 0 < 2 ∧
    ((nest0 none).core 0).snap = [] ∧ ((nest0 none).core 0).seqs.cp.flights = [] ∧
    [0, 129].all (chunkDone0 (.weights live0.qa 0 1 1 none true true)) = true ∧ chunkDone0 (.weights live0.qa 0 1 1 (some 0) true false) 128 = true := by decide +kernel

theorem witness_PhaseVaultfAndSmarkResults : (bay0 true).ready 0x890 (long 0 0 0 0 2) = true ∧ (bay0 true).holdsBay 0 = true ∧ ((bay0 true).bay (bayOf 0)).drain = none ∧
    ((bay0 true).bay (bayOf 0)).mib = 8 ∧ (bay0 true).ready 0x890 (long 0 0 0 0 8) = true ∧ (regs0 .ct [(2, 65536)]).ready 0x8A0 (long 0 0 1 2 0) = true ∧
    (regs0 .ct [(2, 65536)]).ready 0x8A0 (long 0 0 1 2 1) = true ∧ (at0 .ld).ready 0x880 (long 0 0 0 0 0x010005) = true ∧ (at0 .ld).busy = false ∧
    ((markSeqs (long 0 0 0 0 0x010005)).filter (fun q => q != .ld)).all (fun q => ((at0 .ld).seq 0 q).marked 0x010005) = true ∧
    ((markSeqs (long 0 0 0 0 0x050005)).filter (fun q => q != .ld)).all (fun q => ((at0 .ld).seq 0 q).marked 0x050005) = false ∧
    (at0 .ld).ready 0x880 (long 0 0 0 0 0x050005) = true ∧ (at0 .ld).mySeq.wait = none := by decide +kernel
theorem witness_PhaseDrainEnds : (((at0 .ct).setBay 0 { Bay.reset with drain := some ⟨9, 0, 0, []⟩ }).bay 0).drain = some ⟨9, 0, 0, []⟩ ∧ reached ((at0 .ct).core 0).cycle 0 = true := by
  decide +kernel

theorem witness_PhaseVaultfAndSmarkResults_stops : (bay0 false).ready 0x890 (long 0 0 0 0 2) = true ∧ (bay0 false).holdsBay 0 = false ∧
    ((bay0 true).setBay 0 { Bay.reset with drain := some ⟨9, 0, 9, []⟩ }).ready 0x890 (long 0 0 0 0 2) = true ∧
    (((bay0 true).setBay 0 { Bay.reset with drain := some ⟨9, 0, 9, []⟩ }).bay (bayOf 0)).drain.isSome = true ∧ reached ((at0 .ct).core 0).cycle 9 = false := by decide +kernel

/-- Slot 0: one level of one dimension and one FP32 feature at address 0x100, hash 0, LOGT 8, resolution 4; two active lanes. -/
def grid0 : List W32 := [0x100, 0, 0x08000101, 0, 0, 0, 4] ++ List.replicate 9 0
def hash0 (q : SeqId) : State := (two0 q).modMyCore (fun c => { c with grids := putWords [] 0 grid0 })
def gridLocs0 : List Word := ((two0 .cp).lanes.map (fun i => (i, laneCorners grid0 ((two0 .cp).coords (long 0 8 0 4 0) grid0 i)))).flatMap (fun p => match p.2 with
  | none => []
  | some ls => (ls.zipIdx).flatMap (fun q => q.1.flatMap (fun c => (List.range (gridFeat grid0)).map (fun j => gridEntry grid0 q.2 c.1 j))))
theorem witness_HashedGridResults_hgdef : gridOffence grid0 = none ∧ (two0 .ld).ready 0x780 (long 0 0 0 0 0x40) = true ∧ (two0 .ld).clear Want.load 4 (units 0x40 4 16) = true ∧
    gridOffence ((units 0x40 4 16).map (fun a => BitVec.ofNat 32 ((two0 .ld).load 0 a 4))) = some 8 ∧
    gridOffence ((units 0x40 4 16).map (fun a => BitVec.ofNat 32 (({ two0 .ld with mem := [(2 ^ 44 + 0x48, 1), (2 ^ 44 + 0x49, 1), (2 ^ 44 + 0x4B, 8), (2 ^ 44 + 0x58, 4)] } : State).load
      0 a 4))) = none := by decide +kernel
theorem witness_HashedGridResults : (hash0 .ld).ready 0x790 (long 0 8 0 0 0) = true ∧ (hash0 .st).ready 0x7A0 (long 0 0 0 4 0) = true ∧ (hash0 .st).ready 0x7A1 (long 0 0 0 4 0) = true ∧
    (hash0 .ld).ready 0x7B0 (long 0 8 0 0 0) = true ∧ (hash0 .ld).myCore.grid 0 = grid0 ∧ opIndex 0 + gridDims grid0 ≤ 128 ∧
    rangesClash 0 8 (gridDims grid0) (gridLevels grid0 * gridFeat grid0) = false ∧ gridLocs0 = [0x100, 0x104, 0x100, 0x104] ∧
    (hash0 .ld).judge 0 (gridLocs0.map (fun va => { want := { r := true, line := true }, va := va, size := 4 })) = .allowed ∧ (hash0 .ld).mySeq.queue = [] ∧
    [(0x790, SeqId.ld, long 0 8 0 0 1), (0x7B0, .ld, long 0 8 0 0 1), (0x7A0, .st, long 0 0 0 4 1), (0x7A1, .st, long 0 0 0 4 1)].all
      (fun p => (hash0 p.2.1).ready p.1 p.2.2) = true ∧ gridOffence ((hash0 .ld).myCore.grid 1) = some 8 ∧
    (hash0 .ld).judgeAtoms 0 3 ((hash0 .ld).gridPlace 0) (gridLocs0.map (fun va => { want := Want.scatter, va := va, size := 4 })) = .allowed ∧
    (hash0 .ld).busy = false ∧ (hash0 .st).busy = false ∧ (hash0 .ld).storesInto [0, 8] = false ∧ (∀ q ∈ [SeqId.ld, .st], ((hash0 q).drainQueue 0 q).myCore.grid 0 = grid0) := by decide +kernel

/-- The same with a copy of its own sequencer under way. -/
def busy0 (q : SeqId) : State := (hash0 q).modMyCore (fun c => c.setTransfers q [⟨0, .bytes 0 0x8000 64 false false true, 0, 0, [], false, false, false, false⟩])
theorem witness_HashedGridResults_busy : [(0x790, SeqId.ld, long 0 8 0 0 0), (0x7B0, .ld, long 0 8 0 0 0), (0x7A0, .st, long 0 0 0 4 0), (0x7A1, .st, long 0 0 0 4 0)].all
    (fun p => (busy0 p.2.1).ready p.1 p.2.2 && (busy0 p.2.1).busy) = true := by decide +kernel

/-! ## Synchronisation, the system class, launch and power: witnesses -/

/-- Ring 0 of bay 0 has four slots of 64 bytes from address 0x1000; used of them are taken, filled or claimed. -/
def ring0 (used : Nat) (fill claimed : List Nat) : Ring := { base := 0x1000, slot := 64, count := 4, head := 0, take := 0, tail := used % 4, used := used, clm := claimed.length, fill := fill, claimed := claimed }
def rings0 (r : Ring) (v : Word) : State := (regs0 .ct [(1, v)]).setBay 0 (Bay.reset.setRing 0 r)
theorem witness_RingAndBufferResults_claim : (rings0 (ring0 0 [] []) 0).ready 0xA00 (long 0 1 0 0 0) = true ∧ (rings0 (ring0 0 [] []) 0).ring 0 = ring0 0 [] [] ∧
    (rings0 (ring0 0 [] []) 0).behindInLine 0 = false ∧ (ring0 3 [] []).used < (ring0 3 [] []).count ∧ (ring0 4 [] []).count ≤ (ring0 4 [] []).used ∧
    (rings0 (ring0 4 [] []) 0).mySeq.wait = none ∧ (rings0 (ring0 4 [] []) 0).ready 0xA00 (long 0 1 0 0 0) = true := by decide +kernel
theorem witness_RingAndBufferResults_fill : (rings0 (ring0 2 [] [0, 1]) 0x1040).ready 0xA10 (long 0 0 1 0 0) = true ∧ (rings0 (ring0 2 [] [0, 1]) 0x1040).busy = false ∧
    [0, 1].filter (fun t => (0x1000 : Word) + BitVec.ofNat 64 (t * 64) == (rings0 (ring0 2 [] [0, 1]) 0x1040).sreg 1) = [1] ∧
    (rings0 (ring0 2 [0] []) 0).ready 0xA20 (long 0 1 0 0 0) = true ∧ (rings0 (ring0 2 [0] []) 0).behindInLine 256 = false ∧ (ring0 2 [0] []).take ≠ (ring0 2 [0] []).tail ∧
    (ring0 2 [0] []).take ∈ (ring0 2 [0] []).fill := by decide +kernel
theorem witness_RingAndBufferResults_free : (rings0 { ring0 2 [0] [] with take := 1 } 0x1000).ready 0xA30 (long 0 0 1 0 0) = true ∧ { ring0 2 [0] [] with take := 1 }.head ≠ 1 ∧
    (rings0 { ring0 2 [0] [] with take := 1 } 0x1000).sreg 1 = 0x1000 ∧ (ring0 2 [0] []).head = (ring0 2 [0] []).take ∧
    (rings0 (ring0 2 [0] []) 0x1000).ready 0xA30 (long 0 0 1 0 0) = true := by decide +kernel
/-- Buffer ring 0 holds a number of its buffers. -/
def bufs0 (held : Nat) : State := (at0 .ct).modMyCore (fun c => c.setBuf 0 { base := 0, size := 64, count := 2, head := 0, held := held })
theorem witness_RingAndBufferResults_buffers : (bufs0 1).ready 0xA40 (long 0 1 0 0 0) = true ∧ ((bufs0 1).myCore.buf 0).held < ((bufs0 1).myCore.buf 0).count ∧ (bufs0 1).behindBuf 0 = false ∧
    ((bufs0 2).myCore.buf 0).count ≤ ((bufs0 2).myCore.buf 0).held ∧ (bufs0 2).ready 0xA40 (long 0 1 0 0 0) = true ∧ (bufs0 1).ready 0xA50 (long 0 0 0 0 0) = true ∧
    (bufs0 1).busy = false ∧ ((bufs0 1).myCore.buf 0).held ≠ 0 ∧ ((bufs0 0).myCore.buf 0).held = 0 ∧ (bufs0 0).ready 0xA50 (long 0 0 0 0 0) = true := by decide +kernel

theorem witness_FlagAndFenceResults : (regs0 .ct [(1, 3)]).ready 0xA60 (long 0 2 1 0 31) = true ∧ ((regs0 .ct [(1, 3)]).sreg 1).toNat < 2 ^ 22 ∧
    (regs0 .ct [(1, 3)]).myCore.placement.contains 3 = true ∧ (at0 .ct).flagFault 0 3 = none ∧ (at0 .ct).busy = false ∧ (at0 .ct).ready 0xA61 (long 0 2 0 0 0x11F) = true ∧
    ((at0 .ct).members 0 1).all (fun m => ((at0 .ct).flagFault 0 m).isNone) = true ∧ (at0 .ct).ready 0xA62 (long 0 1 2 0 0) = true ∧
    flagCond 0 ((at0 .ct).myCore.flag 0) 0 = true ∧ flagCond 1 ((at0 .ct).myCore.flag 0) 0 = false ∧ (at0 .ct).ready 0xA63 (long 0 0 0 0 31) = true ∧
    (at0 .ct).ready 0xA64 (long 0 1 0 0 31) = true ∧ (at0 .ct).ready 0xA70 (long 0 0 0 0 0x30001) = true ∧ (at0 .ct).ready 0xA70 (long 0 0 0 0 0x30002) = true ∧
    (at0 .ct).ready 0xA70 (long 0 0 0 0 0x10003) = true ∧ (at0 .ct).members 0 0 ≠ [] ∧ ((at0 .ct).modMyCore (fun c => { c with scopes := [(6, [])] })).members 0 6 = [] := by
  decide +kernel
/-- Core 0's context also holds core 64, whose quadrant is gated, and core 1024, of a package outside the domain. -/
def lost0 : State := ((regs0 .ct [(1, 64), (2, 1024)]).modMyCore (fun c => { c with ctx := some { ctx0 with placement := [0, 64, 1024] } })).setStack 0 { Stack.reset with gated := [1] }
theorem witness_FlagAndFenceResults_lost : lost0.ready 0xA60 (long 0 2 1 0 31) = true ∧ lost0.ready 0xA60 (long 0 2 2 0 31) = true ∧
    lost0.myCore.placement.contains (lost0.sreg 1).toNat = true ∧ lost0.myCore.placement.contains (lost0.sreg 2).toNat = true ∧
    lost0.flagFault 0 (lost0.sreg 1).toNat = some 0x10 ∧ lost0.flagFault 0 (lost0.sreg 2).toNat = some 0x18 := by decide +kernel
theorem witness_FlagAndFenceResults_scopes : (at0 .ct).ready 0xAA0 (long 0 0 1 0 6) = true ∧ units ((at0 .ct).sreg 1) 1 (((at0 .ct).myCore.placement.length + 7) / 8) = [0] ∧
    (at0 .ct).judge 0 (accs Want.load 1 [0]) = .allowed ∧ mapCores 4 [(at0 .ct).load 0 0 1] = [] ∧ mapCores 4 [9] = [0, 3] := by decide +kernel

theorem witness_AtomicResults : readyAll .ct (((List.range 13).map (fun k => (0xA80 + k, long (if k = 6 ∨ k = 7 then 6 else if 10 ≤ k then 0 else 2) 1 2 0 (if k = 9 then 0x030104 else 0x104))))) = true ∧
    readyAll .st (((List.range 13).map (fun k => (0xA90 + k, long (if k = 6 ∨ k = 7 then 6 else if 10 ≤ k then 0 else 2) 5 2 3 (if k = 9 then 0x010706 else 0x010006))))) = true ∧
    (at0 .st).ready 0xA90 (long 3 0 2 3 0x06) = true ∧
    (at0 .ct).judgeAtoms 0 5 ((at0 .ct).atomPlace 0) [{ want := Want.atomic, va := (at0 .ct).sreg 2, size := 4 }] = .allowed ∧
    (two0 .st).judgeAtoms 0 5 ((two0 .st).atomPlace 0) ((two0 .st).lanes.map (fun i =>
      { want := Want.atomic, va := (two0 .st).sreg 2 + (BitVec.ofNat 32 ((two0 .st).srcLane 3 32 i)).signExtend 64, size := 4 })) = .allowed ∧ (at0 .ct).busy = false := by decide +kernel

/-- The line of address 0 in core 1's L1, where core 0's page is cacheable, or is not, or is one of package 1. -/
def lines0 (p : Nat) (perm : BitVec 6) : State := (at0 .ct).setCore 1 { core0 with l1 := [⟨2 ^ 37, 1⟩] } |>.modMyCore (fun c => { c with tlb := [⟨0, 0, p, perm, 16⟩] })
theorem witness_AtomicResults_lines : (lines0 (2 ^ 28) 15).xlate 0 0 = some ⟨2 ^ 44, 16, 15⟩ ∧ paSpace (2 ^ 44) < 2 ∧ paPkg (2 ^ 44) = pkgOf 0 ∧ (⟨2 ^ 44, 16, 15⟩ : Xlat).c = true ∧
    (lines0 (2 ^ 28) 7).xlate 0 0 = some ⟨2 ^ 44, 16, 7⟩ ∧ (⟨2 ^ 44, 16, 7⟩ : Xlat).c = false ∧ pkgOf 1 = paPkg (2 ^ 44) ∧
    (lines0 (2 ^ 32 + 2 ^ 28) 15).xlate 0 0 = some ⟨2 ^ 48 + 2 ^ 44, 16, 15⟩ ∧ paPkg (2 ^ 48 + 2 ^ 44) ≠ pkgOf 0 ∧ (((lines0 (2 ^ 28) 15).takeLine 0 0).core 1).l1 = [] := by decide +kernel

/-- CP of core 0 runs and has arrived at a collective of its own core alone. -/
def arrival0 : Arrival := { entry := 0, k := 0, fn := 0, q := 0, set := [0], vlen := 2, lanes := [0, 0], fields := long 0 1 2 0 0 }
def clst0 (a : Option Arrival) : State := ((at0 .cp).modMyCore (fun c => { c with clst := a })).modMe (fun q => { q with run := .running })
theorem witness_CollectiveResults : (∀ k < 5, (clst0 none).ready (0xB20 + k) (long (if k < 3 then 0 else 2) 1 2 0 0) = true) ∧ (clst0 none).ranked 0 0 = [0] ∧
    (clst0 none).myCore.clst = none ∧ ((clst0 none).ranked 0 0).contains 0 = true ∧ (clst0 none).permitFree 1 = true ∧
    ((clst0 (some arrival0)).core 0).clst = some arrival0 ∧ (clst0 (some arrival0)).arrivals arrival0 = some [(0, arrival0)] ∧
    [(0, arrival0)].all (fun p => p.2.agrees arrival0) = true ∧ ({ clst0 (some arrival0) with cur := (0, .cp) } : State).miss 0xB20 arrival0.fields = none ∧
    (((clst0 none).modMyCore (fun c => { c with scopes := [(6, [1])] })).ranked 0 6).contains 0 = false ∧ (clst0 (some arrival0)).delivers 0 = true ∧
    (∀ k < 5, (clst0 (some arrival0)).ready (0xB20 + k) (long (if k < 3 then 0 else 2) 1 2 0 0) = true) := by decide +kernel
/-- Core 0 has arrived at a collective with core 1; core 1 has arrived too, with its own FN, or has not, or is frozen. -/
def pair0 (a b : Option Nat) (frozen : Bool) : State := (clst0 (a.map (fun k => { arrival0 with fn := k, set := [0, 1] }))).setCore 1
  { core0 with clst := b.map (fun k => { arrival0 with fn := k, set := [0, 1] }), freeze := if frozen then some .nest else none }
theorem witness_CollectiveResults_others : (pair0 (some 0) none false).arrivals { arrival0 with set := [0, 1] } = none ∧
    ((pair0 (some 0) (some 0) false).arrivals { arrival0 with set := [0, 1] }).map (fun l => (l.all (fun p => p.2.agrees arrival0), l.all (fun p => (pair0 (some 0) (some 0) false).delivers p.1)))
      = some (true, true) ∧
    ((pair0 (some 0) (some 1) false).arrivals { arrival0 with set := [0, 1] }).map (fun l => (l.all (fun p => p.2.agrees arrival0), l.all (fun p => (pair0 (some 0) (some 1) false).delivers p.1)))
      = some (false, true) ∧
    ((pair0 (some 0) (some 0) true).arrivals { arrival0 with set := [0, 1] }).map (fun l => l.all (fun p => (pair0 (some 0) (some 0) true).delivers p.1)) = some false := by
  decide +kernel

theorem witness_CollectiveResults_last : (((clst0 none).permitted .collective 1).modMyCore (fun c => { c with clst := some arrival0 })).arrivals arrival0 = some [(0, arrival0)] ∧
    (((pair0 none none false).permitted .collective 1).modMyCore (fun c => { c with clst := some { arrival0 with set := [0, 1] } })).arrivals { arrival0 with set := [0, 1] } = none := by
  decide +kernel

/-- MFP and MTP whose requests stay in flight. -/
theorem witness_SystemInstructionResults_remote : ({ regs0 .ct [(2, 3)] with hold := true } : State).ready 0xC70 (long 0 1 2 0 0x280) = true ∧
    ({ regs0 .ct [(2, 3)] with hold := true } : State).ready 0xC71 (long 0 1 2 0 0x280) = true ∧ isDcc 0 = false ∧
    ({ regs0 .ct [(2, 3)] with hold := true } : State).reaches 0 (remoteNode (regs0 .ct [(2, 3)]) (long 0 1 2 0 0x280)) = true ∧
    ({ regs0 .ct [(2, 3)] with hold := true } : State).sealed (remoteNode (regs0 .ct [(2, 3)]) (long 0 1 2 0 0x280)) = false := by decide +kernel
/-- The placement of core 0's context has a core of package 1; core 0 is frozen with a write queued. -/
def apart0 : State := (regs0 .ct [(1, 1024)]).modMyCore (fun c => { c with ctx := some { ctx0 with placement := [0, 1024] } })
def frozen0 : State := ((at0 .ct).modSeq 0 .ld (fun q => { q with queue := [⟨8, .vertical, 2 ^ 44, 8, 1, none, some tlb0⟩] })).modMyCore (fun c => { c with freeze := some .nest })
theorem witness_SystemInstructionResults_apart : apart0.reaches 0 1024 = true ∧ pkgOf 1024 ≠ pkgOf 0 ∧ (at0 .ct).reaches 0 5 = false ∧ pkgOf ((3 * 2 ^ 22 + 3) % 2 ^ 22) = pkgOf 0 ∧
    apart0.ready 0xC31 (long 0 0 1 0 0) = true ∧ (at0 .ct).heldWrites 0 0 0 0 = false ∧ frozen0.heldWrites 0 0 0 0 = true ∧
    frozen0.heldWrites 0 0 0x10000 0 = false := by decide +kernel

theorem witness_SystemInstructionResults : readyAll .ct [(0xC30, long 0 0 0 0 0), (0xC31, long 0 0 1 0 0), (0xC40, long 0 0 0 0 0), (0xC50, long 0 1 2 0 0), (0xC70, long 0 1 2 0 0x280),
      (0xC71, long 0 1 2 0 0x280), (0xC71, long 0 1 2 0 0x281), (0xC80, long 0 0 0 0 0)] = true ∧ (at0 .ct).mySeq.latch = false ∧ (at0 .ct).myCore.notice = none ∧
    ((at0 .ct).modMyCore (fun c => { c with notice := some ⟨5, false⟩ })).myCore.notice.isSome = true ∧ (at0 .ct).reaches 0 ((3 * 2 ^ 22 + 3) % 2 ^ 22) = true ∧
    3 * 2 ^ 22 + 3 < 2 ^ 24 ∧ (at0 .ct).privileged 0 = true ∧ (at0 .ct).hold = false ∧ ({ at0 .ct with hold := true } : State).hold = true ∧ (at0 .ct).busy = false ∧
    ((regs0 .ct [(2, 3)]).sreg 2).toNat < 4096 ∧ (regs0 .ct [(2, 3)]).reaches 0 (remoteNode (regs0 .ct [(2, 3)]) (long 0 1 2 0 0x280)) = true ∧
    (regs0 .ct [(2, 3)]).sealed (remoteNode (regs0 .ct [(2, 3)]) (long 0 1 2 0 0x280)) = false ∧ ((at0 .ct).seq 0 .ld).run ≠ .running ∧
    (({ at0 .ct with cur := (0, .ld) } : State).modMe (fun q => { q with run := .running })).mySeq.run = .running ∧
    (((at0 .ct).modMyCore (fun c => { c with freeze := some .nest })).core 0).freeze.isSome = true := by decide +kernel
/-- A notice is pending on core 0, and a YIELD has retired. -/
def yielded0 : State := (at0 .ct).modMyCore (fun c => { c with notice := some ⟨5, true⟩ })
theorem witness_SystemInstructionResults_yield : (yielded0.core 0).notice = some ⟨5, true⟩ ∧ (yielded0.core 0).paused = none ∧ (yielded0.core 0).clst = none ∧
    isDcc 0 = false ∧ yielded0.drainPackage (pkgOf 0) = yielded0 := by decide +kernel

/-- What CoreEvents asks of each event: CT has an instruction in flight and two queued writes of another; core 0 has an event, a notice whose grace is over, and a restored result. -/
def ev0 : State :=
  ((at0 .ct).modMyCore (fun c => { c with cycle := 9, events := [.ct], notice := some ⟨9, false⟩, snap := [⟨0, 0, [], [], 9, 0, 1, false⟩] })).modMe (fun q =>
    { q with run := .running, flights := [⟨7, 0, [], [], 9, 0, 1, false⟩], queue := [⟨8, .vertical, 2 ^ 44, 8, 1, none, some tlb0⟩, ⟨8, .vertical, 2 ^ 44 + 8, 8, 2, none, some tlb0⟩] })
theorem witness_CoreEvents : (ev0.seq 0 .ct).flights.find? (fun y => y.tag == 7) = some ⟨7, 0, [], [], 9, 0, 1, false⟩ ∧ (ev0.core 0).freeze = none ∧
    (ev0.seq 0 .ct).queue.any (fun st => st.tag == 7) = false ∧ reached (ev0.core 0).cycle 9 = true ∧
    (nextStores ((ev0.seq 0 .ct).queue.filter (fun st => st.path == .vertical))).map (fun st => (st.addr, ev0.drainHit st.addr)) = [(2 ^ 44, false), (2 ^ 44 + 8, false)] ∧
    (ev0.core 0).events.contains .ct = true ∧ (ev0.core 0).notice = some ⟨9, false⟩ ∧ (ev0.core 0).paused = none ∧ (ev0.core 0).clst = none ∧
    (ev0.core 0).snap.find? (fun x => reached (ev0.core 0).cycle x.due) = some ⟨0, 0, [], [], 9, 0, 1, false⟩ ∧ (ev0.core 0).live = true ∧ (ev0.core 0).ctx.isSome = true ∧
    (0 : Word).getLsbD 0 = false ∧ ev0.fetchDrained 0 0 = false ∧ (ev0.core 0).icache.length ≤ 2048 ∧ Tab.sorted (ev0.core 0).icache = true ∧
    (((at0 .ct).modMyCore (fun c => { c with freeze := some .nest })).core 0).freeze.isSome = true := by decide +kernel
theorem witness_CoreEvents_timed : ((⟨7, 0, [], [], 9, 0, 1, false⟩ : Flight).lands = [] ∧ (⟨7, 0, [], [], 9, 0, 1, false⟩ : Flight).timed = false) ∧
    (⟨7, 0, [(.ld, 5)], [], 9, 0, 0, true⟩ : Flight).timed = true ∧ (⟨1, 1, 0, 10⟩ : Wait).counts = true := by decide +kernel
/-- CT of core 0 has waited since cycle 0 with a NOP in XOINS before it, which pops a token of LD and pushes one to CP; a tokens of LD are there, and p stand in the FIFO to CP. -/
def ev1 (a p : Nat) : State := ((at0 .ct).modMyCore (fun c => { c with cycle := 1024, tok := [(fifo 3 1, p), (fifo 0 3, a)] })).modMe (fun q =>
  { (q.setSys 0x282 (BitVec.ofNat 64 ((encode (.nop ⟨.twelve, 1, 2, 0, false, 0, 0, 0, 0, 0, 0⟩)).foldl (fun v b => 256 * v + b.toNat) 0 / 2 ^ 32))) with
    run := .running, wait := some ⟨1, 1, 0, 10⟩, xo := true })
theorem witness_CoreEvents_waits : ((ev1 0 0).seq 0 .ct).wait = some ⟨1, 1, 0, 10⟩ ∧ 2 ^ 10 ≤ (((ev1 0 0).core 0).cycle - 0).toNat ∧
    (1 : Nat) ≠ stallKind ∧ (ev1 0 0).idle = false ∧ (ev1 0 0).nextWord = some (0x000, ⟨.twelve, 1, 2, 0, false, 0, 0, 0, 0, 0, 0⟩) ∧ (ev1 0 0).stillWaits = some (0x01, 1) ∧
    (ev1 1 15).stillWaits = some (0x02, 2) ∧ (ev1 1 0).stillWaits.isNone = true ∧ waitingMeaning 0x000 = none := by decide +kernel
/-- A fetch through translation meets the range of a drain: bay 0 shrinks from 8 MiB to 2. -/
def moving0 : State := ((at0 .ct).modMyCore (fun c => { c with tlb := [⟨0, 2, 2 ^ 29 + 2 ^ 5, 15, 16⟩] })).setBay 0 { Bay.reset with drain := some ⟨2, 0, 9, []⟩ }
theorem witness_CoreEvents_fetch : moving0.fetchDrained 0 0x20000 = true ∧ moving0.drainHit (2 ^ 45 + 2 ^ 23 - 1) = true ∧ moving0.drainHit (2 ^ 45 + 2 ^ 23) = false := by decide +kernel
/-- A breakpoint on CT at address 0; and a page that no TLB entry of the core serves, good or a hole. -/
def broken0 : State := ((at0 .ct).modMyCore (fun c => { c with sys := [(0x288, 0), (0x289, 0x80080000)] })).modMe (fun q => { q with run := .running })
def walk0 (e : TlbEntry) : State := ((at0 .ct).setCore 0 { core0 with tlb := [] }).setBay 0 { Bay.reset with tlb := [e] }
theorem witness_CoreEvents_walks : broken0.idle = false ∧ broken0.breakpoint = some 0 ∧ (walk0 tlb0).xlate 0 0x40 = some ⟨2 ^ 44, 16, 15⟩ ∧ (walk0 tlb0).place (2 ^ 44 + 0x40) ≠ .bad ∧
    (walk0 { tlb0 with ppage := 2 ^ 28 + 2 ^ 11 }).xlate 0 0x40 = some ⟨2 ^ 44 + 2 ^ 27, 16, 15⟩ ∧ (walk0 tlb0).place (2 ^ 44 + 2 ^ 27 + 0x40) = .bad ∧
    ((walk0 tlb0).core 0).tlb.any (fun t => t.covers 0 0x40) = false ∧ (core0.windowed 0x40) = false ∧ (0x40 : Word).toNat < 2 ^ 55 ∧
    ({ lostTable0 with bad := [], weak := [0] } : State).tablesRead 0 [0x40] = [0] := by
  decide +kernel
/-- CT has a request of MFP or of MTP on its way to a core of its placement. -/
def remote0 (w : Bool) : State := (regs0 .ct [(2, 3)]).modMe (fun q => { q with run := .running, remote := some ⟨w, long 0 1 2 0 0x280, false⟩ })
theorem witness_CoreEvents_remote : ∀ w, ((remote0 w).seq 0 .ct).remote = some ⟨w, long 0 1 2 0 0x280, false⟩ ∧ ((remote0 w).sreg 2).toNat < 4096 ∧
    (remote0 w).reaches 0 (remoteNode (remote0 w) (long 0 1 2 0 0x280)) = true ∧ (remote0 w).sealed (remoteNode (remote0 w) (long 0 1 2 0 0x280)) = false ∧
    ((remote0 w).seq (remoteNode (remote0 w) (long 0 1 2 0 0x280)) (remoteSeq (remote0 w) (long 0 1 2 0 0x280))).run ≠ .running ∧ (0x280 : BitVec 24).toNat % 4096 ≠ 0x281 ∧
    (((remote0 w).modSeq 3 .ld (fun k => { k with run := .running })).seq (remoteNode (remote0 w) (long 0 1 2 0 0x280)) (remoteSeq (remote0 w) (long 0 1 2 0 0x280))).run = .running ∧
    (((remote0 w).modSeq 3 .ld (fun k => { k with run := .running })).core 3).freeze = none ∧
    (((remote0 w).modCore 0 (fun c => { c with freeze := some .nest })).core 0).freeze.isSome = true := by
  decide +kernel
/-- The fault queue of stack 0 has an entry waiting in core 0; tail at t. -/
def fqEntry0 : FqEntry := ⟨0x38, 3, false, false, false, 0, 0, 0, 0, 0, 0, 0⟩
def queued0 (t : Word) : State := (queue0 t).modMyCore (fun c => { c with fqWait := [fqEntry0] })
theorem witness_RegisterWriteEvents : ((at0 .ct).seq 0 .ct).run ≠ .running ∧ (flying0.modMe (fun q => { q with run := .running })).mySeq.run = .running ∧
    ({ core0 with lease := some 0 } : Core).lease.isSome = true ∧ (queue0 2).cores.all (fun p => p.2.fqWait.isEmpty) = true ∧
    ((queued0 3).stack 0).fqUsed + 1 = ((queued0 3).stack 0).fqSize ∧ ((queued0 2).stack 0).fqUsed + 1 ≠ ((queued0 2).stack 0).fqSize ∧
    (queued0 2).fqSlot 0 = some 0x10080 ∧ isDcc 0 = false ∧ ownEvent 0x060 = false ∧ ownEvent 0x7FF = false ∧ ownEvent 0x000 = false ∧ (regInfo 0x7FF).isNone = true ∧
    (regInfo 0x060).map (fun r => (regReadOnly r, r.home)) = some (false, .seq) ∧ (regInfo 0x000).map regReadOnly = some true := by decide +kernel

/-- Registers of every home that software writes: BUFBASE, a stream register, DEBUG of a confidential context, ERASEC; RNGBASE; FQLOST. -/
theorem witness_RegisterWriteEvents_homes : [0x209, 0x100, 0x298, 0x041].all (fun k => !ownEvent k && (match regInfo k with | some r => !regReadOnly r && r.home == .core | none => false)) = true ∧
    (((at0 .ct).modMyCore (fun c => { c with ctx := some { ctx0 with conf := true } })).core 0).confidential = true ∧ ((at0 .ct).core 0).confidential = false ∧
    isDcc (dccKey 0 0 0) = true ∧ ownEvent 0x2B4 = false ∧ (regInfo 0x2B4).map (fun r => (regReadOnly r, r.home)) = some (false, .stack) ∧ ((at0 .ct).seq 0 .ct).bufsel = 0 := by decide +kernel

/-- Die control core 0 of stack 0 moves; addresses below 2^42 are their own pages in GDDR-7. At 0x1000 lies a code object of one image with one META record, at 0x2000 the descriptor of a kernel of one core from it. -/
def dcc0 : Nat := dccKey 0 0 0
def launch0 (l : List (BitVec 5 × Word)) : State := l.foldl (fun s p => s.setReg p.1 p.2)
  (({ booted0 with cur := (dcc0, .ld),
                       mem := [(0, 0x1D), (0x1000, 0x44), (0x1001, 0x43), (0x1002, 0x4F), (0x1003, 0x31), (0x1004, 1), (0x1006, 1), (0x1008, 0x40), (0x1010, 0x88), (0x1050, 0x60),
                               (0x1058, 0x28), (0x1060, 1), (0x1078, 8), (0x2001, 0x10), (0x2008, 1), (0x200A, 0x21)] } : State).setCore dcc0 { Core.reset with ctx := some { ctx0 with placement := [] } })
/-- That kernel's entry. -/
def entry0 (kernel issued : Bool) : Entry := ⟨0, 0, kernel, [0x1000, 0, 0x210001] ++ List.replicate 13 0, 0, dcc0, 0, false, issued, false, none, [], 0⟩
def board0 (e : Entry) (l : List (BitVec 5 × Word)) : State := (launch0 l).setStack 0 { Stack.reset with board := [e] }
/-- A kernel of no waits whose entry has a predecessor's signal at 0x2000 to wait for: the word there is not zero. -/
def entryWaits0 (va : W32) : Entry := { entry0 true false with desc := [0x1000, 0, 0x210001, 0, 0, 0, va, 0, 0, 0, 0, 0, 0, 0, 0, 0] }

/-- An issued kernel whose completion signal lies at 0x3000. -/
def doneEntry0 : Entry := { entry0 true true with desc := List.replicate 12 0 ++ [0x3000, 0, 0, 0] }

theorem witness_LaunchResults_enter : (launch0 [(1, 0x2000)]).ready 0xD00 (long 0 2 1 0 0) = true ∧ (0x2000 : Word).toNat % 64 = 0 ∧
    (launch0 [(1, 0x2000)]).clear Want.load 8 (units 0x2000 8 8) = true ∧
    (launch0 []).kernelFault ((launch0 []).newEntry true ((units 0x2000 4 16).map (fun a => BitVec.ofNat 32 ((launch0 []).load dcc0 a 4)))) = none ∧
    (launch0 [(1, 0x3000)]).ready 0xD10 (long 0 2 1 0 0) = true ∧ (launch0 []).clear Want.load 8 (units 0x3000 8 4) = true ∧
    (launch0 []).streamEntryFault ((launch0 []).newEntry false ((units 0x3000 4 8).map (fun a => BitVec.ofNat 32 ((launch0 []).load dcc0 a 4)))) = none ∧
    ((launch0 []).stack 0).board.length < 256 ∧ 256 ≤ (((launch0 []).setStack 0 { Stack.reset with board := List.replicate 256 (entry0 true false) }).stack 0).board.length := by
  decide +kernel
theorem witness_LaunchResults_signals : (launch0 [(1, 0x2000)]).clear Want.load 8 [0x2000] = true ∧ [0xD20, 0xD21].all (fun c => (launch0 [(1, 0x2000)]).ready c (long 0 2 1 0 0)) = true ∧
    (launch0 [(1, 0x3000)]).ready 0xD22 (long 0 2 1 0 0) = true ∧ (BitVec.ofNat 64 ((launch0 []).load dcc0 0x3000 8)).toInt ≤ 0 ∧
    0 < (BitVec.ofNat 64 ((launch0 []).load dcc0 0x2000 8)).toInt ∧ (launch0 []).clear Want.load 8 [0x3000] = true := by decide +kernel
theorem witness_LaunchResults_entries : (launch0 []).ready 0xD30 (long 0 0 1 0 0) = true ∧ (launch0 []).boardOf 0 0 = none ∧
    (board0 (entry0 true false) []).boardOf 0 0 = some (0, entry0 true false) ∧ ((launch0 [(1, 0xE4)]).sreg 1).toNat < 256 ∧ (launch0 []).ready 0xD40 (long 0 0 1 0 0) = true ∧
    (∀ l < 4, (launch0 []).gatedDom (4 * 0 + 0xE4 / 4 ^ l % 4) 4 = false) ∧
    (∀ j < 4, ((launch0 []).stack (4 * 0 + j)).board.any (fun e => e.issued && !(launch0 []).finished (4 * 0 + j) e && ((launch0 []).moving 0 0xE4).contains e.lstk) = false) ∧
    (∀ k < 4, ((launch0 []).remapped 0 0xE4 k).length ≤ 256) := by decide +kernel
theorem witness_LaunchResults_issue : ((board0 (entry0 true false) []).stack 0).entry 0 = some (entry0 true false) ∧ ((launch0 []).pkg 0).runs = true ∧
    (board0 (entry0 true false) []).waitsFailed (entry0 true false) = false ∧ (board0 (entry0 true false) []).waitsMet (entry0 true false) = true ∧
    ((board0 (entry0 true false) []).stack 0).clear (entry0 true false) = true ∧
    (match (board0 (entry0 true false) []).placementFor 0 (entry0 true false) with | .ok (some l) => l == [0] | _ => false) = true ∧
    (board0 (entry0 true false) []).outranked 0 (entry0 true false) = false ∧
    (match (board0 (entry0 true false) []).readImage (entry0 true false) with | .ok rs => rs.length == 1 | _ => false) = true ∧
    (board0 (entry0 true false) []).flushPosted 0 = board0 (entry0 true false) [] ∧ (entry0 true false).sent = none ∧ (entry0 true false).issued = false ∧
    ((board0 (entry0 true false) []).stack 0).launched ≠ some ((board0 (entry0 true false) []).stack 0).clock ∧
    ((launch0 []).setStack 0 { Stack.reset with launched := some 0 } |>.stack 0).launched = some 0 ∧
    ((board0 (entry0 false false) []).stack 0).clear (entry0 false false) = true := by decide +kernel
theorem witness_LaunchResults_finish : (board0 (entryWaits0 0x2000) []).waitsMet (entryWaits0 0x2000) = false ∧ (board0 (entryWaits0 0x2000) []).waitsFailed (entryWaits0 0x2000) = false ∧
    ({ board0 (entryWaits0 0x3000) [] with mem := (board0 (entryWaits0 0x3000) []).mem ++ [(0x3007, 0x80)] } : State).waitsFailed (entryWaits0 0x3000) = true ∧
    { entry0 true false with promoted := true }.isPromoted 0 = true ∧ (entry0 true true).issued = true ∧ (entry0 true true).bits 0x08 10 0 = 1 ∧
    ((((board0 (entry0 true true) []).setCore 0 { Core.reset with ctx := some { ctx0 with placement := [0], entry := some (0, 0) } }).coresOf 0 0).length = 1) ∧
    ((((board0 (entry0 true true) []).setCore 0 { Core.reset with ctx := some { ctx0 with placement := [0], entry := some (0, 0) } }).coresOf 0 0).all
      (((board0 (entry0 true true) []).setCore 0 { Core.reset with ctx := some { ctx0 with placement := [0], entry := some (0, 0) } }).coreFinished) = true) ∧
    (entry0 false true).streaming = false ∧ (launch0 []).finished 0 (entry0 false true) = true ∧ (launch0 []).finished 0 (entry0 true true) = false ∧
    { entry0 true true with sent := some 0 }.sent = some 0 ∧ (launch0 []).delivered 0 0 = true ∧ isDcc dcc0 = true ∧
    ((launch0 []).pkg (pkgOf dcc0)).runs = true ∧ (launch0 []).functionSees (pkgOf dcc0) 0 ((dcc0 - dccBase) % 8) = true ∧
    (launch0 []).functionSees (pkgOf dcc0) 1 ((dcc0 - dccBase) % 8) = false ∧ doneEntry0.doneAt ≠ 0 ∧ (launch0 []).signal doneEntry0 doneEntry0.doneAt = some 0 ∧ ((launch0 []).core dcc0).seqs.ld.run = .halted := by decide +kernel

/-- The placement map of this entry lies at an address that no page maps. -/
def lostMap0 : Entry := { entry0 true false with desc := [0x1000, 0, 0x10210001] ++ List.replicate 12 0 ++ [0x800] }
theorem witness_LaunchResults_fails : (board0 lostMap0 []).waitsFailed lostMap0 = false ∧ (board0 lostMap0 []).waitsMet lostMap0 = true ∧
    ((board0 lostMap0 []).stack 0).clear lostMap0 = true ∧ (board0 lostMap0 []).outranked 0 lostMap0 = false ∧
    (match (board0 lostMap0 []).placementFor 0 lostMap0 with | .fault c va => c == 0x10 && va == 0x80000000000 | _ => false) = true := by decide +kernel
/-- An entry of one core in each of packages 0 and 1, its map at 0x4000. -/
def wide0 : Entry := { entry0 true false with desc := [0x1000, 0, 0x10210001, 0x100] ++ List.replicate 10 0 ++ [0x4000, 0] }
def wideBoard0 : State := { board0 wide0 [] with mem := (board0 wide0 []).mem ++ [(0x4005, 4)] }
theorem witness_LaunchResults_launches : wideBoard0.launchCores wide0 = some [0, 1024] ∧ (match wideBoard0.readImage wide0 with | .ok _ => true | _ => false) = true ∧
    1 < (pkgsOf [0, 1024]).length ∧ wideBoard0.doneDrains wide0 = false ∧ wide0.kernel = true ∧ wide0.issued = false ∧ wideBoard0.placed = [] ∧
    wideBoard0.placedLive ⟨0, 0, [], [0, 1024], [], [], [], [0]⟩ = true ∧ [0].contains 0 = true := by decide +kernel
/-- Such an entry whose map lies at an address that no page maps, or in a state in which its image has no good head. -/
def wideLost0 : Entry := { wide0 with desc := [0x1000, 0, 0x10210001, 0x100] ++ List.replicate 10 0 ++ [0, 0x800] }
theorem witness_LaunchResults_misses : wideLost0.spans = true ∧ wideLost0.issued = false ∧ wideBoard0.doneDrains wideLost0 = false ∧ wideBoard0.launchCores wideLost0 = none ∧
    wideBoard0.placed.all (fun p => !p.due.contains 0) = true ∧ (wideLost0.bits 0x08 51 40 + 1) * wideLost0.bits 0x08 10 0 = 2 ∧
    (match ({ wideBoard0 with mem := [(0, 0x1D), (0x4005, 4)] } : State).readImage wide0 with | .ok _ => false | _ => true) = true ∧
    (wideBoard0.missLaunch 0 wideLost0).missed = [⟨0, 2, none⟩] ∧ (⟨0, 2, none⟩ : Miss).fits [0, 1024] = true ∧ (⟨1, 2, some [0, 1024]⟩ : Miss).fits [0, 1024] = true ∧
    (⟨1, 2, some [1, 1024]⟩ : Miss).fits [0, 1024] = false ∧ pkgsOf [0, 1024] = [0, 1] ∧ wideBoard0.launchCount 0 [] [0, 1024] = wideBoard0.launchCount 1 [] [0, 1024] ∧
    (entry0 true false).spans = false ∧ wide0.spans = true ∧ wideBoard0.missed = [] := by decide +kernel
/-- The context of an entry stands in a save area. -/
def stored0 : State := { launch0 [] with saved := [{ bytes := [], core := { core0 with ctx := some { ctx0 with entry := some (0, 0) } }, rings := none }] }
theorem witness_LaunchResults_keys : (stored0.discardEntry 0 0).saved.any (fun x => match x.core.ctx with | some c => c.entry == some (0, 0) && c.key == 1 | none => false) = true := by
  decide +kernel

/-- The done signal of an entry lies in a scratchpad range that a drain moves. -/
def drained0 : State := { board0 { doneEntry0 with desc := List.replicate 12 0 ++ [0x400000, 0, 0, 0] } [] with mem := [(0, 0x1D), (5, 0x20)] }.setBay 0 { Bay.reset with drain := some ⟨2, 0, 9, []⟩ }
theorem witness_LaunchResults_drains : drained0.doneDrains { doneEntry0 with desc := List.replicate 12 0 ++ [0x400000, 0, 0, 0] } = true ∧ (launch0 []).doneDrains doneEntry0 = false ∧
    (launch0 []).doneDrains (entry0 true false) = false ∧ (board0 (entry0 true false) []).noteController (entry0 true false) 8 (entry0 true false).waits = board0 (entry0 true false) [] ∧
    ((board0 (entry0 true false) []).setStack 0 { Stack.reset with board := [{ entry0 true false with num := 1, promoted := true }] }).outranked 0 (entry0 true false) = true := by
  decide +kernel

theorem witness_PowerResults_permits : (regs0 .ct [(1, 255)]).ready 0xE00 (long 0 0 1 0 0) = true ∧ ((regs0 .ct [(1, 255)]).dropExplicit 0 .ct).permitFree 255 = true ∧
    ((regs0 .ct [(1, 256)]).sreg 1).toNat = 256 ∧ (at0 .ct).ready 0xE01 (long 0 0 0 0 0) = true ∧ (regs0 .ct [(1, 0x10004)]).ready 0xE10 (long 0 2 1 0 0) = true ∧
    0x10004 / 8 % 8192 = 0 ∧ 0 < 0x10004 / 65536 ∧ 0x10004 % 8 ≤ 4 ∧ ((at0 .ct).quad 0).boostMax ≤ 4 ∧
    1 < (((at0 .ct).setQuad 0 { Quad.reset with sys := [(0x303, 0x200)] }).quad (quadOf 0)).boostMax := by decide +kernel
theorem witness_PowerResults_opset : (launch0 [(1, 0x20), (2, 1)]).ready 0xE30 (long 0 1 2 0 0) = true ∧ targetKind 0x20 = 2 ∧ targetGroup 0x120 = 4 ∧ (launch0 []).foreign 0x20 = false ∧
    targetKind 3 = 0 ∧ targetGroup 3 = 0 ∧ opsetBad (2 ^ 32 + 100 * 65536) = false ∧ (launch0 []).foreign 3 = false ∧ (launch0 []).partOf dcc0 = none := by decide +kernel
/-- The domains of stack 0 that are gated, held and waiting to wake. -/
def gated0 (l : List Nat) (h : List Hold) (w : List Nat) : State := (launch0 [(1, 0x11)]).setStack 0 { Stack.reset with gated := l, holds := h, wakes := w }
theorem witness_PowerResults_gate : (gated0 [0, 1, 2, 3] [] []).ready 0xE40 (long 0 1 2 0 0) = true ∧ targetKind 0x10 = 1 ∧ (gated0 [2] [] []).foreign 0x10 = false ∧
    ((gated0 [2] [] []).stack 0).gated.contains 2 = true ∧ (gated0 [2] [] []).quadBusy (targetQuad (gated0 [2] [] []) 1) = false ∧
    ((gated0 [2] [] []).stack 0).gated.contains 1 = false ∧
    ((gated0 [0, 1, 2, 3] [] []).setPkg 0 { Pkg.reset with sys := [(0x402, 0x55)] }).stackBusy 0 = false := by decide +kernel
theorem witness_PowerResults_events : (((at0 .ct).setQuad 0 { Quad.reset with asks := [⟨0, .ct, .explicit, 512, none, false, 0⟩] }).quad 0).asks = ⟨0, .ct, .explicit, 512, none, false, 0⟩ :: [] ∧
    (Quad.reset.used + 512 ≤ Quad.reset.budget) ∧ (Quad.reset.budget < Quad.reset.used + 513) ∧
    (∀ h ∈ [Holder.explicit, .nest, .copy], (⟨0, .ld, h, 2, some 0, false, 0⟩ : Permit).over 0 = true) ∧ quadOf 0 = 0 ∧ ({ core0 with lease := some 0 } : Core).lease = some 0 ∧
    ((gated0 [] [⟨1, 0, true⟩] []).stack 0).holds.find? (fun h => h.dom == 1 && decide (h.ends ≤ ((gated0 [] [⟨1, 0, true⟩] []).stack 0).clock)) = some ⟨1, 0, true⟩ ∧
    ((gated0 [4] [] [4]).stack 0).wakes = 4 :: [] ∧ ((gated0 [4] [] [4]).stack 0).wakeAt ≤ ((gated0 [4] [] [4]).stack 0).clock ∧ (⟨1, 0, true⟩ : Hold).ask = true ∧
    (((gated0 [1] [⟨1, 9, true⟩] []).stack 0).holds.all (fun h => decide (((gated0 [1] [⟨1, 9, true⟩] []).stack 0).clock < h.ends)) = true) ∧
    ((gated0 [1] [⟨1, 9, true⟩] []).stack 0).wakes = [] ∧ ((gated0 [1] [⟨1, 0, true⟩] [4]).stack 0).wakes ≠ [] := by decide +kernel
/-- A request of this cycle, whose core's turn to arbitrate has come or has not; one of an earlier cycle. -/
theorem witness_PowerResults_settled : ({ Quad.reset with asks := [⟨0, .ct, .nest, 4, none, false, 0⟩], late := 1, turn := 1 } : Quad).settled ⟨0, .ct, .nest, 4, none, false, 0⟩ = true ∧
    ({ Quad.reset with asks := [⟨0, .ct, .nest, 4, none, false, 0⟩], late := 1, turn := 0 } : Quad).settled ⟨0, .ct, .nest, 4, none, false, 0⟩ = false ∧
    ({ Quad.reset with asks := [⟨0, .ct, .nest, 4, none, false, 0⟩] } : Quad).settled ⟨0, .ct, .nest, 4, none, false, 0⟩ = true := by decide +kernel
/-- An explicit permit and a nest's whose leases end at cycle 5 of a control clock that stands at c, and a boost lease that ends then. -/
def leased0 (h : Holder) (c : Nat) : State := (((at0 .ct).setQuad 0 { Quad.reset with grants := [⟨0, .ct, h, 2, some 5, false, 0⟩] }).modMyCore (fun k => { k with lease := some 5 })).setStack 0
  { Stack.reset with clock := c }
theorem witness_PowerResults_leases : (∀ h ∈ [Holder.explicit, .nest], ((leased0 h 5).quad (quadOf 0)).grants = [⟨0, .ct, h, 2, some 5, false, 0⟩] ∧
      (⟨0, .ct, h, 2, some 5, false, 0⟩ : Permit).over ((leased0 h 5).stack 0).clock = true ∧ (⟨0, .ct, h, 2, some 5, false, 0⟩ : Permit).over ((leased0 h 4).stack 0).clock = false) ∧
    (∀ j < 4, 4 * 0 + j ≠ quadOf 0 → ((leased0 .nest 5).quad (4 * 0 + j)).grants = []) ∧ stackOf 0 = 0 ∧ Tab.sorted (leased0 .nest 5).cores = true ∧
    ((leased0 .nest 4).core 0).lease = some 5 ∧ (leased0 .nest 4).cores.all (fun c => !c.2.leaseOver ((leased0 .nest 4).stack 0).clock) = true ∧
    ((leased0 .nest 5).core 0).leaseOver ((leased0 .nest 5).stack 0).clock = true ∧ (((leased0 .nest 5).leasesDue 0).core 0).lease = none ∧
    ((leased0 .nest 4).stack 0).holds = [] ∧ ((leased0 .nest 4).stack 0).wakes = [] := by decide +kernel
/-- R361, Table 17.4 in µs from 100: quadrants 0 and 3 are queued and the hold of quadrant 2 ends at 20; by 72 all three are up, and by 71 quadrant 2 is not. -/
def wakes0 (clock : Nat) : State := (launch0 []).setStack 0 { Stack.reset with gated := [2, 0, 3], holds := [⟨2, 20000, true⟩], wakes := [0, 3], wakeAt := 24000, clock := clock }
theorem test_table_17_4 : (((wakes0 72000).powerDue 0).stack 0).gated = [] ∧ (((wakes0 71000).powerDue 0).stack 0).gated = [2] := by decide +kernel

/-- Package 0 at STAGE k, its virtual function 1 with die control core 1 and a TDI in state t. -/
def staged0 (k : Word) (t : Nat) : State := State.reset.setPkg 0 { Pkg.reset with sys := [(0x2C0, k)], vfs := [(1, ⟨t, ⟨[1], [], 0, 0, 0, 0, []⟩⟩)] }
theorem witness_PackageEvents_host : booted0.place (0 % 4096 * 2 ^ 48 + 0x40 % 2 ^ 48) = .bytes ∧ booted0.drainHit 0x40 = false ∧ ((booted0.pkg 0).sysreg 0x2C0).toNat % 16 = 4 ∧
    ((State.reset.pkg 0).sysreg 0x2C0).toNat % 16 ≠ 4 ∧ State.reset.place 0x40 = .bytes ∧ moving0.drainHit (0 % 4096 * 2 ^ 48 + (2 ^ 45 + 2 ^ 22) % 2 ^ 48) = true ∧
    booted0.place (14 * 2 ^ 44 + 0x160000) = .device 0 0x160000 ∧ booted0.drainHit (14 * 2 ^ 44 + 0x160000) = false ∧ dccRange 0x160000 = some (1, 0x20000) ∧
    (staged0 4 2).functionSees 0 0 0 = true ∧ (staged0 4 2).functionSees 0 1 1 = true ∧ (staged0 4 2).functionSees 0 1 0 = false ∧
    ((staged0 4 2).vf 0 1).map (fun p => p.tdi) = some 2 ∧ ((staged0 4 0).vf 0 1).map (fun p => p.tdi) = some 0 ∧ (staged0 4 0).vf 0 2 = none := by decide +kernel
/-- A byte of a vault word that answers an uncorrectable error. -/
theorem witness_PackageEvents_spoilt : ({ booted0 with bad := [2 ^ 41] } : State).hostSpoilt (2 ^ 44) 1 (2 ^ 44) = true ∧ booted0.hostSpoilt 0x40 1 0x40 = false ∧
    ({ booted0 with bad := [2 ^ 41] } : State).place (2 ^ 44) = .bytes ∧ (1 : Nat) < 4 ∧ ((gated0 [1] [] [1]).stack 0).wakes = 1 :: [] := by decide +kernel
theorem witness_PackageEvents : ((booted0.pkg 0).sysreg 0x243).getLsbD 23 = true ∧ ((State.reset.setPkg 0 { Pkg.reset with sys := [(0x243, 0)] }).pkg 0).sysreg 0x243 = 0 ∧
    Tab.get ({ Pkg.reset with replays := [(3, 7)] } : Pkg).replays 3 0 = 7 ∧ (∀ k < 16, ((staged0 (BitVec.ofNat 64 k) 0).pkg 0).stage = k) ∧ paSpace (2 ^ 44) = 1 ∧ paSpace 0 = 0 ∧
    paPkg (2 ^ 48) ≠ 0 ∧ (booted0.pkg 0).fatal = none ∧ ((State.reset.setPkg 0 { Pkg.reset with fatal := some 1 }).pkg 0).fatal.isSome = true ∧
    (State.reset.setPkg 0 { Pkg.reset with sys := [(0x1001, 1)] }).dumpTarget 0 = none ∧ (List.replicate 32 (0 : Byte)).length = 32 ∧
    pkgOf 0 = 0 ∧ pkgOf 1024 ≠ 0 ∧ (booted0.pkg 0).runs = true ∧ ((State.reset.setPkg 0 { Pkg.reset with fatal := some 1 }).pkg 0).fatal ≠ none := by decide +kernel

/-- CT of core 0 runs at address 0 of its code store, which holds ADD s3, s3, s5 or other bytes. -/
def code0 (bs : List (Nat × Byte)) : State := ({ at0 .ct with mem := bs.map (fun p => (codeAddr 0 p.1, p.2)) } : State).modMe (fun q => { q with run := .running })
/-- That sequencer after a cycle. -/
def next0 (bs : List (Nat × Byte)) : State := (code0 bs).elapse 0 1 1
theorem witness_StepRunsDecodedInstruction : (code0 [(0, 0x04), (1, 0x65)]).turns = [] ∧ (next0 [(0, 0x04), (1, 0x65)]).idle = false ∧
    (match (next0 [(0, 0x04), (1, 0x65)]).before with | none => true | _ => false) = true ∧ (next0 [(0, 0x04), (1, 0x65)]).hintElapsed = true ∧ (next0 [(0, 0x04), (1, 0x65)]).mySeq.xo = false ∧
    Tab.has (next0 [(0, 0x04), (1, 0x65)]).myCore.icache 0 = false ∧ (next0 [(0, 0x04), (1, 0x65)]).fetchDrained 0 0 = false ∧
    (∀ k < 2, (next0 [(0, 0x04), (1, 0x65)]).fetchFault 0 (0 + BitVec.ofNat 64 k) = none) ∧ lengthOf ((next0 [(0, 0x04), (1, 0x65)]).fetchByte 0 0) = some 2 ∧
    decode ((List.range 2).map (fun k => (next0 [(0, 0x04), (1, 0x65)]).fetchByte 0 (0 + BitVec.ofNat 64 k))) = .instr (.add2b 3 5) 2 ∧
    (ran (.add2b 3 5) (next0 [(0, 0x04), (1, 0x65)])).map State.hasIssued = some true := by decide +kernel
/-- CT of core 0 runs at the last two bytes of a mapped page, before a page that is not mapped. -/
def straddle0 : State := { at0 .ct with mem := [(2 ^ 44 + 0xFFFE, 0xC1)] }.modMyCore (fun c => { c with tlb := [{ tlb0 with vpage := 2 }] }) |>.modMe (fun q => { q with run := .running, pc := 0x2FFFE })
theorem witness_StepRunsDecodedInstruction_arrived : (clst0 (some arrival0)).arrived = some arrival0 ∧ encodable arrival0.instr = true ∧ (next0 [(0, 0x04), (1, 0x65)]).arrived = none ∧
    (code0 []).arrived = none ∧ straddle0.arrived = none ∧ moving0.arrived = none := by decide +kernel
theorem witness_StepRunsDecodedInstruction_cached : Tab.get [(0, Cached.bytes [0x04, 0x65])] 0 (.bytes []) = .bytes [0x04, 0x65] ∧
    ((code0 []).modMe (fun q => { q with xo := true })).mySeq.xo = true ∧
    decode ((code0 []).modMe (fun q => q.setSys 0x282 0x0465000000000000)).mySeq.xoBytes = .instr (.add2b 3 5) 2 ∧
    ((next0 [(0, 0x04), (1, 0x65)]).modMe (fun q => { q with last := some 1 })).hintElapsed = false := by decide +kernel
/-- What the turn of core 0 finds: its CT alone can move. -/
theorem witness_StepRunsDecodedInstruction_turns : ({ code0 [] with turns := [⟨.run 0 15, 1, 1, true⟩] } : State).turns = ⟨.run 0 15, 1, 1, true⟩ :: [] ∧
    (next0 [(0, 0x04), (1, 0x65)]).turnOf 0 ≤ 0 ∧ 0 < ((next0 []).turnTaken 0).turnOf 0 ∧ SeqId.ct ∈ seqsOf 0 ∧
    ((next0 [(0, 0x04), (1, 0x65)]).as 0 .ct).hasIssued = false ∧ ((next0 [(0, 0x04), (1, 0x65)]).as 0 .ct).nextIsMark = false ∧ (15 : BitVec 4).getLsbD (seqNum .ct) = true ∧
    (match issueNext ((next0 [(0, 0x04), (1, 0x65)]).as 0 .ct) with | .next t => t.cur == (0, SeqId.ct) && t.hasIssued && (t.as 0 .ld).idle && (t.as 0 .cp).idle && (t.as 0 .st).idle | _ => false) = true ∧
    (∀ p ∈ seqsOf 0, p ≠ .ct → ((next0 [(0, 0x04), (1, 0x65)]).as 0 p).idle = true) := by decide +kernel
/-- No reel's moment comes before CP's instruction, and where one does. -/
theorem witness_StepRunsDecodedInstruction_reel : ((next0 []).turnTaken 0).abortDue 0 = false ∧ (match (broken0.elapse 0 1 1).before with | some _ => true | none => false) = true ∧
    (reel0 128 (some { start0 with abortPolicy := true }) true).abortDue 0 = true ∧ (reel0 128 (some start0) true).me = .cp ∧
    (0 : BitVec 4).getLsbD (seqNum .ct) = false := by decide +kernel
/-- CP promoted or not, CT not; CP's ROLE is below CT's. -/
def aged0 (n : Nat) : State := (next0 []).modSeq 0 .cp (fun q => { q with age := n })
theorem witness_StepRunsDecodedInstruction_ranks : (aged0 32).promoted 0 .cp = true ∧ (aged0 31).promoted 0 .cp = false ∧ (aged0 32).promoted 0 .ct = false ∧
    ((aged0 32).modSeq 0 .ct (fun q => { q with age := 33 })).promoted 0 .ct = true ∧
    ((aged0 32).modSeq 0 .ct (fun q => { q with age := 32 })).promoted 0 .ct = true ∧ (aged0 0).role 0 .cp < ((aged0 0).modSeq 0 .ct (fun q => q.setSys 0x001 2)).role 0 .ct ∧
    ((aged0 0).modSeq 0 .ct (fun q => q.setSys 0x001 1)).role 0 .ct = (aged0 0).role 0 .cp ∧ seqNum .cp < seqNum .ct := by decide +kernel
theorem witness_FetchFaultsAreTaken : ((({ code0 [] with bad := [codeAddr 0 0 / 8] } : State).elapse 0 1 1).fetchFault 0 0 = some 0x0B) ∧
    lengthOf ((next0 [(0, 0xF8)]).fetchByte 0 0) = none ∧ (next0 [(0, 0xF8)]).fetchFault 0 0 = none ∧ (next0 [(0, 0xF8)]).fetchDrained 0 0 = false ∧
    lengthOf ((next0 [(0, 0xDF), (1, 0xE0)]).fetchByte 0 0) = some 6 ∧ moving0.fetchDrained 0 0x20000 = true ∧
    decode ((List.range 6).map (fun k => (next0 [(0, 0xDF), (1, 0xE0)]).fetchByte 0 (0 + BitVec.ofNat 64 k))) = .undefinedOpcode 6 := by decide +kernel
theorem witness_FetchFaultsAreTaken_straddle : straddle0.fetchFault 0 0x2FFFE = none ∧ straddle0.fetchFault 0 0x2FFFF = none ∧ lengthOf (straddle0.fetchByte 0 0x2FFFE) = some 6 ∧
    straddle0.fetchFault 0 (0x2FFFE + BitVec.ofNat 64 2) = some 0x08 ∧ pageOf 0x30000 ≠ pageOf 0x2FFFE ∧ straddle0.fetchDrained 0 0x2FFFE = false ∧
    ({ code0 [(0, 0xC1)] with bad := [codeAddr 0 0 / 8 + 1] } : State).fetchFault 0 8 = some 0x0B ∧ pageOf 8 = pageOf 4 := by decide +kernel
theorem witness_EncodedInstructionsDecode : encodable (.vadd ⟨.eight, 1, 4, 0, true, 2, 2, 7, 0x803, 0x40C, 0⟩) = true ∧ encodable (.mov2b 31 31) = true ∧
    encodable (.vfma4b 0xFF 0xFF 0xFF) = true ∧ encodable (.vfma ⟨.twelve, 0, 0, 5, false, 0, 1, 0xA, 1, 2, 3⟩) = true ∧ encodable (.addi (six 0 31 31 0xC00000)) = true ∧ encodable (.addi (six 0 31 31 0x400000)) = false := by decide +kernel
theorem witness_StepsKeepMemoryCanonical : Memory.wf (code0 [(0, 0x04), (1, 0x65)]).mem = true ∧ (match step (code0 [(0, 0x04), (1, 0x65)]) with | .next _ => true | _ => false) = true := by
  decide +kernel
theorem witness_ResetValues : isDcc 0 = false := by decide +kernel

/-! ## Save areas: witnesses -/

/-- The first half gibibyte of addresses is core 0's vault. -/
def blk0 : TlbEntry := { tag := 0, vpage := 0, ppage := 2 ^ 15, perm := 15, level := 29 }

theorem access_vault (s : State) (n : Nat) (want : Want) (va : Word) (hd : isDcc n = true) (hp : pkgOf n = 0) (ht : (s.core n).tlb = [blk0]) (hc : (s.core n).ctxTag = 0)
    (hw : (s.core n).windowed va = false) (hg : s.gatedDom 0 4 = false) (hf : s.freed = []) (hb : s.bad = []) (hk : s.weak = [])
    (hx : want.x = false) (h1 : va.toNat < 2 ^ 20) (h8 : va.toNat % 8 = 0) : s.accessFault n want va 8 = none ∧ ∃ x, s.xlate n va = some x ∧ s.drainHit (x.addr va) = false := by
  have hx0 : s.xlate n va = some { base := 2 ^ 15 * 2 ^ 29, shift := 29, perm := 15 } := by
    have e2 : blk0.covers 0 va = true := by
      simp [TlbEntry.covers, blk0]; omega
    simp [State.xlate, State.cached, hw, ht, hd, hc, e2]
    simp [blk0]; omega
  have ea : Xlat.addr { base := 2 ^ 15 * 2 ^ 29, shift := 29, perm := 15 } va = 2 ^ 44 + va.toNat := by
    simp [Xlat.addr]; omega
  have hpl : s.place (2 ^ 44 + va.toNat) = .bytes := by
    have : paSpace (2 ^ 44 + va.toNat) = 1 := by unfold paSpace; omega
    have h2 : paPkg (2 ^ 44 + va.toNat) = 0 := by unfold paPkg; omega
    have h3 : (2 ^ 44 + va.toNat) % 2 ^ 44 = va.toNat := by omega
    have h4 : va.toNat / 2 ^ 40 % 4 = 0 := by omega
    have h5 : va.toNat / 2 ^ 42 = 0 := by omega
    have h6 : va.toNat % 2 ^ 32 < 2 ^ 27 := by omega
    unfold State.place
    rw [this]
    simp only [h2, h3, h4, h5, h6, hg]
    rfl
  constructor
  · unfold State.accessFault
    rw [hx0]
    simp only [ea, hpl]
    have h2 : paPkg (2 ^ 44 + va.toNat) = 0 := by unfold paPkg; omega
    generalize 2 ^ 44 + va.toNat = pa at *
    simp [h8, h2, hp, hx, Xlat.r, Xlat.w, Xlat.x, Xlat.grid, State.placeDenied, State.isFreed, State.lateFault, State.unreachable, State.isBad, hf, hb, hk]
  · refine ⟨_, hx0, ?_⟩
    rw [ea]
    have hk : paSpace (2 ^ 44 + va.toNat) = 1 := by unfold paSpace; omega
    generalize 2 ^ 44 + va.toNat = pa at *
    simp [State.drainHit, hk]

/-- What judge_vault asks of a state: a die control core of package 0 sees only the vault, no kernel made its context, and memory has no gated, freed or failing word. -/
def vaultOnly (s : State) (n : Nat) : Bool :=
  isDcc n && decide (pkgOf n = 0) && decide ((s.core n).tlb = [blk0]) && decide ((s.core n).ctxTag = 0) && (s.core n).ctx.all (fun x => x.entry.isNone) &&
    !s.gatedDom 0 4 && s.freed.isEmpty && s.bad.isEmpty && s.weak.isEmpty

theorem judge_vault (s : State) (n : Nat) (want : Want) (offs : List Nat) (h : (vaultOnly s n && !want.x) = true) (ho : ∀ o ∈ offs, o < 2 ^ 20 ∧ o % 8 = 0) :
    s.judge n (areaAccs want 0 offs) = .allowed := by
  simp only [vaultOnly, Bool.and_eq_true, decide_eq_true_eq, Bool.not_eq_true', List.isEmpty_iff] at h
  obtain ⟨⟨⟨⟨⟨⟨⟨⟨⟨hd, hp⟩, ht⟩, hc⟩, hw⟩, hg⟩, hf⟩, hb⟩, hk⟩, hx⟩ := h
  have key : ∀ a ∈ areaAccs want 0 offs, s.accessFault n a.want a.va a.size = none ∧ ∃ x, s.xlate n a.va = some x ∧ s.drainHit (x.addr a.va) = false := by
    intro a hm
    simp only [areaAccs, accs, List.map_map, List.mem_map] at hm
    obtain ⟨o, hm, rfl⟩ := hm
    have h := ho o hm
    have hv : (0 + BitVec.ofNat 64 o : Word).toNat = o := by simp; omega
    have hn : (s.core n).windowed (0 + BitVec.ofNat 64 o) = false := by
      cases hx : (s.core n).ctx with
      | none => simp [Core.windowed, hx]
      | some x => simp_all [Core.windowed]
    exact access_vault s n want (0 + BitVec.ofNat 64 o) hd hp ht hc hn hg hf hb hk hx (by omega) (by omega)
  have h2 : (areaAccs want 0 offs).filterMap (fun a => (s.accessFault n a.want a.va a.size).map (fun x => (x.2, s.faultAddr n a.va (s.accessFault n a.want a.va a.size)))) = [] := by
    rw [List.filterMap_eq_nil_iff]
    intro a hm
    simp [(key a hm).1]
  unfold State.judge
  simp only [h2]
  rw [List.filter_eq_nil_iff.mpr (fun a hm => by obtain ⟨-, x, e, f⟩ := key a hm; simp [e, f])]
  simp

theorem wordOffsets_low {b n o : Nat} (h : o ∈ wordOffsets b n) (hb : b % 8 = 0) (hn : b + 8 * n ≤ 2 ^ 20) : o < 2 ^ 20 ∧ o % 8 = 0 := by
  simp only [wordOffsets, List.mem_map, List.mem_range] at h
  obtain ⟨k, hk, rfl⟩ := h
  omega

/-- Every word of a list of words by offset lies in the first mebibyte, at a multiple of 8. -/
def Low (l : List (Nat × Word)) : Prop := ∀ o ∈ l.map (fun p => p.1), o < 2 ^ 20 ∧ o % 8 = 0

theorem low_append {a b : List (Nat × Word)} (ha : Low a) (hb : Low b) : Low (a ++ b) := by
  intro o h
  rw [List.map_append, List.mem_append] at h
  exact h.elim (ha o) (hb o)

theorem low_run {b k : Nat} {v : Nat → Word} (h : b % 8 = 0 ∧ b + 8 * k ≤ 2 ^ 20) : Low ((List.range k).map (fun i => (b + 8 * i, v i))) := by
  intro o ho
  exact wordOffsets_low (b := b) (n := k) (by simpa [wordOffsets, Function.comp_def] using ho) h.1 h.2

theorem low_win {b k : Nat} {v : Nat → Word} (h : b % 8 = 0 ∧ b + 8 * k ≤ 2 ^ 20) : Low ((wordOffsets 0 k).map (fun o => (b + o, v o))) := by
  have e : (wordOffsets 0 k).map (fun o => (b + o, v o)) = (List.range k).map (fun i => (b + 8 * i, v (8 * i))) := by simp [wordOffsets, Function.comp_def]
  rw [e]
  exact low_run h

theorem low_flatMap {α : Type} {l : List α} {g : α → List (Nat × Word)} (h : ∀ x ∈ l, Low (g x)) : Low (l.flatMap g) := by
  intro o ho
  simp only [List.mem_map, List.mem_flatMap] at ho
  obtain ⟨p, ⟨x, hx, hp⟩, rfl⟩ := ho
  exact h x hx _ (List.mem_map_of_mem hp)

theorem low_header (n : Nat) (c : Core) (code : Bool) : Low (headerWords n c code) := by
  refine low_append (fun o h => ?_) (fun o h => wordOffsets_low (b := 0x58) (n := 21) (by simpa using h) (by omega) (by omega))
  simp at h; omega

theorem low_seqRegs (q : SeqId) (v : Nat → Word) : Low (seqRegPlaces.map (fun p => (0x500 + 0x300 * seqNum q + p.2, v p.1))) := by
  intro o ho
  simp only [List.map_map, List.mem_map, Function.comp_apply] at ho
  obtain ⟨p, hp, rfl⟩ := ho
  have hr : ∀ p ∈ seqRegPlaces, p.2 < 0x300 ∧ p.2 % 8 = 0 := by decide +kernel
  have := hr p hp
  cases q <;> simp only [seqNum] <;> omega

theorem low_area {s : State} {n : Nat} (hs : (s.core n).snap = []) (hn : (s.core n).neg = []) (hp : (s.core n).placement.length ≤ 4) : Low (s.areaWords n false) := by
  have hm : scopeStride (s.core n).placement.length ≤ 64 ∧ scopeStride (s.core n).placement.length % 8 = 0 := by unfold scopeStride; omega
  unfold State.areaWords
  simp only [hs, hn]
  generalize scopeStride (s.core n).placement.length = m at hm
  repeat' (with_reducible apply low_append)
  all_goals first
    | with_reducible exact low_header _ _ _
    | with_reducible refine low_run ?_; omega
    | with_reducible refine low_win ?_; omega
    | skip
  · exact low_flatMap (fun q _ => low_run (by cases q <;> simp [seqNum]))
  · exact low_flatMap (fun q _ => low_seqRegs q _)
  · simp [Low]
  · refine low_flatMap (fun b _ => low_win ?_)
    split <;> omega
  · simp [Low, wordOffsets]
  · refine low_flatMap (fun e he => low_win ?_)
    have hb : m * e ≤ 64 * 25 := Nat.mul_le_mul hm.1 (by simpa [Nat.lt_succ_iff] using he)
    have h8 : (m * e) % 8 = 0 := by rw [Nat.mul_mod, hm.2]; simp
    omega
  · simp [Low]

theorem openOffsets_low : ∀ o ∈ openOffsets, o < 2 ^ 20 ∧ o % 8 = 0 := by
  intro o h
  simp only [openOffsets, List.mem_append, List.mem_flatMap, List.mem_range] at h
  rcases h with h | ⟨e, he, h⟩
  · exact wordOffsets_low h (by omega) (by omega)
  · exact wordOffsets_low h (by omega) (by omega)

theorem low_open (fresh : Nat) : Low (openWords fresh) := by
  intro o h
  simp only [openWords, List.map_map, List.mem_map, Function.comp] at h
  obtain ⟨p, hp, rfl⟩ := h
  exact openOffsets_low _ (List.fst_mem_of_mem_zipIdx hp)

theorem restoreOffsets_low {w : Nat → Nat} (h0 : w 0x08 = 0) (hp : w 0x20 = 0) (hn : w (0x3000 + 8 * 0x040) = 0) {o : Nat} (h : o ∈ restoreOffsets w) : o < 2 ^ 20 ∧ o % 8 = 0 := by
  have h2 : 2 * areaNtop w = 0 := by simp [areaNtop, hn]
  simp only [restoreOffsets, h0, hp, h2, List.mem_append] at h
  rcases h with ((h | h) | h) | h
  · exact wordOffsets_low h (by omega) (by omega)
  · exact wordOffsets_low h (by omega) (by omega)
  · exact wordOffsets_low h (by omega) (by simp [scopeStride])
  · simp at h

/-- Die control core 0 of stack 0 moves, with the first half gibibyte of its addresses in core 0's vault; core 0 holds a context or none. -/
def save0 (m : List Host.Cell) (c : Core) : State :=
  (({ booted0 with cur := (dccKey 0 0 0, .ld), mem := m } : State).setCore 0 c).setCore (dccKey 0 0 0)
    { Core.reset with ctx := some { ctx0 with placement := [] }, tlb := [blk0] }
def saved0 : State := ((save0 [] core0).stopCore 0 true).modCore 0 (fun c => { c with seqs :=
        { ld := { c.seqs.ld with pc := c.seqs.ld.resumePc }, cp := { c.seqs.cp with pc := c.seqs.cp.resumePc },
          st := { c.seqs.st with pc := c.seqs.st.resumePc }, ct := { c.seqs.ct with pc := c.seqs.ct.resumePc } } })
/-- The conditions of a save at once that a computation decides; and of a notice. -/
theorem witness_SaveAndRestoreResults_ready : ((save0 [] core0).ready 0xC60 (long 0 1 2 0 0) = true ∧ ((save0 [] core0).core 0).ctx.isSome = true ∧
      (save0 [] core0).phaseUnderWay 0 = false ∧ (0 : BitVec 24).getLsbD 0 = false ∧ 256 * stackOf (dccKey 0 0 0) + 0 = 0 ∧ ((save0 [] core0).core 0).confidential = false) ∧
    ((saved0.core 0).snap = [] ∧ (saved0.core 0).neg = [] ∧ (saved0.core 0).placement.length ≤ 4 ∧ (vaultOnly saved0 saved0.node && !Want.store.x) = true) ∧
    (save0 [] core0).ready 0xC60 (long 0 1 2 0 1) = true ∧ (1 : BitVec 24).getLsbD 0 = true ∧ core0.freeze = none ∧ core0.paused = none ∧ core0.notice = none ∧ dccKey 0 0 0 ≠ 0 ∧
    { core0 with freeze := some .nest }.freeze.isSome = true ∧ { core0 with paused := some 0 }.paused.isSome = true ∧ { core0 with notice := some ⟨0, false⟩ }.graceOver = true := by
  decide +kernel
theorem witness_SaveAndRestoreResults_reel : core0.reelRuns = false ∧ { core0 with reel := some start0 }.reelRuns = true ∧ { core0 with reel := some { start0 with susp := true } }.reelRuns = false ∧
    (save0 [] { core0 with reel := some start0 }).ready 0xC60 (long 0 1 2 0 0) = true ∧ (save0 [] { core0 with reel := some start0 }).phaseUnderWay 0 = false := by decide +kernel
theorem witness_SaveAndRestoreResults_csave :
    saved0.judge saved0.node (areaAccs Want.store 0 ((saved0.areaWords 0 false ++ openWords saved0.fresh).map (fun p => p.1))) = .allowed ∧
    ∀ vas, (save0 [] core0).openPage 0 vas = none := by
  obtain ⟨hr, ⟨hs, hn, hp, hv⟩, -⟩ := witness_SaveAndRestoreResults_ready
  exact ⟨judge_vault _ _ _ _ hv (low_append (low_area hs hn hp) (low_open _)), fun vas => by simp [State.openPage, hr.2.2.2.2.2]⟩
/-- An area of version 1 and otherwise zero, and an empty core. -/
def area0 : State := save0 [(2 ^ 44, 1)] Core.reset
def areaOff0 (off : Nat) : Nat := (area0.areaWord 0 off).toNat
theorem witness_SaveAndRestoreResults_crest : (area0.ready 0xC61 (long 0 1 2 0 0) = true ∧ (area0.core 0).ctx = none ∧ areaOff0 0x08 / 8 % 2 ≠ 1 ∧ headerBad areaOff0 = false ∧ area0.gatedCore 0 = false) ∧
    area0.judge (dccKey 0 0 0) (areaAccs Want.load 0 (restoreOffsets areaOff0)) = .allowed := by
  have h : (area0.ready 0xC61 (long 0 1 2 0 0) = true ∧ (area0.core 0).ctx = none ∧ areaOff0 0x08 / 8 % 2 ≠ 1 ∧ headerBad areaOff0 = false ∧ area0.gatedCore 0 = false) ∧
      (vaultOnly area0 (dccKey 0 0 0) && !Want.load.x) = true ∧ areaOff0 0x08 = 0 ∧ areaOff0 0x20 = 0 ∧ areaOff0 (0x3000 + 8 * 0x040) = 0 := by decide +kernel
  exact ⟨h.1, judge_vault _ _ _ _ h.2.1 (fun o => restoreOffsets_low h.2.2.1 h.2.2.2.1 h.2.2.2.2)⟩

/-- Some memory holds these words, whose offsets lie from lo on and below hi. -/
def Holdable (lo hi : Nat) (l : List (Nat × Word)) : Prop := (∃ w : Nat → Nat, ∀ p ∈ l, w p.1 = p.2.toNat) ∧ ∀ p ∈ l, lo ≤ p.1 ∧ p.1 < hi

theorem hold_append {a b c d : Nat} {l m : List (Nat × Word)} (hl : Holdable a b l) (hm : Holdable c d m) (h : b ≤ c) (ha : a ≤ c) (hd : b ≤ d) : Holdable a d (l ++ m) := by
  obtain ⟨⟨v, hv⟩, hl⟩ := hl
  obtain ⟨⟨w, hw⟩, hm⟩ := hm
  refine ⟨⟨fun o => if o < b then v o else w o, fun p hp => ?_⟩, fun p hp => ?_⟩
  · rcases List.mem_append.1 hp with hp | hp
    · simp [(hl p hp).2, hv p hp]
    · simp [show ¬ p.1 < b from fun x => by have := hm p hp; omega, hw p hp]
  · rcases List.mem_append.1 hp with hp | hp
    · have := hl p hp; omega
    · have := hm p hp; omega

theorem hold_nil {a b : Nat} : Holdable a b [] := ⟨⟨fun _ => 0, by simp⟩, by simp⟩

theorem hold_run {b k hi : Nat} {v : Nat → Word} (h : b + 8 * k ≤ hi) : Holdable b hi ((List.range k).map (fun i => (b + 8 * i, v i))) := by
  refine ⟨⟨fun o => (v ((o - b) / 8)).toNat, fun p hp => ?_⟩, fun p hp => ?_⟩ <;>
    · obtain ⟨i, hi, rfl⟩ := List.mem_map.1 hp
      have := List.mem_range.1 hi
      first
        | exact congrArg (fun j => (v j).toNat) (by omega : (b + 8 * i - b) / 8 = i)
        | (simp only; omega)

theorem hold_win {b k hi : Nat} {v : Nat → Word} (h : b + 8 * k ≤ hi) : Holdable b hi ((wordOffsets 0 k).map (fun o => (b + o, v o))) := by
  have e : (wordOffsets 0 k).map (fun o => (b + o, v o)) = (List.range k).map (fun i => (b + 8 * i, v (8 * i))) := by simp [wordOffsets, Function.comp_def]
  rw [e]
  exact hold_run h

theorem hold_list {lo hi : Nat} {l : List (Nat × Word)} (h : (l.map (fun p => p.1)).Pairwise (· < ·)) (hb : ∀ p ∈ l, lo ≤ p.1 ∧ p.1 < hi) : Holdable lo hi l := by
  refine ⟨?_, hb⟩
  clear hb
  induction l with
  | nil => exact ⟨fun _ => 0, by simp⟩
  | cons x r ih =>
    rw [List.map_cons, List.pairwise_cons] at h
    obtain ⟨w, hw⟩ := ih h.2
    refine ⟨fun o => if o = x.1 then x.2.toNat else w o, fun p hp => ?_⟩
    rcases List.mem_cons.1 hp with rfl | hp
    · simp
    · have := h.1 p.1 (List.mem_map_of_mem hp)
      simp [show p.1 ≠ x.1 by omega, hw p hp]

theorem hold_seqRegs (b : Nat) (v : Nat → Word) : Holdable b (b + 0x300) (seqRegPlaces.map (fun p => (b + p.2, v p.1))) := by
  refine hold_list ?_ ?_
  · have h : (seqRegPlaces.map (fun p => p.2)).Pairwise (· < ·) := by decide +kernel
    rw [List.map_map, show (fun p => p.1) ∘ (fun p : Nat × Nat => (b + p.2, v p.1)) = (fun k => b + k) ∘ (fun p => p.2) from rfl, ← List.map_map]
    exact h.map _ (fun _ _ h => Nat.add_lt_add_left h b)
  · have h : ∀ p ∈ seqRegPlaces, p.2 < 0x300 := by decide +kernel
    intro p hp
    obtain ⟨x, hx, rfl⟩ := List.mem_map.1 hp
    have := h x hx
    exact ⟨Nat.le_add_right _ _, Nat.add_lt_add_left this b⟩

theorem hold_header (n : Nat) (c : Core) (code : Bool) : Holdable 0 0x100 (headerWords n c code) := by
  refine hold_append (b := 0x58) (c := 0x58) (hold_list ?_ ?_) (hold_run (v := fun _ => 0) (k := 21) (by omega)) (by omega) (by omega) (by omega)
  · simp
  · simp

/-- The area of a core with no context, no snapshot and no plane: no two of its words share an offset. -/
theorem hold_area {s : State} {n : Nat} (hs : (s.core n).snap = []) (hn : (s.core n).neg = []) (hp : (s.core n).placement = []) : Holdable 0 0x4E000 (s.areaWords n false) := by
  unfold State.areaWords
  simp only [hs, hn, hp, show scopeStride ([] : List Nat).length = 0 from rfl, show wordOffsets 0 (0 / 8) = [] from rfl,
    show wordOffsets 0 (2 * ([] : List Plane).length) = [] from rfl, List.zipIdx_nil, List.flatMap_nil, List.map_nil, List.append_nil, reduceIte, Bool.false_eq_true,
    show (List.range 26).flatMap (fun _ => ([] : List (Nat × Word))) = [] from rfl, allSeqs, List.flatMap_cons, seqNum, ← List.append_assoc]
  refine hold_append (b := 0x3E000) (c := 0x3E000) ?_ (hold_win (by decide)) (by decide) (by decide) (by decide)
  refine hold_append (b := 0x2E000) (c := 0x2E000) ?_ (hold_win (by decide)) (by decide) (by decide) (by decide)
  refine hold_append (b := 0x1E000) (c := 0x1E000) ?_ (hold_win (by decide)) (by decide) (by decide) (by decide)
  refine hold_append (b := 0x18000) (c := 0x18000) ?_ (hold_win (by decide)) (by decide) (by decide) (by decide)
  refine hold_append (b := 0x12000) (c := 0x12000) ?_ (hold_win (by decide)) (by decide) (by decide) (by decide)
  refine hold_append (b := 0x5000) (c := 0xE000) ?_ (hold_win (by decide)) (by decide) (by decide) (by decide)
  refine hold_append (b := 0x14F0) (c := 0x3000) ?_ (hold_run (by decide)) (by decide) (by decide) (by decide)
  refine hold_append (b := 0x1480) (c := 0x1480) ?_ (hold_run (by decide)) (by decide) (by decide) (by decide)
  refine hold_append (b := 0x1280) (c := 0x1280) ?_ (hold_run (by decide)) (by decide) (by decide) (by decide)
  refine hold_append (b := 0x1160) (c := 0x1200) ?_ (hold_run (by decide)) (by decide) (by decide) (by decide)
  refine hold_append (b := 0x1120) (c := 0x1140) ?_ (hold_run (by decide)) (by decide) (by decide) (by decide)
  refine hold_append (b := 0x1100) (c := 0x1100) ?_ (hold_run (by decide)) (by decide) (by decide) (by decide)
  refine hold_append (b := 0xE00) (c := 0xE00) ?_ (hold_seqRegs _ _) (by decide) (by decide) (by decide)
  refine hold_append (b := 0xB00) (c := 0xB00) ?_ (hold_seqRegs _ _) (by decide) (by decide) (by decide)
  refine hold_append (b := 0x800) (c := 0x800) ?_ (hold_seqRegs _ _) (by decide) (by decide) (by decide)
  refine hold_append (b := 0x500) (c := 0x500) ?_ (hold_seqRegs _ _) (by decide) (by decide) (by decide)
  refine hold_append (b := 0x400) (c := 0x400) ?_ (hold_run (by decide)) (by decide) (by decide) (by decide)
  refine hold_append (b := 0x300) (c := 0x300) ?_ (hold_run (by decide)) (by decide) (by decide) (by decide)
  refine hold_append (b := 0x200) (c := 0x200) ?_ (hold_run (by decide)) (by decide) (by decide) (by decide)
  exact hold_append (hold_header _ _ _) (hold_run (by decide)) (by decide) (by decide) (by decide)
/-- Some area holds the words of a save. -/
theorem witness_SaveAndRestoreResults_area : ∃ w : Nat → Nat, ∀ p ∈ State.reset.areaWords 0 false, w p.1 = p.2.toNat := (hold_area rfl rfl rfl).1

/-! ## Single steps: results that the spec's tables and worked runs give -/

/-- LUI of R75's worked constant. -/
theorem test_lui : regAfter (.lui (long 0 1 0 0 0xABCDEF)) (regs0 .ct [(1, 0x123456789)]) 1 = some 0x123456789ABCDEF := by
  decide +kernel
/-- Table 4.3: division by zero, and of the most negative number by −1. -/
theorem test_div : regAfter (.div (long 0 3 1 2 0)) (regs0 .ct [(1, 7), (2, 0)]) 3 = some 0xFFFFFFFFFFFFFFFF ∧
    regAfter (.div (long 0 3 1 2 0)) (regs0 .ct [(1, 0x8000000000000000), (2, 0xFFFFFFFFFFFFFFFF)]) 3 = some 0x8000000000000000 := by decide +kernel
theorem test_rem : regAfter (.rem (long 0 3 1 2 0)) (regs0 .ct [(1, 0xFFFFFFFFFFFFFFF9), (2, 2)]) 3 = some 0xFFFFFFFFFFFFFFFF ∧
    regAfter (.rem (long 0 3 1 2 0)) (regs0 .ct [(1, 0x8000000000000000), (2, 0xFFFFFFFFFFFFFFFF)]) 3 = some 0 := by decide +kernel
/-- R74: 64 for zero, and the bits of a byte reversed into the top. -/
theorem test_clz : regAfter (.clz (long 0 3 1 0 0)) (regs0 .ct [(1, 0)]) 3 = some 64 ∧ regAfter (.clz (long 0 3 1 0 0)) (regs0 .ct [(1, 1)]) 3 = some 63 := by decide +kernel
theorem test_ctz : regAfter (.ctz (long 0 3 1 0 0)) (regs0 .ct [(1, 0)]) 3 = some 64 ∧ regAfter (.ctz (long 0 3 1 0 0)) (regs0 .ct [(1, 8)]) 3 = some 3 := by decide +kernel
theorem test_brev : regAfter (.brev (long 0 3 1 0 0)) (regs0 .ct [(1, 3)]) 3 = some 0xC000000000000000 := by decide +kernel
/-- R73: the high halves of −1 × −1, signed and unsigned. -/
theorem test_mulh : regAfter (.mulh (long 0 3 1 1 0)) (regs0 .ct [(1, 0xFFFFFFFFFFFFFFFF)]) 3 = some 0 ∧
    regAfter (.mulhn (long 0 3 1 1 0)) (regs0 .ct [(1, 0xFFFFFFFFFFFFFFFF)]) 3 = some 0xFFFFFFFFFFFFFFFE := by decide +kernel
/-- The branch of chapter 4 whose offset is −6 halfwords goes 12 bytes back. -/
theorem test_brc : pcAfter (.brcLt (six 0 1 2 0xFFFFFA)) ((regs0 .ct [(1, 1), (2, 2)]).modMe (fun q => { q with pc := 0x100 })) = some 0xF4 ∧
    pcAfter (.brcLt (six 0 1 2 0xFFFFFA)) ((regs0 .ct [(1, 2), (2, 2)]).modMe (fun q => { q with pc := 0x100 })) = some 0x106 := by decide +kernel
/-- Table 4.11: the last pass of LOOP falls through with s2 = 0. -/
theorem test_loop : regAfter (.loop (six 0 2 0 0xFFFFF8)) (regs0 .ct [(2, 1)]) 2 = some 0 ∧ pcAfter (.loop (six 0 2 0 0xFFFFF8)) (regs0 .ct [(2, 1)]) = some 6 := by decide +kernel
/-- R78: CALLR of s31 reads its target before it writes the return address. -/
theorem test_callr : pcAfter (.callr (six 0 0 31 0)) (regs0 .ct [(31, 0x40)]) = some 0x40 ∧ regAfter (.callr (six 0 0 31 0)) (regs0 .ct [(31, 0x40)]) 31 = some 6 := by decide +kernel
/-- R84: LDS.i8 sign-extends; STS.i16 writes two bytes, the low one first. -/
theorem test_lds : regAfter (.lds (long 0 3 1 0 1)) { at0 .ct with mem := [(2 ^ 44 + 1, 0xFE)] } 3 = some 0xFFFFFFFFFFFFFFFE ∧
    regAfter (.lds (long 4 3 1 0 1)) { at0 .ct with mem := [(2 ^ 44 + 1, 0xFE)] } 3 = some 0xFE := by decide +kernel
theorem test_sts : (ran (.sts (long 1 3 1 0 2)) (regs0 .ct [(3, 0x12345678)])).map (fun t => t.mem) = some [(2 ^ 44 + 2, 0x78), (2 ^ 44 + 3, 0x56)] := by decide +kernel

/-- The cells of rows from lane 0 on, and VLEN lanes active. -/
def rows0 (vlen : Word) (l : List (Nat × W32)) : State := ((at0 .cp).modMyCore (fun c => { c with cells := l })).modMe (fun q => q.setSys 0x002 vlen)
/-- Cells after an instruction. -/
def cellsAfter (i : Instr) (s : State) (ks : List Nat) : Option (List W32) := (ran i s).map (fun t => ks.map (fun k => t.myCore.cell k))
/-- A system register after an instruction. -/
def sysAfter (i : Instr) (s : State) (n : Nat) : Option Word := (ran i s).map (fun t => t.readReg t.node t.me n)

/-- Table 5.5: c1, and its inverse c3, on the pairs (5, 2) and (−3, 9) of i16. -/
theorem test_vmaxk : cellsAfter (.vmaxk (long 1 0 1 0 0)) (rows0 2 [(0, 5), (1, 0xFFFD), (128, 2), (129, 9)]) [0, 1, 128, 129] = some [5, 9, 2, 0xFFFD] ∧
    (ran (.vmaxk (long 1 0 1 0 0)) (rows0 2 [(0, 5), (1, 0xFFFD), (128, 2), (129, 9)])).map (fun t => t.myCore.neg) = some [2] := by decide +kernel
theorem test_vuncx : cellsAfter (.vuncx (long 1 0 1 0 0)) ((rows0 2 [(0, 5), (1, 9), (128, 2), (129, 0xFFFD)]).modMyCore (fun c => { c with neg := [2] })) [0, 1, 128, 129] =
      some [5, 0xFFFD, 2, 9] ∧
    sysAfter (.vuncx (long 1 0 1 0 0)) ((rows0 1 [(0, 5), (1, 9), (128, 2), (129, 0xFFFD)]).modMyCore (fun c => { c with neg := [2] })) 0x041 = some 1 := by decide +kernel
/-- Chapter 5: NDROP 1 is charged the popcount of the dropped plane 0b10. -/
theorem test_ndrop : sysAfter (.ndrop (long 0 0 0 0 1)) ((rows0 2 []).modMyCore (fun c => { c with neg := [2] })) 0x041 = some 1 ∧
    sysAfter (.ndrop (long 0 0 0 0 1)) ((rows0 2 []).modMyCore (fun c => { c with neg := [2] })) 0x040 = some 0 := by decide +kernel
/-- R106: VADD under XOR into a zero row is not charged; under overwrite it is charged the old ones. -/
theorem test_vadd : cellsAfter (.vadd (long 2 2 0 1 0)) (rows0 1 [(0, 0xFFFFFFFF), (128, 2)]) [256] = some [1] ∧
    sysAfter (.vadd { long 2 2 0 1 0 with e := true }) (rows0 1 [(0, 0xFFFFFFFF), (128, 2), (256, 7)]) 0x041 = some 3 := by decide +kernel
/-- Table 6.9: the round trip, step by step. -/
theorem test_vscl : cellsAfter (.vscl (long 4 1 0 0 0)) (rows0 4 [(0, 0x40600000), (1, 0xC4610000), (2, 0x3C23D70A), (3, 0x42C80000)]) [128, 131] = some [0x4000924A, 0x4000924A] ∧
    sysAfter (.vscl (long 4 1 0 0 0)) (rows0 4 [(0, 0x40600000), (1, 0xC4610000), (2, 0x3C23D70A), (3, 0x42C80000)]) 0x061 = some 1 := by decide +kernel
theorem test_vqnt : decode [0xF2, 0x88, 0x00, 0x40, 0x40, 0x02, 0x00, 0x00, 0x01, 0x00, 0x00, 0x00] = .instr (.vqnt ⟨.twelve, 0, 0, 8, false, 0, 4, 2, 0, 1, 0⟩) 12 ∧
    cellsAfter (.vqnt (long 4 2 0 1 0)) (rows0 4 [(0, 0x40600000), (1, 0xC4610000), (2, 0x3C23D70A), (3, 0x42C80000), (128, 0x4000924A), (129, 0x4000924A), (130, 0x4000924A),
      (131, 0x4000924A)]) [256, 257, 258, 259] = some [0x3E, 0xFE, 0x03, 0x64] ∧
    sysAfter (.vqnt (long 4 2 0 1 0)) (rows0 4 [(0, 0x40600000), (1, 0xC4610000), (2, 0x3C23D70A), (3, 0x42C80000), (128, 0x4000924A), (129, 0x4000924A), (130, 0x4000924A),
      (131, 0x4000924A)]) 0x061 = some 3 := by decide +kernel
theorem test_vdqnt : cellsAfter (.vdqnt (long 0 3 2 1 0xC)) (rows0 4 [(128, 0x4000924A), (129, 0x4000924A), (130, 0x4000924A), (131, 0x4000924A), (256, 0x3E), (257, 0xFE), (258, 0x03),
      (259, 0x64)]) [384, 385, 386, 387] = some [0x40610002, 0xC4610002, 0x3C40DB6F, 0x42C0DB6F] := by decide +kernel
/-- R140, by hand: 2^-126 - 2^-151 rounds up to the smallest normal and is not tiny (NX alone); 2^-126 - 2^-150 is tiny, and the subnormal grid delivers the smallest normal (UF and NX). -/
theorem test_tiny : Fmt.f32.round FpEnv.rne (.num false (2 ^ 25 - 1) (-151) false) = ⟨0x00800000, flNX⟩ ∧
    Fmt.f32.round FpEnv.rne (.num false (2 ^ 24 - 1) (-150) false) = ⟨0x00800000, flUF ||| flNX⟩ := by decide +kernel
/-- Table 7.7: the reduction tree of five lanes, and under RTZ. -/
def tree0 (rm : Word) : State := (rows0 5 [(0, 0x3F800000), (1, 0x33800000), (2, 0x33800000), (3, 0x33800000), (4, 0x33800000)]).modMe (fun q => q.setSys 0x060 rm)
theorem test_vfred : cellsAfter (.vfredAdd (long 0 5 0 0 0)) (tree0 0) [640, 641] = some [0x3F800002, 0] ∧ sysAfter (.vfredAdd (long 0 5 0 0 0)) (tree0 0) 0x061 = some 1 ∧
    cellsAfter (.vfredAdd (long 0 5 0 0 0)) (tree0 1) [640] = some [0x3F800001] ∧ cellsAfter (.vfredAdd (long 0 0 0 0 0)) (tree0 0) [0] = some [2] ∧
    sysAfter (.vfredAdd (long 0 0 0 0 0)) (tree0 0) 0x041 = some 7 := by decide +kernel
/-- Table 8.6: a pass of K = 4 over two columns, from the row buffer and weight bank 0, then its drain to BF16. -/
def pass0 (acc : List (Nat × W32)) : State := (((rows0 2 []).modMyCore (fun c =>
  { c with mx := { c.mx with acc := acc, elems := [(0, 0x38), (1, 0x7E), (2, 0x01), (3, 0xB0)], scales := [(0, 0x3F800000)], tile := [(0, 0x3F000000)],
                             bank := [(0, 0x38), (1, 0x7E), (128, 0x38), (129, 0xB8), (256, 0x01), (257, 0x01), (384, 0x38)] } })).modMe (fun q => (q.setSys 0x004 2).setSys 0x005 4)).setReg 1 0x3F800000
theorem test_mma : (ran (.mma (long 0 0 0 0 0)) (pass0 [])).map (fun t => [t.myCore.accCell 0 0 0, t.myCore.accCell 0 0 1, t.myCore.accCell 0 0 2]) = some [0x43604000, 0x36000000, 0] ∧
    (ran (.mma (long 0 0 0 0 0)) (pass0 [(0, 0x43604000), (1, 0x36000000)])).map (fun t => [t.myCore.accCell 0 0 0, t.myCore.accCell 0 0 1]) = some [0x43E04000, 0x36800000] := by
  decide +kernel
theorem test_adrn : cellsAfter (.adrn (long 1 2 0 0x301 0)) (pass0 [(0, 0x43E04000), (1, 0x36800000)]) [256, 257] = some [0x43E0, 0x3680] ∧
    sysAfter (.adrn (long 1 2 0 0x301 0)) (pass0 [(0, 0x43E04000), (1, 0x36800000)]) 0x061 = some 1 := by decide +kernel
/-- Table 12.5: two levels of two dimensions over features at address 0. -/
def gridRun0 : State :=
  let s := (at0 .ld).modMe (fun q => q.setSys 0x002 1)
  let s := s.modMyCore (fun c => { c with cells := [(0, 0x3EA00000), (128, 0x3F300000)], grids := putWords [] 0 [0, 0, 0x08000202, 1, 0x400, 0, 0x00140004] })
  let w (s : State) (a : Nat) (v : Word) : State := s.physWrite none (2 ^ 44 + a) 4 v
  w (w (w (w (w (w (w (w s 44 0x3F800000) 48 0x40000000) 64 0x40400000) 68 0x40800000) 1408 0xC1000000) 1412 0x41000000) 1712 0x3F000000) 1716 0x3F000000
theorem test_hgl : cellsAfter (.hgl (long 0 8 0 0 0)) gridRun0 [1024, 1152, 1025] = some [0x40300000, 0x3FB00000, 0] := by decide +kernel
/-- Table 14.3: ranks 0 to 3 of both lanes combine. -/
theorem test_clst : clstLane 0 32 [0x3F800000, 0x33800000, 0x33800000, 0x33800000] = ⟨0x3F800000, 1⟩ ∧
    clstLane 0 32 [0x33800000, 0x33800000, 0x33800000, 0x3F800000] = ⟨0x3F800002, 1⟩ := by decide +kernel
/-- R119, R120, chapter 20: c11 of maxkeep on four lanes of i16, whose plane is 0b0011. -/
theorem test_maxkeep : (ran (.vmaxk (long 1 0 1 0 0)) (rows0 4 [(0, 5), (1, 0x8000), (2, 7), (3, 10), (128, 9), (129, 0xFFFF), (130, 7), (131, 0xFFF6)])).map
    (fun t => (t.myCore.neg, t.myCore.cell 1, t.myCore.cell 131)) = some ([3], 0xFFFF, 0xFFF6) := by decide +kernel
/-- R93, Table 21.1: TOKS of 5 to LD reserves them, and places them a cycle later. -/
theorem test_toks : (ran (.toks (six 0 0 0 0x51)) (at0 .cp)).map (fun t => (t.myCore.tokens (fifo 1 0), t.myCore.reserved (fifo 1 0),
    ((t.elapse 0 1 0).core 0).tokens (fifo 1 0))) = some (0, 5, 5) := by decide +kernel
/-- R312, Table 20.2: TRAP is delegated: UCAUSE shows INH, UEPC the address behind it, PC the handler. -/
theorem test_trap : sysAfter (.trap (six 0 0 0 7)) (deleg0 false) 0x00F = some 0x10038 ∧ sysAfter (.trap (six 0 0 0 7)) (deleg0 false) 0x00E = some 6 ∧
    pcAfter (.trap (six 0 0 0 7)) (deleg0 false) = some 0x200 ∧ sysAfter (.trap (six 0 0 0 7)) (deleg0 false) 0x010 = some 7 := by decide +kernel
/-- R313: ERET outside a handler is cause 0x01, which is not delegated here and stops CT. -/
theorem test_eret : (ran (.eret (six 0 0 0 1)) (deleg0 false)).map (fun t => t.mySeq.run) = some .stopped ∧ pcAfter (.eret (six 0 0 0 1)) (deleg0 true) = some 0 := by decide +kernel
/-- R285: ATOM.ADD returns the old word and adds in place; CAS compares first. -/
theorem test_atom : regAfter (.atomAdd (six 2 2 1 0x105)) { regs0 .ct [(2, 3)] with mem := [(2 ^ 44, 0xFF)] } 5 = some 0xFF ∧
    (ran (.atomAdd (six 2 2 1 0x105)) { regs0 .ct [(2, 3)] with mem := [(2 ^ 44, 0xFF)] }).map (fun t => t.mem) = some [(2 ^ 44, 2), (2 ^ 44 + 1, 1)] := by decide +kernel
/-- R282: RFADD adds to the flag of another core of the placement. -/
theorem test_rfadd : (ran (.rfadd (six 0 3 2 0x1F)) (regs0 .ct [(2, 1), (3, 4)])).map (fun t => (t.core 1).flag 31) = some 4 := by decide +kernel
/-- R278: RNGCLAIM answers the address of the slot at TAIL. -/
theorem test_rngclaim : regAfter (.rngclaim (six 0 1 0 0)) (rings0 (ring0 3 [] []) 0) 1 = some 0x10C0 := by decide +kernel
/-- R338: KRUN answers the handle, and the entry stands on the scoreboard. -/
theorem test_krun : regAfter (.krun (six 0 3 2 0)) (launch0 [(2, 0x2000)]) 3 = some 0 ∧
    (ran (.krun (six 0 3 2 0)) (launch0 [(2, 0x2000)])).map (fun t => (t.stack 0).board.map (fun e => e.bits 0x08 10 0)) = some [1] := by decide +kernel
/-- R351: PERMIT shows its weight in PHOLD. -/
theorem test_permit : sysAfter (.permit (six 0 0 3 0)) (regs0 .ct [(3, 5)]) 0x305 = some 0x105 := by decide +kernel
/-- Table 1.2's worked case: core 3 of bay 13, quadrant 1, stack 2, package 75 is 0x12E77, and its identity registers say so. -/
theorem test_identity : State.reset.readReg 0x12E77 .cp 0x011 = 3 ∧ State.reset.readReg 0x12E77 .cp 0x012 = 13 ∧ State.reset.readReg 0x12E77 .cp 0x013 = 1 ∧
    State.reset.readReg 0x12E77 .cp 0x014 = 2 ∧ State.reset.readReg 0x12E77 .cp 0x015 = 75 := by decide +kernel
/-- A step fetches and runs the instruction at PC. -/
theorem test_step : (match step (regs0 .ct [(3, 7), (5, 5)] |>.modMe (fun q => { q with run := .running }) |>.withFetchWord 16 0x0465) with
    | .next t => t.mySeq.reg 3 == 12 && t.mySeq.pc == 2 | _ => false) = true := by decide +kernel

end Sys2Proof.Tests
end
end

section
/-! SUPPORT. More laws of the state: tables under a filter of their keys, what stands above the core, the bytes that a range loses, and fault queues in which nothing waits. -/

namespace Sys2Proof.Machine

/-! ### Tables -/

/-- A filter of the keys hides those it drops. -/
theorem Tab.get_filter_keys {α : Type} (t : Tab α) (g : Nat → Bool) (k : Nat) (d : α) :
    Tab.get (t.filter (fun p => g p.1)) k d = if g k then Tab.get t k d else d := by
  induction t with
  | nil => simp [Tab.get]
  | cons p r ih =>
    obtain ⟨k', v'⟩ := p
    rw [List.filter_cons]
    by_cases hk : k' = k
    · subst hk
      by_cases hg : g k' <;> simp_all [Tab.get]
    · by_cases hg : g k' <;> simp [hg, Tab.get, hk, ih]

/-- What a key reads as is listed, or the default. -/
theorem Tab.get_mem {α : Type} (t : Tab α) (k : Nat) (d : α) : (k, Tab.get t k d) ∈ t ∨ Tab.get t k d = d := by
  induction t with
  | nil => exact .inr rfl
  | cons p r ih =>
    obtain ⟨k', v'⟩ := p
    by_cases hk : k' = k
    · subst hk; simp [Tab.get]
    · rw [show Tab.get ((k', v') :: r) k d = Tab.get r k d from if_neg hk]
      exact ih.imp_left (List.mem_cons_of_mem _)

theorem Tab.has_put_same {α : Type} (t : Tab α) (k : Nat) (v : α) : Tab.has (Tab.put t k v) k = true := by
  induction t with
  | nil => simp [Tab.put, Tab.has]
  | cons p r ih =>
    obtain ⟨k', v'⟩ := p
    simp only [Tab.put]
    split
    · simp [Tab.has]
    · split
      · simp [Tab.has]
      · simp only [Tab.has, List.any_cons, Bool.or_eq_true] at ih ⊢
        exact .inr ih

/-! ### Bays and packages -/

@[simp] theorem State.bay_setBay_same (s : State) (k : Nat) (b : Bay) : (s.setBay k b).bay k = b := Tab.get_put_same _ _ _ _

theorem State.bay_setBay_other (s : State) (k j : Nat) (b : Bay) (h : j ≠ k) : (s.setBay k b).bay j = s.bay j :=
  Tab.get_put_other _ _ _ _ _ h

@[simp] theorem State.pkg_setPkg_same (s : State) (k : Nat) (p : Pkg) : (s.setPkg k p).pkg k = p := Tab.get_put_same _ _ _ _

theorem State.pkg_setPkg_other (s : State) (k j : Nat) (p : Pkg) (h : j ≠ k) : (s.setPkg k p).pkg j = s.pkg j :=
  Tab.get_put_other _ _ _ _ _ h

@[simp] theorem Pkg.sysreg_setSys_same (p : Pkg) (k : Nat) (v : Word) : (p.setSys k v).sysreg k = v := Tab.get_put_same _ _ _ _

theorem Pkg.sysreg_setSys_other (p : Pkg) (k j : Nat) (v : Word) (h : j ≠ k) : (p.setSys k v).sysreg j = p.sysreg j :=
  Tab.get_put_other _ _ _ _ _ h

/-! ### The current sequencer -/

theorem State.mySeq_modMe (s : State) (g : Seq → Seq) : (s.modMe g).mySeq = g s.mySeq := State.seq_modSeq_same _ _ _ _

/-- Where no wait is under way, one of that kind begins, and nothing else of the sequencer changes. -/
theorem State.waitFor_begins (s : State) (kind : Nat) (id : Word) (h : s.mySeq.wait = none) :
    ∃ w : Wait, w.kind = kind ∧ (s.waitFor kind id).mySeq = { s.mySeq with wait := some w } := by
  simp only [State.waitFor, h]
  exact ⟨_, rfl, State.mySeq_modMe _ _⟩

/-! ### Bytes that a range loses -/

/-- The bytes of a range read as zero once they are taken out, and no other byte changes. -/
theorem State.get_zeroRange (s : State) (lo hi a : Nat) :
    Memory.get (s.zeroRange lo hi).mem a = if lo ≤ a ∧ a < hi then 0 else Memory.get s.mem a := by
  refine (Tab.get_filter_keys s.mem (fun x => !(decide (lo ≤ x) && decide (x < hi))) a 0).trans ?_
  by_cases h : lo ≤ a ∧ a < hi
  · simp [h]
  · rw [if_neg h, if_pos (by simp; omega)]; rfl

/-! ### Fault queues (R315) -/

/-- Where no entry waits in a core, none is written. -/
theorem State.flushStack_quiet (s : State) (stack : Nat) (h : ∀ p ∈ s.cores, p.2.fqWait = []) : s.flushStack stack = s := by
  unfold State.flushStack
  refine List.foldlRecOn (motive := fun t => t = s) _ _ rfl (fun t ht p hp => ?_)
  simp [h p hp, ht]

theorem State.flushFaults_quiet (s : State) (pkg : Nat) (h : ∀ p ∈ s.cores, p.2.fqWait = []) : s.flushFaults pkg = s :=
  List.foldl_fixed' (fun k => s.flushStack_quiet (4 * pkg + k) h) _

end Sys2Proof.Machine
end

section
/-! PROOFS. PHASE and its drain, VAULTF and SMARK (R18, R233, R234, R244). -/

namespace Sys2Proof.Machine

/-! ### PHASE -/

section
variable {f : Fields} {s v : State} {b : Bay} (h : s.ready 0x890 f = true) (hv : s.view 0x890 f = v)
include h hv

/-- A PHASE whose bay has the size already does nothing. -/
theorem phase_keeps (hh : v.holdsBay v.node = true) (hb : v.bay (bayOf v.node) = b) (hd : b.drain = none) (he : f.x.toNat % 16 = b.mib) :
    Does (.phase f) 0x890 f s { st := v } := by
  refine issued_does rfl h ?_
  simp [hv, hh, hb, hd, he, done]

/-- A PHASE of another size starts the drain of its bay. -/
theorem phase_starts (hh : v.holdsBay v.node = true) (hb : v.bay (bayOf v.node) = b) (hd : b.drain = none) (hne : f.x.toNat % 16 ≠ b.mib) (d : Drain)
    (hsize : d.size = f.x.toNat % 16) (hnode : d.node = v.node) (hpush : d.pushes = pushList f.push)
    (hends : d.ends = v.myCore.cycle + BitVec.ofNat 64 (4096 + 1024 * (max (f.x.toNat % 16) b.mib - min (f.x.toNat % 16) b.mib))) :
    Does (.phase f) 0x890 f s { st := v.setBay (bayOf v.node) { b with drain := some d }, engine := true } := by
  refine issued_does rfl h ?_
  obtain ⟨size, node, ends, pushes⟩ := d
  subst hsize hnode hpush hends
  simp [hv, hh, hb, hd, hne]

/-- A PHASE of a core that does not hold its bay is cause 0x04. -/
theorem phase_faults (hh : v.holdsBay v.node = false) : exec (.phase f) s = .next (s.takeFault 0x04 0) :=
  issued_trap h (by simp [hv, hh])

/-- A PHASE during a drain of its bay stalls. -/
theorem phase_stalls (hh : v.holdsBay v.node = true) (hd : (v.bay (bayOf v.node)).drain.isSome = true) : exec (.phase f) s = .next v.endWait :=
  (issued_eq h).trans (by simp [hv, hh, hd, State.settleEff])

end

/-! ### The end of a drain -/

/-- The state in which drain d of bay k has ended, before entries that waited for it are written. -/
def State.endDrain (s : State) (k : Nat) (d : Drain) : State :=
  (s.resizeBay k d.size).modCore d.node (fun c => c.place .ct d.pushes)

theorem phaseDrainEnd_early {s : State} {k : Nat} {d : Drain} (hd : (s.bay k).drain = some d) (hr : reached (s.core d.node).cycle d.ends = false) :
    exec (.phaseDrainEnd k) s = .next s := by
  show execPhaseDrainEnd k s = _
  simp [execPhaseDrainEnd, hd, hr]

theorem phaseDrainEnd_ends {s : State} {k : Nat} {d : Drain} (hd : (s.bay k).drain = some d) (hr : reached (s.core d.node).cycle d.ends = true) :
    exec (.phaseDrainEnd k) s = .next ((s.endDrain k d).flushFaults (k / 256)) := by
  show execPhaseDrainEnd k s = _
  simp [execPhaseDrainEnd, hd, hr, State.endDrain]

theorem State.endDrain_core (s : State) (k : Nat) (d : Drain) : (s.endDrain k d).core d.node = (s.core d.node).place .ct d.pushes :=
  State.core_modCore_same _ _ _

/-- A drain's end leaves no entry waiting that did not wait before. -/
theorem State.endDrain_quiet (s : State) (k : Nat) (d : Drain) (h : ∀ p ∈ s.cores, p.2.fqWait = []) :
    ∀ p ∈ (s.endDrain k d).cores, p.2.fqWait = [] := by
  intro p hp
  have placed : ((s.core d.node).place .ct d.pushes).fqWait = (s.core d.node).fqWait := by rw [Core.place_only]
  rcases Tab.mem_put _ _ _ _ hp with rfl | hp
  · refine placed.trans ?_
    rcases Tab.get_mem s.cores d.node Core.reset with hm | hm
    · exact h _ hm
    · unfold State.core; rw [hm]; rfl
  · exact h p hp

/-- The bytes given up or gained read as zero after a drain's end, and no other byte changes (R233). -/
theorem State.get_endDrain (s : State) (k : Nat) (d : Drain) (a : Nat) :
    Memory.get (s.endDrain k d).mem a =
      if spadAddr k (min (s.bay k).mib d.size * 2 ^ 20) ≤ a ∧ a < spadAddr k (max (s.bay k).mib d.size * 2 ^ 20) then 0
      else Memory.get s.mem a :=
  s.get_zeroRange _ _ a

/-! ### VAULTF -/

section
variable {f : Fields} {s v t : State} {rows : List Nat} (h : s.ready 0x8A0 f = true) (hv : s.view 0x8A0 f = v) (ht : v.drainQueue v.node v.me = t)
  (ha : (v.sreg f.a).toNat % 65536 = 0) (hb : (v.sreg f.b).toNat % 65536 = 0) (hab : (v.sreg f.a).toNat + (v.sreg f.b).toNat ≤ 2 ^ 27)
  (hrows : rows = (List.range ((v.sreg f.b).toNat / 65536)).map (fun i => vaultAddr v.node (v.sreg f.a).toNat / 65536 + i))
include h hv ht ha hb hab hrows

/-- VAULTF takes rows out of use. -/
theorem vaultf_frees (hx : f.x.getLsbD 0 = false) (u : State)
    (hu : u = t.zeroRange (vaultAddr v.node (v.sreg f.a).toNat) (vaultAddr v.node (v.sreg f.a).toNat + (v.sreg f.b).toNat)) :
    Does (.vaultf f) 0x8A0 f s { st := { u with freed := u.freed ++ rows.filter (fun r => !u.freed.contains r) } } := by
  refine issued_does rfl h ?_
  simp only [hv, ht, ha, hb, hx, ne_eq, not_true_eq_false, if_neg (Nat.not_lt.2 hab), Bool.false_eq_true, if_false, ← hrows, ← hu, done]

/-- VAULTF takes freed rows back into use, as zeros. -/
theorem vaultf_returns (hx : f.x.getLsbD 0 = true) (u : State) (back : List Nat) (hback : back = rows.filter (fun r => t.freed.contains r))
    (hu : u = back.foldl (fun t r => t.zeroRange (65536 * r) (65536 * (r + 1))) t) :
    Does (.vaultf f) 0x8A0 f s { st := { u with freed := u.freed.filter (fun r => !back.contains r),
                                                bad := u.bad.filter (fun w => !back.contains (w / 8192)),
                                                weak := u.weak.filter (fun w => !back.contains (w / 8192)) } } := by
  refine issued_does rfl h ?_
  simp only [hv, ht, ha, hb, hx, ne_eq, not_true_eq_false, if_neg (Nat.not_lt.2 hab), if_false, if_true, ← hrows, ← hback, ← hu, done]

end

/-! ### SMARK -/

section
variable {f : Fields} {s v t : State} {others : List SeqId} (h : s.ready 0x880 f = true) (hv : s.view 0x880 f = v)
  (ht : v.drainQueue v.node v.me = t) (ho : others = (markSeqs f).filter (fun q => q != v.me)) (hb : v.busy = false)
include h hv ht ho hb

/-- The last SMARK of its set to arrive issues the set. -/
theorem smark_issues (hall : others.all (fun q => (t.seq t.node q).marked f.x) = true) :
    exec (.smark f) s = .next (t.issueMarks ((v.me, f) :: others.map (fun q => (q, (t.seq t.node q).mark.getD f)))) := by
  have none_late : others.filter (fun q => !(t.seq t.node q).marked f.x) = [] :=
    List.filter_eq_nil_iff.2 (fun q hq => by simp [List.all_eq_true.1 hall q hq])
  refine issued_whole h ?_
  simp only [hv, ht, hb, ← ho, none_late, Bool.not_false, List.isEmpty_nil, Bool.and_self, if_true]

/-- An SMARK that is early marks its sequencer as arrived, and waits (kind 0x0B). -/
theorem smark_marks (hall : others.all (fun q => (t.seq t.node q).marked f.x) = false) :
    ∃ id, exec (.smark f) s = .next ((t.modMe (fun q => { q with mark := some f })).waitFor 0x0B id) := by
  have late : (others.filter (fun q => !(t.seq t.node q).marked f.x)).isEmpty = false := by
    obtain ⟨q, hq, hm⟩ := List.all_eq_false.1 hall
    exact Bool.eq_false_iff.2 (fun he => List.filter_eq_nil_iff.1 (List.isEmpty_iff.1 he) q hq (by simpa using hm))
  rw [show exec (.smark f) s = _ from issued_eq h]
  simp only [hv, ht, hb, ← ho, late, Bool.not_false, Bool.and_false, Bool.false_eq_true, if_false, if_true, State.settleEff]
  exact ⟨_, rfl⟩

/-- The sequencer of an early SMARK, where no wait was under way. -/
theorem smark_waits (hall : others.all (fun q => (t.seq t.node q).marked f.x) = false) (hw : t.mySeq.wait = none) :
    ∃ u w, exec (.smark f) s = .next u ∧ u.mySeq.mark = some f ∧ u.mySeq.wait = some w ∧ w.kind = 0x0B := by
  obtain ⟨id, hs⟩ := smark_marks h hv ht ho hb hall
  obtain ⟨w, hk, hseq⟩ := State.waitFor_begins (t.modMe (fun q => { q with mark := some f })) 0x0B id (by rw [State.mySeq_modMe]; exact hw)
  refine ⟨_, w, hs, ?_, ?_, hk⟩
  · rw [hseq, State.mySeq_modMe]
  · rw [hseq]

end

/-- Settles O40: PHASE by its four outcomes, the end of its drain by what the resized bay and PHASE's pushes leave alone, VAULTF by its two directions, and SMARK by whether every other of its set is marked. -/
theorem phaseVaultfAndSmarkResults : Obligations.PhaseVaultfAndSmarkResults := by
  unfold Obligations.PhaseVaultfAndSmarkResults
  refine ⟨?_, ?_, ?_, ?_, ?_, ?_⟩
  · intro f s v b h hv hb hh hd
    exact ⟨phase_keeps h hv hh hb hd, fun d hne => phase_starts h hv hh hb hd hne d⟩
  · exact fun f s v h hv => ⟨phase_faults h hv, phase_stalls h hv⟩
  · exact fun k s d => phaseDrainEnd_early
  · intro k s d hd hr
    refine ⟨s.endDrain k d, phaseDrainEnd_ends hd hr, fun hq => State.flushFaults_quiet _ _ (s.endDrain_quiet k d hq),
      State.bay_setBay_same _ _ _, fun j => State.bay_setBay_other _ _ _ _, s.endDrain_core k d, ?_, ?_, ?_, ?_,
      fun m => State.core_modCore_other _ _ _ _, ⟨_, _, _, _, rfl⟩, ?_, ?_⟩
    · rw [s.endDrain_core k d]
    · rw [s.endDrain_core k d]
    · rw [s.endDrain_core k d, Core.place_only]
    · rw [s.endDrain_core k d, Core.place_only]
    · intro a hlo hhi
      rw [State.get_endDrain, if_pos ⟨hlo, hhi⟩]
    · intro a ha
      rw [State.get_endDrain, if_neg (by omega)]
  · intro f s v t rows h hv ht ha hb hab hrows
    exact ⟨vaultf_frees h hv ht ha hb hab hrows, vaultf_returns h hv ht ha hb hab hrows⟩
  · intro f s v t others h hv ht ho
    exact ⟨smark_issues h hv ht ho, smark_waits h hv ht ho⟩

end Sys2Proof.Machine
end

section
/-! SUPPORT. What a package shows of its links (LNKRPL, LNKUP, and the replays in a row) is changed by no fault, no fault-queue entry, no permit and no write to memory (R295). -/

namespace Sys2Proof.Machine

/-- A package shows the same of its links: replays counted, links up, replays that have failed in a row. -/
structure Pkg.SameLinks (p q : Pkg) : Prop where
  count   : q.sysreg 0x242 = p.sysreg 0x242
  up      : q.sysreg 0x243 = p.sysreg 0x243
  replays : q.replays = p.replays

theorem Pkg.SameLinks.of_sys {p q : Pkg} (hs : q.sys = p.sys) (hr : q.replays = p.replays) : p.SameLinks q := by
  constructor
  · unfold Pkg.sysreg; rw [hs]
  · unfold Pkg.sysreg; rw [hs]
  · exact hr

/-- From s to t every package shows the same of its links. -/
def State.KeepsLinks (s t : State) : Prop := ∀ k, (s.pkg k).SameLinks (t.pkg k)

theorem State.KeepsLinks.refl (s : State) : s.KeepsLinks s := fun _ => ⟨rfl, rfl, rfl⟩

theorem State.KeepsLinks.trans {s t u : State} (h : s.KeepsLinks t) (g : t.KeepsLinks u) : s.KeepsLinks u := fun k =>
  ⟨(g k).count.trans (h k).count, (g k).up.trans (h k).up, (g k).replays.trans (h k).replays⟩

theorem State.KeepsLinks.after {s t u : State} (g : t.KeepsLinks u) (h : s.KeepsLinks t) : s.KeepsLinks u := h.trans g

/-- What leaves the packages leaves their links. -/
theorem State.KeepsLinks.of_pkgs {s t : State} (h : t.pkgs = s.pkgs) : s.KeepsLinks t := fun k => by
  unfold State.pkg; rw [h]; exact ⟨rfl, rfl, rfl⟩

theorem State.KeepsLinks.setPkg (s : State) (k : Nat) (p : Pkg) (h : (s.pkg k).SameLinks p) : s.KeepsLinks (s.setPkg k p) := fun j => by
  by_cases e : j = k
  · subst e; rwa [State.pkg_setPkg_same]
  · rw [State.pkg_setPkg_other _ _ _ _ e]; exact ⟨rfl, rfl, rfl⟩

/-- A fold of steps that each keep the links keeps them. -/
theorem State.KeepsLinks.foldl {β : Type} (l : List β) (g : State → β → State) (hg : ∀ (s : State) x, s.KeepsLinks (g s x)) (s : State) :
    s.KeepsLinks (l.foldl g s) := by
  induction l generalizing s with
  | nil => exact .refl s
  | cons x r ih => exact (hg s x).trans (ih _)

/-! ### Memory -/

theorem State.logError_links (s : State) (pa : Nat) (kind : ErrorKind) : s.KeepsLinks (s.logError pa kind) := by
  unfold State.logError
  exact .setPkg _ _ _ (.of_sys rfl rfl)

theorem State.correct_links (s : State) (b : Nat) : s.KeepsLinks (s.correct b) := by
  unfold State.correct
  exact (State.logError_links _ _ _).after (.of_pkgs rfl)

theorem State.corrects_links (l : List Nat) (s : State) : s.KeepsLinks (l.foldl State.correct s) := .foldl l _ State.correct_links s

theorem State.writeNote_links (s : State) (pa n : Nat) : s.KeepsLinks (s.writeNote pa n) := by
  have noted : s.KeepsLinks ((s.heal pa n).readNote pa n) := (State.corrects_links _ (s.heal pa n)).after (.of_pkgs rfl)
  exact noted.trans (.of_pkgs rfl)

theorem State.charge_links (s : State) (n bits : Nat) : s.KeepsLinks (s.charge n bits) := by
  unfold State.charge
  split
  · exact .refl s
  · dsimp only
    split <;> exact .of_pkgs rfl

theorem State.putCell_links (s : State) (n k : Nat) (v : W32) : s.KeepsLinks (s.putCell n k v) := by
  unfold State.putCell
  exact (State.charge_links _ _ _).after (.of_pkgs rfl)

theorem State.windowWrite_links (s : State) (n w off size : Nat) (v : Word) : s.KeepsLinks (s.windowWrite n w off size v) := by
  unfold State.windowWrite
  split
  · exact .foldl _ _ (fun t _ => t.putCell_links _ _ _) s
  · exact .of_pkgs rfl
  · exact .refl s
  · split
    · exact .of_pkgs rfl
    · exact .refl s
  · exact .of_pkgs rfl

theorem State.mailbox_links (s : State) (n : Nat) (v : Word) : s.KeepsLinks (s.mailbox n v) := by
  unfold State.mailbox
  split
  · exact .refl s
  · exact .of_pkgs rfl

/-- A write into space 0xE reaches DUMPCFG (0x1000), and no register of the links. -/
theorem State.deviceWrite_links (s : State) (p off size : Nat) (v : Word) : s.KeepsLinks (s.deviceWrite p off size v) := by
  unfold State.deviceWrite
  split
  · split
    · exact State.mailbox_links _ _ _
    · split
      · exact .of_pkgs rfl
      · exact .refl s
  · split
    · exact .setPkg _ _ _ ⟨Tab.get_put_other _ _ _ _ _ (by decide), Tab.get_put_other _ _ _ _ _ (by decide), rfl⟩
    · exact .refl s

theorem State.rekey_links (s : State) (key : Option Nat) (b : Nat) : s.KeepsLinks (s.rekey key b) := by
  unfold State.rekey
  split <;> exact .of_pkgs rfl

theorem State.physWrite_links (s : State) (key : Option Nat) (pa size : Nat) (v : Word) : s.KeepsLinks (s.physWrite key pa size v) := by
  unfold State.physWrite
  split
  · have keyed : s.KeepsLinks (if key = none ∧ s.blockKey (pa / 16) = none then s else s.rekey key (pa / 16)) := by
      split
      · exact .refl s
      · exact State.rekey_links _ _ _
    dsimp only
    generalize (if key = none ∧ s.blockKey (pa / 16) = none then s else s.rekey key (pa / 16)) = t at keyed
    split
    · exact keyed.trans (.of_pkgs rfl)
    · exact (State.writeNote_links _ _ _).after (keyed.trans (.of_pkgs rfl))
  · exact State.windowWrite_links _ _ _ _ _ _
  · exact State.deviceWrite_links _ _ _ _ _
  · exact .refl s

/-! ### Faults (R235, R312, R315) -/

theorem State.noteFqWalk_links (s : State) (stack : Nat) : s.KeepsLinks (s.noteFqWalk stack) := by
  unfold State.noteFqWalk
  dsimp only
  split
  · exact .refl s
  · exact State.corrects_links _ s

theorem State.signalDccs_links (s : State) (stack : Nat) : s.KeepsLinks (s.signalDccs stack) := .of_pkgs rfl

theorem State.fqWrite_links (s : State) (stack pa : Nat) (e : FqEntry) : s.KeepsLinks (s.fqWrite stack pa e) := by
  unfold State.fqWrite
  have written : s.KeepsLinks ((e.words.zipIdx).foldl (fun t p => t.physWrite (s.fqSlotKey stack) (pa + 8 * p.2) 8 p.1) (s.noteFqWalk stack)) :=
    (s.noteFqWalk_links stack).trans (.foldl _ _ (fun t _ => t.physWrite_links _ _ _ _) _)
  dsimp only
  generalize (e.words.zipIdx).foldl (fun t p => t.physWrite (s.fqSlotKey stack) (pa + 8 * p.2) 8 p.1) (s.noteFqWalk stack) = t at written
  refine (State.signalDccs_links _ _).after (State.KeepsLinks.after (.of_pkgs (State.setStack_pkgs _ _ _)) (.after (.setPkg _ _ _ ?_) written))
  exact .of_sys rfl rfl

theorem State.postFault_links (s : State) (n : Nat) (e : FqEntry) : s.KeepsLinks (s.postFault n e) := by
  unfold State.postFault
  dsimp only
  split
  · exact .of_pkgs rfl
  · split
    · split
      · exact .of_pkgs rfl
      · exact State.fqWrite_links _ _ _ _
    · exact (State.signalDccs_links _ _).after ((s.noteFqWalk_links _).trans (.of_pkgs rfl))

theorem State.faultAt_links (s : State) (n : Nat) (q : SeqId) (cause : Nat) (ufaddr epc : Word) (straddle : Bool) :
    s.KeepsLinks (s.faultAt n q cause ufaddr epc straddle) := by
  unfold State.faultAt
  dsimp only
  split
  · exact .of_pkgs rfl
  · refine (State.postFault_links _ _ _).after ?_
    split <;> exact .of_pkgs rfl

theorem State.notePermit_links (s : State) (p : Permit) (kind : PermitKind) : s.KeepsLinks (s.notePermit p kind) := by
  unfold State.notePermit
  exact .setPkg _ _ _ (.of_sys rfl rfl)

theorem State.notePermits_links (s : State) (l : List Permit) (kind : PermitKind) : s.KeepsLinks (s.notePermits l kind) :=
  .foldl l _ (fun t p => t.notePermit_links p kind) s

theorem State.withdrawPermits_links (s : State) (n : Nat) (q : SeqId) (clst : Bool) : s.KeepsLinks (s.withdrawPermits n q clst) := by
  unfold State.withdrawPermits
  dsimp only
  split
  · exact (State.notePermits_links _ _ _).after (.of_pkgs rfl)
  · exact .refl s

theorem State.leaveLine_links (s : State) (n : Nat) (q : SeqId) : s.KeepsLinks (s.leaveLine n q) := by
  unfold State.leaveLine
  dsimp only
  split
  · exact .of_pkgs rfl
  · exact .refl s

theorem State.withdraw_links (s : State) (n : Nat) (q : SeqId) : s.KeepsLinks (s.withdraw n q) := by
  unfold State.withdraw
  split
  · exact .refl s
  · split
    · exact (State.leaveLine_links _ _ _).after ((State.withdrawPermits_links _ _ _ _).after (.of_pkgs rfl))
    · exact (State.leaveLine_links _ _ _).after (State.withdrawPermits_links _ _ _ _)

theorem State.noteBad_links (s : State) (n cause : Nat) (va : Word) : s.KeepsLinks (s.noteBad n cause va) := by
  unfold State.noteBad
  split
  · split
    · exact State.logError_links _ _ _
    · exact .refl s
  · split
    · exact State.logError_links _ _ _
    · exact .refl s
  · exact .refl s

theorem State.takeFault_links (s : State) (cause : Nat) (ufaddr : Word) : s.KeepsLinks (s.takeFault cause ufaddr) := by
  unfold State.takeFault
  refine (State.faultAt_links _ _ _ _ _ _ _).after ?_
  split
  · exact (State.noteBad_links _ _ _ _).after (State.withdraw_links _ _ _)
  · exact State.withdraw_links _ _ _

theorem State.freezeCore_links (s : State) (n : Nat) (q : SeqId) (fz : Freeze) (cause : Nat) (va pc : Word) (chunk : Nat) :
    s.KeepsLinks (s.freezeCore n q fz cause va pc chunk) := by
  unfold State.freezeCore
  exact (State.postFault_links _ _ _).after ((State.noteBad_links s n cause va).trans (.of_pkgs rfl))

/-! ### What a link that goes down reports (R295) -/

theorem State.spend_links (s : State) : s.KeepsLinks s.spend := .of_pkgs rfl

theorem State.lostFlit_links (n : Nat) (s : State) (p : SeqId × List Nat) : s.KeepsLinks (State.lostFlit n s p) := by
  unfold State.lostFlit
  split
  · exact .refl s
  · split
    · exact (State.spend_links _).after ((State.spend_links _).after (State.freezeCore_links _ _ _ _ _ _ _ _))
    · exact .of_pkgs rfl

theorem State.lostAtomic_links (n : Nat) (s : State) (p : SeqId × List Nat) : s.KeepsLinks (State.lostAtomic n s p) := by
  unfold State.lostAtomic
  split
  · have taken := (({ s with cur := (n, p.1) } : State).takeFault_links 0x18 (s.affected p.2))
    generalize ({ s with cur := (n, p.1) } : State).takeFault 0x18 (s.affected p.2) = t at taken ⊢
    exact ((State.KeepsLinks.of_pkgs rfl).trans taken).trans (.of_pkgs rfl)
  · exact .of_pkgs rfl

theorem State.lostFlits_links (s : State) (n : Nat) : s.KeepsLinks (s.lostFlits n) :=
  (State.KeepsLinks.foldl _ _ (State.lostAtomic_links n) s).trans (.foldl _ _ (State.lostFlit_links n) _)

end Sys2Proof.Machine
end

section
/-! PROOFS. The package and its ports (R10, R233, R294, R295, R307, R308, R333, R375 to R382): host writes, partitions, replays, the domain. -/

namespace Sys2Proof.Machine

/-! ### Host writes (R233, R307, R308, R333, R378) -/

/-- Fewer than 8 bytes cover no word whole. -/
theorem State.heal_short (s : State) (pa n : Nat) (h : n < 8) : s.heal pa n = s := by
  have keeps : ∀ l : List Nat, l.filter (fun b => !(decide (pa ≤ 8 * b) && decide (8 * b + 8 ≤ pa + n))) = l := fun l =>
    List.filter_eq_self.2 (fun b _ => by simp; omega)
  simp only [State.heal, keeps]

theorem State.hostHeal_short (s : State) (pkg fn addr n : Nat) (h : n < 8) : s.hostHeal pkg fn addr n = s := by
  unfold State.hostHeal
  rw [State.heal_short s addr n h, ite_self]

theorem State.hostWrite_nil (s : State) (pkg fn addr : Nat) : s.hostWrite pkg fn addr [] = s := by
  simp [State.hostWrite, State.hostHeal_short]

/-- A host write of one byte is dropped where a drain moves the byte or its word is spoilt; else the byte is written. -/
theorem State.hostWrite_byte (s : State) (pkg fn addr pa : Nat) (b : Byte) (h : pa = pkg % 4096 * 2 ^ 48 + addr % 2 ^ 48) :
    s.hostWrite pkg fn addr [b] = if s.drainHit pa || s.hostSpoilt pa 1 pa then s else s.hostByte pkg fn pa b := by
  unfold State.hostWrite
  simp only [List.length_singleton, List.range_one, List.any_cons, List.any_nil, Bool.or_false, Nat.add_zero, ← h, List.zipIdx_singleton,
    State.hostHeal_short s pkg fn pa 1 (by decide)]
  cases s.drainHit pa
  · cases hs : s.hostSpoilt pa 1 pa <;>
      simp only [List.filter_cons, List.filter_nil, Nat.add_zero, ← h, hs, Bool.or_self, Bool.or_true, Bool.not_true, Bool.not_false,
        Bool.false_eq_true, if_false, if_true, List.foldl_cons, List.foldl_nil]
  · simp

/-- Of all the spaces of the map, 0xE alone holds device offsets. -/
theorem State.place_device_space {s : State} {pa q off : Nat} (h : s.place pa = .device q off) : paSpace pa = 14 := by
  unfold State.place at h
  grind

theorem State.hostSpoilt_device {s : State} {pa q off : Nat} (h : s.place pa = .device q off) (addr cnt : Nat) : s.hostSpoilt addr cnt pa = false := by
  simp [State.hostSpoilt, State.place_device_space h]

section
variable {s : State} {pkg fn pa : Nat} (b : Byte)

/-- Only the physical function reaches plain memory, once the package has booted. -/
theorem State.hostByte_bytes (h : s.place pa = .bytes) :
    s.hostByte pkg fn pa b = if fn = 0 ∧ ((s.pkg pkg).sysreg 0x2C0).toNat % 16 = 4 then s.physWrite none pa 1 (b.setWidth 64) else s := by
  simp [State.hostByte, Pkg.booted, h]

/-- A code store is reached from a function that sees its die control core, once the package has booted. -/
theorem State.hostByte_store {q off d o : Nat} (h : s.place pa = .device q off) (hd : dccRange off = some (d, o)) (ho : 0x20000 ≤ o) :
    s.hostByte pkg fn pa b = if ((s.pkg pkg).sysreg 0x2C0).toNat % 16 = 4 ∧ s.functionSees pkg fn d then s.deviceWrite q off 1 (b.setWidth 64) else s := by
  simp [State.hostByte, Pkg.booted, h, hd, ho]

end

theorem hostTlp_eq (s : State) (pkg fn addr : Nat) (op : HostOp) : exec (.hostTlp pkg fn addr op) s = execHostTlp pkg fn addr op s := rfl

theorem hostTlp_write (s : State) (pkg fn addr : Nat) (data : List Byte) :
    exec (.hostTlp pkg fn addr (.write data)) s = .next (s.hostWrite pkg fn addr data) := rfl

section
variable {s : State} {pkg addr pa : Nat} (fn : Nat) (b : Byte) (hpa : pa = pkg % 4096 * 2 ^ 48 + addr % 2 ^ 48)
include hpa

/-- A host write that a drain moves is dropped. -/
theorem hostTlp_drain (h : s.drainHit pa = true) : exec (.hostTlp pkg fn addr (.write [b])) s = .next s := by
  simp [hostTlp_write, State.hostWrite_byte s pkg fn addr pa b hpa, h]

/-- A host write of a byte of plain memory: who makes it, and which word takes none. -/
theorem hostTlp_bytes (hd : s.drainHit pa = false) (hp : s.place pa = .bytes) :
    (fn = 0 → ((s.pkg pkg).sysreg 0x2C0).toNat % 16 = 4 →
      (s.hostSpoilt pa 1 pa = false → exec (.hostTlp pkg fn addr (.write [b])) s = .next (s.physWrite none pa 1 (b.setWidth 64))) ∧
      (s.hostSpoilt pa 1 pa = true → exec (.hostTlp pkg fn addr (.write [b])) s = .next s)) ∧
    (fn ≠ 0 ∨ ((s.pkg pkg).sysreg 0x2C0).toNat % 16 ≠ 4 → exec (.hostTlp pkg fn addr (.write [b])) s = .next s) := by
  rw [hostTlp_write, State.hostWrite_byte s pkg fn addr pa b hpa, State.hostByte_bytes b hp, hd, Bool.false_or]
  refine ⟨fun h0 hb => ⟨fun hs => ?_, fun hs => ?_⟩, fun h => ?_⟩
  · simp [hs, h0, hb]
  · simp [hs]
  · rw [if_neg (c := fn = 0 ∧ _) (by tauto), ite_self]

/-- A host write of a byte of a code store: whose functions make it. -/
theorem hostTlp_store {q off d o : Nat} (hd : s.drainHit pa = false) (hp : s.place pa = .device q off) (hr : dccRange off = some (d, o))
    (ho : 0x20000 ≤ o) :
    (((s.pkg pkg).sysreg 0x2C0).toNat % 16 = 4 → s.functionSees pkg fn d = true →
      exec (.hostTlp pkg fn addr (.write [b])) s = .next (s.deviceWrite q off 1 (b.setWidth 64))) ∧
    (((s.pkg pkg).sysreg 0x2C0).toNat % 16 ≠ 4 ∨ s.functionSees pkg fn d = false →
      exec (.hostTlp pkg fn addr (.write [b])) s = .next s) := by
  rw [hostTlp_write, State.hostWrite_byte s pkg fn addr pa b hpa, State.hostByte_store b hp hr ho, hd,
    State.hostSpoilt_device hp, Bool.or_self, if_neg Bool.false_ne_true]
  refine ⟨fun hb hf => by rw [if_pos ⟨hb, hf⟩], fun h => ?_⟩
  rw [if_neg]
  rintro ⟨hb, hf⟩
  rcases h with h | h
  · exact h hb
  · exact absurd hf (by simp [h])

end

/-! ### Partitions (R307, R308, R380) -/

theorem State.functionSees_physical (s : State) (pkg d : Nat) : s.functionSees pkg 0 d = true := rfl

theorem State.functionSees_virtual (s : State) (pkg fn d : Nat) (h : fn ≠ 0) :
    s.functionSees pkg fn d = true ↔ ∃ p, s.vf pkg fn = some p ∧ d ∈ p.config.dccs := by
  unfold State.functionSees
  cases s.vf pkg fn <;> simp [h]

/-- A partition that has been stored is the virtual function's, and nothing but the package's partitions has changed. -/
theorem State.vf_setVf (s : State) (pkg fn : Nat) (v : Partition) (h1 : 1 ≤ fn) (h64 : fn ≤ 64) :
    (s.setVf pkg fn v).vf pkg fn = some v ∧ (s.setVf pkg fn v).cores = s.cores ∧ (s.setVf pkg fn v).mem = s.mem := by
  unfold State.setVf
  rw [if_pos ⟨h1, h64⟩]
  refine ⟨?_, rfl, rfl⟩
  simp [State.vf, Tab.has_put_same, Tab.get_put_same]

section
variable {s : State} {pkg fn : Nat} {p : Partition} (addr : Nat)

/-- An IDE failure sets the TDI to ERROR. -/
theorem hostTlp_ideFail (h : s.vf pkg fn = some p) : exec (.hostTlp pkg fn addr .ideFail) s = .next (s.setVf pkg fn { p with tdi := 3 }) := by
  rw [hostTlp_eq]
  simp [execHostTlp, h]

theorem hostTlp_tdi (h : s.vf pkg fn = some p) (k : Nat) :
    exec (.hostTlp pkg fn addr (.tdi k)) s = .next (s.setVf pkg fn { p with tdi := k % 4 }) := by
  rw [hostTlp_eq]
  simp [execHostTlp, h]

/-- The partition of a TDI that is not free stays. -/
theorem hostTlp_configure_locked (h : s.vf pkg fn = some p) (ht : p.tdi ≠ 0) (config : VfConfig) :
    exec (.hostTlp pkg 0 addr (.configure fn config)) s = .next s := by
  rw [hostTlp_eq]
  simp [execHostTlp, h, ht]

/-- The physical function sets the partition of a virtual function whose TDI is free. -/
theorem hostTlp_configure_free (h : ∀ p, s.vf pkg fn = some p → p.tdi = 0) (config : VfConfig) :
    exec (.hostTlp pkg 0 addr (.configure fn config)) s = .next (s.setVf pkg fn { tdi := 0, config := config }) := by
  rw [hostTlp_eq]
  cases hv : s.vf pkg fn with
  | none => simp [execHostTlp, hv]
  | some p => simp [execHostTlp, hv, h p hv]

/-- No virtual function sets a partition. -/
theorem hostTlp_configure_virtual (h : fn ≠ 0) (vf : Nat) (config : VfConfig) : exec (.hostTlp pkg fn addr (.configure vf config)) s = .next s := by
  rw [hostTlp_eq]
  simp [execHostTlp, h]

end

/-! ### Replays (R295) -/

/-- A package whose link has replayed a flit, so many replays in a row having failed. -/
def Pkg.replayed (p : Pkg) (link fails : Nat) : Pkg :=
  { p.setSys 0x242 (p.sysreg 0x242 + 1) with replays := Tab.put0 0 p.replays link (fails % 8) }

/-- The replay that fails as the eighth in a row takes the link down. -/
def Pkg.linkDown (p : Pkg) (link : Nat) : Pkg := (p.replayed link 8).setSys 0x243 (p.sysreg 0x243 &&& ~~~(BitVec.ofNat 64 (2 ^ link)))

theorem Pkg.replayed_count (p : Pkg) (link fails : Nat) : (p.replayed link fails).sysreg 0x242 = p.sysreg 0x242 + 1 :=
  Pkg.sysreg_setSys_same _ _ _

theorem Pkg.replayed_up (p : Pkg) (link fails : Nat) : (p.replayed link fails).sysreg 0x243 = p.sysreg 0x243 :=
  Pkg.sysreg_setSys_other _ _ _ _ (by decide)

theorem Pkg.replayed_replays (p : Pkg) (link fails : Nat) : Tab.get (p.replayed link fails).replays link 0 = fails % 8 :=
  Tab.get_put0_same _ _ _ _

theorem Pkg.linkDown_count (p : Pkg) (link : Nat) : (p.linkDown link).sysreg 0x242 = p.sysreg 0x242 + 1 :=
  (Pkg.sysreg_setSys_other _ _ _ _ (by decide)).trans (p.replayed_count link 8)

theorem Pkg.linkDown_up (p : Pkg) (link : Nat) : (p.linkDown link).sysreg 0x243 = p.sysreg 0x243 &&& ~~~(BitVec.ofNat 64 (2 ^ link)) :=
  Pkg.sysreg_setSys_same _ _ _

theorem Pkg.linkDown_replays (p : Pkg) (link : Nat) : Tab.get (p.linkDown link).replays link 0 = 0 := p.replayed_replays link 8

/-- A link that is down, or none, replays nothing. -/
theorem linkReplay_idle {s : State} {pkg link : Nat} (h : 24 ≤ link ∨ ((s.pkg pkg).sysreg 0x243).getLsbD link = false) :
    exec (.linkReplay pkg link) s = .next s := by
  show execLinkReplay pkg link s = _
  unfold execLinkReplay
  dsimp only
  rw [if_pos (h.imp_right (fun h => by simp [h]))]

section
variable {s : State} {pkg link : Nat} (hl : link < 24) (hu : ((s.pkg pkg).sysreg 0x243).getLsbD link = true) (n : Nat)
  (hn : (if (Config.freeWord s.fresh).getLsbD 0 then Tab.get (s.pkg pkg).replays link 0 + 1 else 0) = n)
include hl hu hn

theorem linkReplay_eq : exec (.linkReplay pkg link) s = .next (if n = 8 then
      let t := (s.setPkg pkg ((s.pkg pkg).linkDown link)).spend
      (t.cores.map (fun q => q.1)).foldl State.lostFlits t
    else (s.setPkg pkg ((s.pkg pkg).replayed link n)).spend) := by
  show execLinkReplay pkg link s = _
  unfold execLinkReplay
  dsimp only
  rw [if_neg (by simp [hu]; omega), hn]
  by_cases h8 : n = 8
  · subst h8; rfl
  · rw [if_neg h8, if_neg h8]; rfl

/-- The package after a replay: as counted, or with its link down, whatever the failed link reports. -/
theorem linkReplay_pkg : ∃ t, exec (.linkReplay pkg link) s = .next t ∧
    (if n = 8 then (s.pkg pkg).linkDown link else (s.pkg pkg).replayed link n).SameLinks (t.pkg pkg) := by
  refine ⟨_, linkReplay_eq hl hu n hn, ?_⟩
  have shown : ∀ p, ((s.setPkg pkg p).spend).pkg pkg = p := fun p => State.pkg_setPkg_same _ _ _
  by_cases h8 : n = 8
  · rw [if_pos h8, if_pos h8]
    generalize ht : (s.setPkg pkg ((s.pkg pkg).linkDown link)).spend = t
    rw [← shown ((s.pkg pkg).linkDown link), ht]
    exact State.KeepsLinks.foldl _ _ State.lostFlits_links t pkg
  · rw [if_neg h8, if_neg h8, shown]
    exact ⟨rfl, rfl, rfl⟩

end

/-- A replay counts; a failed one counts in its row too, and the eighth of a row takes the link down. -/
theorem linkReplay_counts {s : State} {pkg link fails : Nat} {lost : Bool} (hl : link < 24) (hu : ((s.pkg pkg).sysreg 0x243).getLsbD link = true)
    (hf : fails = Tab.get (s.pkg pkg).replays link 0) (hlost : lost = (Config.freeWord s.fresh).getLsbD 0) :
    ∃ t, exec (.linkReplay pkg link) s = .next t ∧
      (t.pkg pkg).sysreg 0x242 = (s.pkg pkg).sysreg 0x242 + 1 ∧
      Tab.get (t.pkg pkg).replays link 0 = (if lost then (fails + 1) % 8 else 0) ∧
      (t.pkg pkg).sysreg 0x243 =
        (if lost ∧ fails = 7 then (s.pkg pkg).sysreg 0x243 &&& ~~~(BitVec.ofNat 64 (2 ^ link)) else (s.pkg pkg).sysreg 0x243) := by
  obtain ⟨t, ht, same⟩ := linkReplay_pkg hl hu (if lost then fails + 1 else 0) (by rw [hlost, hf])
  refine ⟨t, ht, ?_⟩
  rw [same.count, same.up, same.replays]
  by_cases down : lost = true ∧ fails = 7
  · obtain ⟨rfl, rfl⟩ := down
    exact ⟨Pkg.linkDown_count _ _, Pkg.linkDown_replays _ _, Pkg.linkDown_up _ _⟩
  · have counted : (if lost then fails + 1 else 0) ≠ 8 := by
      cases lost
      · simp
      · simpa using down
    rw [if_neg counted, if_neg down]
    refine ⟨Pkg.replayed_count _ _ _, (Pkg.replayed_replays _ _ _).trans ?_, Pkg.replayed_up _ _ _⟩
    cases lost <;> rfl

/-! ### The domain (R10, R294) -/

theorem mem_insertNat (x y : Nat) (l : List Nat) : y ∈ insertNat x l ↔ y = x ∨ y ∈ l := by
  induction l with
  | nil => simp [insertNat]
  | cons z r ih =>
    simp only [insertNat]
    split
    · simp
    · simp [ih, or_left_comm]

theorem mem_foldl_insertNat (l acc : List Nat) (y : Nat) : y ∈ l.foldl (fun l p => insertNat p l) acc ↔ y ∈ l ∨ y ∈ acc := by
  induction l generalizing acc with
  | nil => simp
  | cons x r ih => simp [ih, mem_insertNat, or_assoc, or_left_comm]

/-- A domain holds the packages named, below 4,096. -/
theorem fabricDomainFormation_domain (pkgs : List Nat) (s : State) : ∃ t, exec (.fabricDomainFormation pkgs) s = .next t ∧
    (∀ p, p ∈ t.domain ↔ p ∈ pkgs ∧ p < 4096) ∧ t.mem = s.mem ∧ t.cores = s.cores := by
  refine ⟨_, rfl, fun p => ?_, rfl, rfl⟩
  rw [mem_foldl_insertNat]
  simp

end Sys2Proof.Machine
end

section
/-! PROOFS. The package manager (R375 to R382): cold boot, scrubbing, reports and fatal errors. -/

namespace Sys2Proof.Machine

/-! ### The stages of a cold boot (R375 to R377) -/

theorem bootst_stage (stage fail : Nat) (rsa slh : Bool) (h : stage < 16) : (bootst stage fail rsa slh).toNat % 16 = stage := by
  unfold bootst
  rw [BitVec.toNat_ofNat]
  omega

theorem State.setBoot_stage (s : State) (pkg : Nat) (w : Word) : ((s.setBoot pkg w).pkg pkg).stage = w.toNat % 16 := by
  unfold State.setBoot Pkg.stage
  rw [State.pkg_setPkg_same, Pkg.sysreg_setSys_same]

/-- Logging errors changes no core, no byte and no register of a package. -/
structure State.LogsOnly (s t : State) : Prop where
  cores : t.cores = s.cores
  mem   : t.mem = s.mem
  sys   : ∀ k, (t.pkg k).sys = (s.pkg k).sys

theorem State.logError_only (s : State) (pa : Nat) (kind : ErrorKind) : s.LogsOnly (s.logError pa kind) where
  cores := rfl
  mem := rfl
  sys k := by
    unfold State.logError
    dsimp only
    by_cases h : k = paPkg pa
    · subst h; rw [State.pkg_setPkg_same]
    · rw [State.pkg_setPkg_other _ _ _ _ h]

theorem State.logVaults_only (s : State) (pkg : Nat) (l : List Nat) (kind : ErrorKind) : s.LogsOnly (s.logVaults pkg l kind) := by
  unfold State.logVaults
  induction l generalizing s with
  | nil => exact ⟨rfl, rfl, fun _ => rfl⟩
  | cons c r ih =>
    have first := s.logError_only (vaultAddr (1024 * pkg + c) 0) kind
    have rest := ih (s.logError (vaultAddr (1024 * pkg + c) 0) kind)
    exact ⟨rest.cores.trans first.cores, rest.mem.trans first.mem, fun k => (rest.sys k).trans (first.sys k)⟩

theorem State.LogsOnly.stage {s t : State} (h : s.LogsOnly t) (k : Nat) : (t.pkg k).stage = (s.pkg k).stage := by
  unfold Pkg.stage Pkg.sysreg
  rw [h.sys]

theorem State.verifyFirmware_stage (s : State) (pkg : Nat) :
    ((s.verifyFirmware pkg).pkg pkg).stage = 1 ∨ ((s.verifyFirmware pkg).pkg pkg).stage = 15 := by
  unfold State.verifyFirmware
  dsimp only
  generalize [0, 1, 2, 3, 5].getD ((Config.freeWord s.fresh).toNat % 5) 0 = fail
  have stage : ∀ t : State, t.spend.pkg pkg = t.pkg pkg := fun _ => rfl
  rw [stage, State.setBoot_stage]
  split
  · exact .inl (bootst_stage 1 _ _ _ (by decide))
  · exact .inr (bootst_stage 15 _ _ _ (by decide))

theorem State.testVaults_result (s : State) (pkg : Nat) :
    (((s.testVaults pkg).pkg pkg).stage = 2 ∨ ((s.testVaults pkg).pkg pkg).stage = 15) ∧ (s.testVaults pkg).cores = s.cores ∧
      (s.testVaults pkg).mem = s.mem := by
  unfold State.testVaults
  dsimp only
  split
  · refine ⟨.inr ?_, rfl, rfl⟩
    rw [State.setBoot_stage, bootst_stage 15 _ _ _ (by decide)]
  · refine ⟨.inl ?_, (State.logVaults_only _ _ _ _).cores, (State.logVaults_only _ _ _ _).mem⟩
    rw [(State.logVaults_only _ _ _ _).stage, State.setBoot_stage, bootst_stage 2 _ _ _ (by decide)]

theorem State.repairVaults_result (s : State) (pkg : Nat) :
    ((s.repairVaults pkg).pkg pkg).stage = 3 ∧ (s.repairVaults pkg).cores = s.cores ∧ (s.repairVaults pkg).mem = s.mem := by
  unfold State.repairVaults
  have logs := (s.setBoot pkg (bootst 3 0 true true)).logVaults_only pkg (bootCores s.fresh) .repaired
  generalize (s.setBoot pkg (bootst 3 0 true true)).logVaults pkg (bootCores s.fresh) .repaired = t at logs
  refine ⟨(logs.stage pkg).trans ?_, logs.cores, logs.mem⟩
  rw [State.setBoot_stage, bootst_stage 3 _ _ _ (by decide)]

theorem State.zeroMemories_stage (s : State) (pkg : Nat) : ((s.zeroMemories pkg).pkg pkg).stage = 4 := by
  unfold State.zeroMemories
  rw [State.setBoot_stage, bootst_stage 4 _ _ _ (by decide)]

/-- Stage 3 zeroes the package's vaults, scratchpads and code stores, and no other byte. -/
theorem State.get_zeroMemories (s : State) (pkg a : Nat) :
    Memory.get (s.zeroMemories pkg).mem a = if bootZeroes pkg a then 0 else Memory.get s.mem a := by
  refine (Tab.get_filter_keys s.mem (fun x => !bootZeroes pkg x) a 0).trans ?_
  cases bootZeroes pkg a <;> rfl

theorem bootZeroes_iff (pkg a : Nat) : bootZeroes pkg a = true ↔
    paPkg a = pkg ∧ (paSpace a = 1 ∨ paSpace a = 2 ∨ paSpace a = 3 ∨ paSpace a = 14) := by
  simp [bootZeroes, or_assoc]

/-! ### Power-on (R375, R382, R384) -/

/-- A package at power-on, its installed capacity kept. -/
structure Pkg.On (p q : Pkg) : Prop where
  stage : q.stage = 0
  fatal : q.fatal = none
  boots : q.boots = p.boots + 1

theorem State.powerOn_pkg (s : State) (pkg : Nat) : (s.pkg pkg).On ((s.powerOn pkg).pkg pkg) := by
  unfold State.powerOn
  dsimp only
  rw [State.pkg_setPkg_same]
  refine ⟨?_, rfl, rfl⟩
  unfold Pkg.stage Pkg.sysreg
  dsimp only
  have unset : Tab.get (if Tab.has (s.pkg pkg).sys 0x1001 then Tab.put [] 0x1001 (Tab.get (s.pkg pkg).sys 0x1001 0) else []) 0x2C0 (regReset 0x2C0) =
      regReset 0x2C0 := by
    split
    · exact Tab.get_put_other _ _ _ _ _ (by decide)
    · rfl
  rw [unset]
  decide

/-- A package that knows no launch any more has lost no byte and no core. -/
theorem State.forgetLaunches_frame (s : State) (pkg : Nat) : (s.forgetLaunches pkg).mem = s.mem ∧ (s.forgetLaunches pkg).cores = s.cores := ⟨rfl, rfl⟩

theorem State.destroyKeys_stays (s : State) (gone : Ctx → Bool) : (s.destroyKeys gone).mem = s.mem ∧ (s.destroyKeys gone).cores = s.cores := by
  obtain ⟨l, k, h⟩ := s.destroyKeys_frame gone
  rw [h]
  exact ⟨rfl, rfl⟩

theorem State.powerOn_frame (s : State) (pkg : Nat) :
    (s.powerOn pkg).mem = s.mem ∧ (s.powerOn pkg).cores = s.cores.filter (fun c => pkgOf c.1 != pkg) := by
  unfold State.powerOn
  dsimp only
  rw [State.setPkg_mem, State.setPkg_cores]
  exact ⟨(State.forgetLaunches_frame _ pkg).1.trans (State.destroyKeys_stays _ _).1,
    (State.forgetLaunches_frame _ pkg).2.trans (State.destroyKeys_stays _ _).2⟩

/-- After power-on every core of the package is as after reset, and every other core as it was. -/
theorem State.powerOn_core (s : State) (pkg n : Nat) : (s.powerOn pkg).core n = if pkgOf n = pkg then Core.reset else s.core n := by
  unfold State.core
  rw [(s.powerOn_frame pkg).2]
  refine (Tab.get_filter_keys s.cores (fun m => pkgOf m != pkg) n Core.reset).trans ?_
  by_cases h : pkgOf n = pkg <;> simp [h]

/-- What a cold boot that begins anew leaves. -/
theorem coldBoot_anew {s : State} {pkg : Nat} (h : s.coldBoot pkg = s.powerOn pkg) :
    ((s.coldBoot pkg).pkg pkg).stage = 0 ∧ ((s.coldBoot pkg).pkg pkg).fatal = none ∧ ((s.coldBoot pkg).pkg pkg).boots = (s.pkg pkg).boots + 1 ∧
      (s.coldBoot pkg).mem = s.mem ∧ (∀ n, pkgOf n = pkg → (s.coldBoot pkg).core n = Core.reset) ∧
      (∀ n, pkgOf n ≠ pkg → (s.coldBoot pkg).core n = s.core n) := by
  have on := s.powerOn_pkg pkg
  rw [h]
  exact ⟨on.stage, on.fatal, on.boots, (s.powerOn_frame pkg).1, fun n hn => by rw [State.powerOn_core, if_pos hn],
    fun n hn => by rw [State.powerOn_core, if_neg hn]⟩

theorem coldBoot_eq (s : State) (pkg : Nat) : exec (.coldBoot pkg) s = .next (s.coldBoot pkg) := rfl

section
variable {s : State} {pkg : Nat} (hf : (s.pkg pkg).fatal = none)
include hf

theorem State.coldBoot_stage0 (h : (s.pkg pkg).stage = 0) : s.coldBoot pkg = s.verifyFirmware pkg := by simp [State.coldBoot, hf, h]
theorem State.coldBoot_stage1 (h : (s.pkg pkg).stage = 1) : s.coldBoot pkg = s.testVaults pkg := by simp [State.coldBoot, hf, h]
theorem State.coldBoot_stage2 (h : (s.pkg pkg).stage = 2) : s.coldBoot pkg = s.repairVaults pkg := by simp [State.coldBoot, hf, h]
theorem State.coldBoot_stage3 (h : (s.pkg pkg).stage = 3) : s.coldBoot pkg = s.zeroMemories pkg := by simp [State.coldBoot, hf, h]

theorem State.coldBoot_again (h : 4 ≤ (s.pkg pkg).stage) : s.coldBoot pkg = s.powerOn pkg := by
  obtain ⟨n, hn⟩ := Nat.exists_eq_add_of_le' h
  simp [State.coldBoot, hf, hn]

end

theorem State.coldBoot_fatal {s : State} {pkg : Nat} (hf : (s.pkg pkg).fatal.isSome = true) : s.coldBoot pkg = s.powerOn pkg := if_pos hf

/-! ### Scrubbing (R378) -/

/-- Scrubbing changes no byte and no core, and leaves no single symbol in error but beside a retired layer. -/
theorem vaultScrub_result (pkg : Nat) (s : State) : ∃ t, exec (.vaultScrub pkg) s = .next t ∧ t.mem = s.mem ∧ t.cores = s.cores ∧ t.bad = s.bad ∧
    ((s.pkg pkg).runs = true → ∀ b ∈ t.weak, paPkg (8 * b) = pkg → paSpace (8 * b) = 1 → s.layerRetired (8 * b) = true) := by
  refine ⟨_, rfl, ?_⟩
  by_cases hr : (s.pkg pkg).runs = true
  · rw [if_pos hr]
    obtain ⟨cores, mem, bad, -⟩ := State.corrects_frame
      (s.weak.filter (fun b => paPkg (8 * b) == pkg && paSpace (8 * b) == 1 && !s.layerRetired (8 * b))) s
    refine ⟨mem, cores, bad, fun _ b hb hp hs => ?_⟩
    simpa [hp, hs] using (List.mem_filter.1 hb).2
  · rw [if_neg hr]
    exact ⟨rfl, rfl, rfl, fun h => absurd h hr⟩

/-! ### Reports (R379, Table 19.2) -/

@[simp] theorem padTo_length (n : Nat) (l : List Byte) : (padTo n l).length = n := by simp [padTo]

@[simp] theorem leBytes_length (n v : Nat) : (leBytes n v).length = n := by simp [leBytes]

/-- Exactly n bytes stay as they are. -/
theorem padTo_self (n : Nat) (l : List Byte) (h : l.length = n) : padTo n l = l := by simp [padTo, ← h]

theorem State.reportBody_length (s : State) (pkg : Nat) (nonce : List Byte) (dcc : Option Nat) : (s.reportBody pkg nonce dcc).length = 256 := by
  unfold State.reportBody
  cases dcc.bind s.partOf <;> simp

/-- The nonce stands behind the first 8 bytes of a report. -/
theorem State.reportBody_nonce (s : State) (pkg : Nat) (nonce : List Byte) (dcc : Option Nat) (h : nonce.length = 32) :
    ∃ r, s.reportBody pkg nonce dcc = (leBytes 4 0x54414344 ++ leBytes 4 1) ++ (nonce ++ r) := by
  unfold State.reportBody
  simp only [padTo_self 32 nonce h, List.append_assoc]
  exact ⟨_, rfl⟩

theorem getMeasurements_report (pkg : Nat) (nonce : List Byte) (dcc : Option Nat) (s : State) (h : nonce.length = 32) :
    ∃ t, exec (.getMeasurements pkg nonce dcc) s = .next t ∧ (t.pkg pkg).report.length = 16864 ∧
      ((t.pkg pkg).report.drop 8).take 32 = nonce ∧ t.cores = s.cores ∧ t.mem = s.mem := by
  refine ⟨_, rfl, ?_, ?_, rfl, rfl⟩
  · rw [State.pkg_setPkg_same]
    simp [State.reportBody_length]
  · rw [State.pkg_setPkg_same]
    obtain ⟨r, hr⟩ := s.reportBody_nonce pkg nonce dcc h
    simp only [hr, List.append_assoc]
    rw [← List.append_assoc (leBytes 4 _), List.drop_left' (by simp), List.take_left' h]

/-! ### Fatal errors (R382) -/

theorem State.haltPackage_fatal (s : State) (pkg source : Nat) : ((s.haltPackage pkg source).pkg pkg).fatal = some source := by
  unfold State.haltPackage
  dsimp only
  rw [State.pkg_setPkg_same]

/-- Nothing of a package that a fatal error has stopped issues. -/
theorem State.idle_of_fatal {t : State} {n source : Nat} {q : SeqId} (h : (t.pkg (pkgOf n)).fatal = some source) :
    ({ t with cur := (n, q) } : State).idle = true := by
  have stopped : (({ t with cur := (n, q) } : State).pkg (pkgOf n)).runs = false := by
    unfold Pkg.runs
    rw [show ({ t with cur := (n, q) } : State).pkg (pkgOf n) = t.pkg (pkgOf n) from rfl, h]
    rfl
  unfold State.idle
  rw [show ({ t with cur := (n, q) } : State).node = n from rfl, stopped]
  exact Bool.or_true _

theorem fatalError_again {pkg source : Nat} {s : State} (h : (s.pkg pkg).fatal.isSome = true) : exec (.fatalError pkg source) s = .next s := by
  show execFatalError pkg source s = _
  rw [execFatalError, if_pos h]

/-- A fatal error halts the package, after its dump where that has a target. -/
theorem fatalError_halts {pkg : Nat} {s : State} (source : Nat) (h : (s.pkg pkg).fatal = none) :
    ∃ u : State, exec (.fatalError pkg source) s = .next (u.haltPackage pkg source) ∧ (s.dumpTarget pkg = none → u = s) := by
  show ∃ u : State, execFatalError pkg source s = _ ∧ _
  rw [execFatalError, if_neg (by simp [h])]
  cases hd : s.dumpTarget pkg with
  | none => exact ⟨s, rfl, fun _ => rfl⟩
  | some base => exact ⟨s.writeDump pkg source base, rfl, fun h => nomatch h⟩

theorem fatalError_result {pkg : Nat} {s : State} (source : Nat) (h : (s.pkg pkg).fatal = none) :
    ∃ t, exec (.fatalError pkg source) s = .next t ∧ (t.pkg pkg).fatal = some source ∧ (s.dumpTarget pkg = none → t.mem = s.mem) ∧
      ∀ n q, pkgOf n = pkg → ({ t with cur := (n, q) } : State).idle = true := by
  obtain ⟨u, hu, target⟩ := fatalError_halts source h
  refine ⟨_, hu, u.haltPackage_fatal pkg source, fun hd => ?_, fun n q hn => State.idle_of_fatal (source := source) ?_⟩
  · rw [target hd]; rfl
  · rw [hn]; exact u.haltPackage_fatal pkg source

/-! ### The events of a package -/

/-- What each stage of a cold boot does, and what it leaves. -/
theorem coldBoot_stages (pkg : Nat) (s : State) (hf : (s.pkg pkg).fatal = none) : ∃ t, exec (.coldBoot pkg) s = .next t ∧
    ((s.pkg pkg).stage = 0 → ((t.pkg pkg).stage = 1 ∨ (t.pkg pkg).stage = 15) ∧ t.cores = s.cores ∧ t.mem = s.mem) ∧
    ((s.pkg pkg).stage = 1 → ((t.pkg pkg).stage = 2 ∨ (t.pkg pkg).stage = 15) ∧ t.cores = s.cores ∧ t.mem = s.mem) ∧
    ((s.pkg pkg).stage = 2 → (t.pkg pkg).stage = 3 ∧ t.cores = s.cores ∧ t.mem = s.mem) ∧
    ((s.pkg pkg).stage = 3 → (t.pkg pkg).stage = 4 ∧ t.cores = s.cores ∧
      (∀ a, paPkg a = pkg → paSpace a = 1 ∨ paSpace a = 2 ∨ paSpace a = 3 ∨ paSpace a = 14 → Memory.get t.mem a = 0) ∧
      (∀ a, paPkg a ≠ pkg ∨ paSpace a = 0 → Memory.get t.mem a = Memory.get s.mem a)) ∧
    (4 ≤ (s.pkg pkg).stage → (t.pkg pkg).stage = 0 ∧ (t.pkg pkg).fatal = none ∧ (t.pkg pkg).boots = (s.pkg pkg).boots + 1 ∧ t.mem = s.mem ∧
      (∀ n, pkgOf n = pkg → t.core n = Core.reset) ∧ (∀ n, pkgOf n ≠ pkg → t.core n = s.core n)) := by
  refine ⟨_, coldBoot_eq s pkg, fun h => ?_, fun h => ?_, fun h => ?_, fun h => ?_, fun h => coldBoot_anew (State.coldBoot_again hf h)⟩
  · rw [State.coldBoot_stage0 hf h]
    exact ⟨s.verifyFirmware_stage pkg, rfl, rfl⟩
  · rw [State.coldBoot_stage1 hf h]
    exact s.testVaults_result pkg
  · rw [State.coldBoot_stage2 hf h]
    exact s.repairVaults_result pkg
  · rw [State.coldBoot_stage3 hf h]
    refine ⟨s.zeroMemories_stage pkg, rfl, fun a hp hs => ?_, fun a ha => ?_⟩
    · rw [State.get_zeroMemories, if_pos ((bootZeroes_iff pkg a).2 ⟨hp, hs⟩)]
    · rw [State.get_zeroMemories, if_neg (by rw [bootZeroes_iff]; omega)]

/-- Settles O52: each clause is what one event of the package does, host writes, partitions, replays, the domain, cold boot, scrubbing, reports and fatal errors in turn. -/
theorem packageEvents : Obligations.PackageEvents := by
  unfold Obligations.PackageEvents
  refine ⟨fun pkg fn addr s => ?_,
    fun pkg fn addr b s pa hpa => ⟨hostTlp_drain fn b hpa, hostTlp_bytes fn b hpa, fun q off d o => hostTlp_store fn b hpa⟩,
    fun s pkg d => ⟨s.functionSees_physical pkg d, fun fn => s.functionSees_virtual pkg fn d⟩,
    fun pkg fn addr s p hv h1 h64 => ⟨?_, fun k => ?_, fun config ht => ?_⟩,
    fun pkg vf addr config s h1 h64 hfree => ?_,
    fun pkg fn vf addr config s h => hostTlp_configure_virtual addr h vf config,
    fun pkg link s => linkReplay_idle, fun pkg link s fails lost => linkReplay_counts,
    fabricDomainFormation_domain,
    coldBoot_stages, fun pkg s hf => ⟨_, coldBoot_eq s pkg, coldBoot_anew (State.coldBoot_fatal hf)⟩,
    vaultScrub_result, getMeasurements_report,
    fun pkg source s => fatalError_result source, fun pkg source s => fatalError_again⟩
  · rw [hostTlp_write, State.hostWrite_nil]
  · exact ⟨_, hostTlp_ideFail addr hv, State.vf_setVf s pkg fn _ h1 h64⟩
  · exact ⟨_, hostTlp_tdi addr hv k, State.vf_setVf s pkg fn _ h1 h64⟩
  · exact hostTlp_configure_locked addr hv ht config
  · exact ⟨_, hostTlp_configure_free addr hfree config, State.vf_setVf s pkg vf _ h1 h64⟩

end Sys2Proof.Machine
end

section
/-! SUPPORT. The decoder and the encoder undo each other, part by part: bytes and numbers (R25), the tables of codes (R34, R35, R42), the fields of each form (R34 to R38), and the length that a first byte announces (Table 2.1). -/

namespace Sys2Proof

/-! ### Bytes and numbers (R25) -/

theorem beNat_foldl (bs : List Byte) (n : Nat) : bs.foldl (fun n b => 256 * n + b.toNat) n = 256 ^ bs.length * n + beNat bs := by
  unfold beNat
  induction bs generalizing n with
  | nil => simp
  | cons b r ih => rw [List.foldl_cons, List.foldl_cons, ih, ih (256 * 0 + b.toNat), List.length_cons]; ring

theorem beNat_cons (b : Byte) (bs : List Byte) : beNat (b :: bs) = 256 ^ bs.length * b.toNat + beNat bs := by
  rw [beNat, List.foldl_cons, beNat_foldl, Nat.mul_zero, Nat.zero_add]

theorem beNat_lt (bs : List Byte) : beNat bs < 256 ^ bs.length := by
  induction bs with
  | nil => simp [beNat]
  | cons b r ih =>
    have hb : b.toNat ≤ 255 := by omega
    calc beNat (b :: r) = 256 ^ r.length * b.toNat + beNat r := beNat_cons b r
      _ < 256 ^ r.length * b.toNat + 256 ^ r.length := by omega
      _ ≤ 256 ^ r.length * 255 + 256 ^ r.length := by gcongr
      _ = 256 ^ (b :: r).length := by rw [List.length_cons]; ring

@[simp] theorem length_beBytes (n v : Nat) : (beBytes n v).length = n := by
  induction n with
  | zero => rfl
  | succ n ih => rw [beBytes, List.length_cons, ih]

/-- Bytes show the low digits of a number alone. -/
theorem beBytes_mul_add (n m k v : Nat) (h : m ≤ n) : beBytes m (256 ^ n * k + v) = beBytes m v := by
  induction m with
  | zero => rfl
  | succ m ih =>
    obtain ⟨j, rfl⟩ := Nat.exists_eq_add_of_lt h
    have digit : (256 ^ (m + j + 1) * k + v) / 256 ^ m = v / 256 ^ m + 256 * (256 ^ j * k) := by
      rw [show 256 ^ (m + j + 1) * k + v = v + 256 ^ m * (256 * (256 ^ j * k)) by ring, Nat.add_mul_div_left _ _ (by positivity)]
    rw [beBytes, beBytes, ih (by omega), digit]
    congr 1
    apply BitVec.eq_of_toNat_eq
    simp

/-- The bytes of what bytes say are those bytes. -/
theorem beBytes_beNat (bs : List Byte) : beBytes bs.length (beNat bs) = bs := by
  induction bs with
  | nil => rfl
  | cons b r ih =>
    have digit : (256 ^ r.length * b.toNat + beNat r) / 256 ^ r.length = b.toNat := by
      rw [Nat.mul_add_div (by positivity), Nat.div_eq_of_lt (beNat_lt r), Nat.add_zero]
    rw [List.length_cons, beNat_cons, beBytes, digit, beBytes_mul_add _ _ _ _ le_rfl, ih, BitVec.ofNat_toNat, BitVec.setWidth_eq]

/-- What the bytes of a number say is that number. -/
theorem beNat_beBytes (n v : Nat) (h : v < 256 ^ n) : beNat (beBytes n v) = v := by
  induction n generalizing v with
  | zero => simp at h; simp [h, beBytes, beNat]
  | succ n ih =>
    have hd : v / 256 ^ n < 256 := Nat.div_lt_of_lt_mul (by rwa [pow_succ] at h)
    have low : beBytes n v = beBytes n (v % 256 ^ n) := by
      conv_lhs => rw [← Nat.div_add_mod v (256 ^ n)]
      exact beBytes_mul_add n n _ _ le_rfl
    rw [beBytes, beNat_cons, length_beBytes, low, ih _ (Nat.mod_lt _ (by positivity)), BitVec.toNat_ofNat, Nat.mod_eq_of_lt hd, Nat.div_add_mod]

/-! ### The tables of codes (R34, R35, R42) -/

theorem coreOf_of_codeOf {i : Instr} {c : Code} {f : Fields} (h : codeOf i = some (c, f)) : coreOf c f = some i := by
  cases i <;> cases h <;> rfl

/-- A code is an 8-bit OPC and a 4-bit FN. -/
theorem codeOf_lt {i : Instr} {c : Code} {f : Fields} (h : codeOf i = some (c, f)) : c < 4096 := by
  cases i <;> cases h <;> decide

theorem dite_elim {p : Prop} {_ : Decidable p} {β : Type} {m : β → Prop} {a : p → β} {b : ¬p → β} (ha : ∀ h, m (a h)) (hb : ∀ h, m (b h)) :
    m (dite p a b) := by
  split
  · exact ha _
  · exact hb _

set_option maxRecDepth 2000 in
/-- Row by row of Table 2.8: the match of coreOf tries one code after another, so that a term over it nests as deep as the table is long. -/
theorem codeOf_of_coreOf {c : Code} {f : Fields} {i : Instr} : coreOf c f = some i → codeOf i = some (c, f) := by
  delta coreOf coreOf.match_1
  repeat
    refine dite_elim (m := fun o => o = some i → codeOf i = some (c, f)) (fun row => ?_) (fun _ => ?_)
    · subst row; rintro ⟨⟩; rfl
  rintro ⟨⟩

theorem shortOf2_of_op5Of {i : Instr} {op d a : BitVec 5} (h : op5Of i = some (op, d, a)) : shortOf2 op d a = i := by
  cases i <;> cases h <;> rfl

theorem shortOf4_of_op6Of {i : Instr} {op : BitVec 6} {d a b : BitVec 8} (h : op6Of i = some (op, d, a, b)) : shortOf4 op d a b = i := by
  cases i <;> cases h <;> rfl

/-- The 2-byte form's instruction is a row of that form alone. -/
theorem op5Of_shortOf2 (op d a : BitVec 5) : op5Of (shortOf2 op d a) = some (op, d, a) ∧ codeOf (shortOf2 op d a) = none := by
  have rows : ∀ n, op = BitVec.ofNat 5 n → n < 32 → op5Of (shortOf2 op d a) = some (op, d, a) ∧ codeOf (shortOf2 op d a) = none := by
    rintro n rfl hn
    interval_cases n <;> exact ⟨rfl, rfl⟩
  exact rows op.toNat (by simp) op.isLt

/-- The 4-byte form's instruction is a row of that form alone. -/
theorem op6Of_shortOf4 (op : BitVec 6) (d a b : BitVec 8) :
    op6Of (shortOf4 op d a b) = some (op, d, a, b) ∧ codeOf (shortOf4 op d a b) = none ∧ op5Of (shortOf4 op d a b) = none := by
  have rows : ∀ n, op = BitVec.ofNat 6 n → n < 64 →
      op6Of (shortOf4 op d a b) = some (op, d, a, b) ∧ codeOf (shortOf4 op d a b) = none ∧ op5Of (shortOf4 op d a b) = none := by
    rintro n rfl hn
    interval_cases n <;> exact ⟨rfl, rfl, rfl⟩
  exact rows op.toNat (by simp) op.isLt

end Sys2Proof
end

section
/-! PROOFS. Encoding and decoding (R25, R34 to R38, R42, R51). -/
namespace Sys2Proof

/-! ### The fields of each form (R34 to R38) -/

theorem codeBits_div_mod {c : Nat} (h : c < 4096) : codeBits (BitVec.ofNat 8 (c / 16)) (BitVec.ofNat 4 (c % 16)) = c := by
  unfold codeBits
  rw [BitVec.toNat_ofNat, BitVec.toNat_ofNat]
  exact (by omega : 16 * (c / 16 % 2 ^ 8) + c % 16 % 2 ^ 4 = c)

@[simp] theorem codeBits_div (opc : BitVec 8) (fn : BitVec 4) : BitVec.ofNat 8 (codeBits opc fn / 16) = opc := by
  apply BitVec.eq_of_toNat_eq
  simp only [codeBits, BitVec.toNat_ofNat]
  omega

@[simp] theorem codeBits_mod (opc : BitVec 8) (fn : BitVec 4) : BitVec.ofNat 4 (codeBits opc fn % 16) = fn := by
  apply BitVec.eq_of_toNat_eq
  simp only [codeBits, BitVec.toNat_ofNat]
  omega

theorem decode2_word2 (op d a : BitVec 5) : decode2 (word2 op d a) = shortOf2 op d a := by
  simp (disch := omega) only [decode2, word2, BitVec.extractLsb'_append_eq_of_add_le, BitVec.extractLsb'_append_eq_of_le, Nat.sub_self, BitVec.extractLsb'_eq_self]

theorem decode4_word4 (op : BitVec 6) (d a b : BitVec 8) : decode4 (word4 op d a b) = shortOf4 op d a b := by
  simp (disch := omega) only [decode4, word4, BitVec.extractLsb'_append_eq_of_add_le, BitVec.extractLsb'_append_eq_of_le, Nat.sub_self, BitVec.extractLsb'_eq_self]

theorem split6_word6 {c : Code} (h : c < 4096) (f : Fields) :
    split6 (word6 c f) = (c, fields6 c (f.d.setWidth 5) (f.a.setWidth 5) (f.x.setWidth 23)) := by
  simp (disch := omega) only [split6, word6, BitVec.extractLsb'_append_eq_of_add_le, BitVec.extractLsb'_append_eq_of_le, Nat.sub_self, BitVec.extractLsb'_eq_self]
  rw [codeBits_div_mod h]

theorem split8_word8 {c : Code} (h : c < 4096) (f : Fields) :
    split8 (word8 c f) = (c, fields8 c f.pop f.push (BitVec.ofBool f.e) f.rc f.d f.a f.b) := by
  simp (disch := omega) only [split8, word8, BitVec.extractLsb'_append_eq_of_add_le, BitVec.extractLsb'_append_eq_of_le, Nat.sub_self, BitVec.extractLsb'_eq_self]
  rw [codeBits_div_mod h]

theorem split12_word12 {c : Code} (h : c < 4096) (f : Fields) : split12 (word12 c f) = (c, { f with form := .twelve }) := by
  simp (disch := omega) only [split12, word12, BitVec.extractLsb'_append_eq_of_add_le, BitVec.extractLsb'_append_eq_of_le, Nat.sub_self, BitVec.extractLsb'_eq_self]
  rw [codeBits_div_mod h]
  cases f.e <;> rfl

/-- A word is its tag and the fields that the form reads from it. -/
theorem word2_fields {w : BitVec 16} (h : w.extractLsb' 15 1 = 0) : word2 (w.extractLsb' 10 5) (w.extractLsb' 5 5) (w.extractLsb' 0 5) = w := by
  have h' : 0#1 = w.extractLsb' 15 1 := h.symm
  simp (disch := omega) only [word2, h', BitVec.extractLsb'_append_extractLsb'_eq_extractLsb', BitVec.extractLsb'_eq_self]

theorem word4_fields {w : BitVec 32} (h : w.extractLsb' 30 2 = 2) :
    word4 (w.extractLsb' 24 6) (w.extractLsb' 16 8) (w.extractLsb' 8 8) (w.extractLsb' 0 8) = w := by
  have h' : 2#2 = w.extractLsb' 30 2 := h.symm
  simp (disch := omega) only [word4, h', BitVec.extractLsb'_append_extractLsb'_eq_extractLsb', BitVec.extractLsb'_eq_self]

theorem ofBool_beq_one (b : BitVec 1) : BitVec.ofBool (b == 1) = b := by
  revert b; decide

/-- An immediate that is sign-extended and cut back is itself. -/
theorem setWidth_signExtend_imm (x : BitVec 23) : (x.signExtend 24).setWidth 23 = x := by
  ext i hi
  rw [BitVec.getElem_setWidth, BitVec.getLsbD_signExtend]
  simp [hi, show i < 24 by omega]

theorem word6_split6 {w : BitVec 48} (h : w.extractLsb' 45 3 = 6) : word6 (split6 w).1 (split6 w).2 = w := by
  have h' : 6#3 = w.extractLsb' 45 3 := h.symm
  simp (disch := omega) only [word6, split6, fields6, codeBits_div, codeBits_mod, setWidth_signExtend_imm, BitVec.setWidth_setWidth_of_le, BitVec.setWidth_eq, h',
    BitVec.extractLsb'_append_extractLsb'_eq_extractLsb', BitVec.extractLsb'_eq_self]

theorem word8_split8 {w : BitVec 64} (h : w.extractLsb' 60 4 = 14) : word8 (split8 w).1 (split8 w).2 = w := by
  have h' : 14#4 = w.extractLsb' 60 4 := h.symm
  simp (disch := omega) only [word8, split8, fields8, codeBits_div, codeBits_mod, ofBool_beq_one, h',
    BitVec.extractLsb'_append_extractLsb'_eq_extractLsb', BitVec.extractLsb'_eq_self]

theorem word12_split12 {w : BitVec 96} (h : w.extractLsb' 91 5 = 30) : word12 (split12 w).1 (split12 w).2 = w := by
  have h' : 30#5 = w.extractLsb' 91 5 := h.symm
  simp (disch := omega) only [word12, split12, codeBits_div, codeBits_mod, ofBool_beq_one, h',
    BitVec.extractLsb'_append_extractLsb'_eq_extractLsb', BitVec.extractLsb'_eq_self]

/-- The fields that a form reads are fields that it carries. -/
theorem formCarries_split6 (w : BitVec 48) : formCarries (split6 w).1 (split6 w).2 = true := by
  simp [formCarries, split6, fields6, setWidth_signExtend_imm]

theorem formCarries_split8 (w : BitVec 64) : formCarries (split8 w).1 (split8 w).2 = true := by
  rw [formCarries, split8, fields8]
  simp only [ofBool_beq_one, fields8, beq_self_eq_true]

theorem formCarries_split12 (w : BitVec 96) : formCarries (split12 w).1 (split12 w).2 = true := rfl

/-! ### The length that a first byte announces (Table 2.1) -/

theorem lengthOf_eq_some (b : Byte) (n : Nat) : lengthOf b = some n ↔
    n = 2 ∧ b.toNat < 0x80 ∨ n = 4 ∧ 0x80 ≤ b.toNat ∧ b.toNat < 0xC0 ∨ n = 6 ∧ 0xC0 ≤ b.toNat ∧ b.toNat < 0xE0 ∨
      n = 8 ∧ 0xE0 ≤ b.toNat ∧ b.toNat < 0xF0 ∨ n = 12 ∧ 0xF0 ≤ b.toNat ∧ b.toNat < 0xF8 := by
  unfold lengthOf
  dsimp only
  split_ifs <;> simp only [Option.some.injEq, false_iff] <;> omega

theorem lengthOf_eq_none (b : Byte) (h : 0xF8 ≤ b.toNat) : lengthOf b = none := by
  rw [Option.eq_none_iff_forall_ne_some]
  intro n hn
  rw [lengthOf_eq_some] at hn
  omega

/-- The first byte of a word announces the length of a form exactly where the word bears that form's tag. -/
theorem lengthOf_two_iff (w : BitVec 16) : lengthOf (BitVec.ofNat 8 (w.toNat / 256 ^ 1)) = some 2 ↔ w.extractLsb' 15 1 = 0 := by
  have hw := w.isLt
  rw [lengthOf_eq_some, BitVec.toNat_eq, BitVec.extractLsb'_toNat, Nat.shiftRight_eq_div_pow, BitVec.toNat_ofNat]
  simp
  omega

theorem lengthOf_four_iff (w : BitVec 32) : lengthOf (BitVec.ofNat 8 (w.toNat / 256 ^ 3)) = some 4 ↔ w.extractLsb' 30 2 = 2 := by
  have hw := w.isLt
  rw [lengthOf_eq_some, BitVec.toNat_eq, BitVec.extractLsb'_toNat, Nat.shiftRight_eq_div_pow, BitVec.toNat_ofNat]
  simp
  omega

theorem lengthOf_six_iff (w : BitVec 48) : lengthOf (BitVec.ofNat 8 (w.toNat / 256 ^ 5)) = some 6 ↔ w.extractLsb' 45 3 = 6 := by
  have hw := w.isLt
  rw [lengthOf_eq_some, BitVec.toNat_eq, BitVec.extractLsb'_toNat, Nat.shiftRight_eq_div_pow, BitVec.toNat_ofNat]
  simp
  omega

theorem lengthOf_eight_iff (w : BitVec 64) : lengthOf (BitVec.ofNat 8 (w.toNat / 256 ^ 7)) = some 8 ↔ w.extractLsb' 60 4 = 14 := by
  have hw := w.isLt
  rw [lengthOf_eq_some, BitVec.toNat_eq, BitVec.extractLsb'_toNat, Nat.shiftRight_eq_div_pow, BitVec.toNat_ofNat]
  simp
  omega

theorem lengthOf_twelve_iff (w : BitVec 96) : lengthOf (BitVec.ofNat 8 (w.toNat / 256 ^ 11)) = some 12 ↔ w.extractLsb' 91 5 = 30 := by
  have hw := w.isLt
  rw [lengthOf_eq_some, BitVec.toNat_eq, BitVec.extractLsb'_toNat, Nat.shiftRight_eq_div_pow, BitVec.toNat_ofNat]
  simp
  omega

/-! ### Decoding bytes (R25, R42, R51) -/

/-- Bytes whose first announces a length, and that are that many, decode to the instruction they hold, whatever follows. -/
theorem decode_append {b : Byte} {r rest : List Byte} {i : Instr} (hn : lengthOf b = some (r.length + 1)) (hi : decodeExact (b :: r) = some i) :
    decode (b :: r ++ rest) = .instr i (r.length + 1) := by
  have short : ¬ (b :: r ++ rest).length < r.length + 1 := by simp
  have cut : (b :: r ++ rest).take (r.length + 1) = b :: r := List.take_left' rfl
  rw [List.cons_append] at short cut ⊢
  simp only [decode, hn, if_neg short, cut, hi]

/-- Bytes that decode to an instruction hold it in the length that the first announces. -/
theorem decode_instr {bs : List Byte} {i : Instr} {n : Nat} (h : decode bs = .instr i n) :
    ∃ b r, bs.take n = b :: r ∧ lengthOf b = some n ∧ n = r.length + 1 ∧ decodeExact (b :: r) = some i := by
  unfold decode at h
  split at h
  · cases h
  · next b r =>
    split at h
    · cases h
    · next m hm =>
      split at h
      · cases h
      · next enough =>
        split at h
        · next j hj =>
          obtain ⟨rfl, rfl⟩ : j = i ∧ m = n := by simpa using h
          have pos : 0 < m := by rw [lengthOf_eq_some] at hm; omega
          obtain ⟨k, rfl⟩ := Nat.exists_eq_add_of_lt pos
          have len : (r.take (0 + k)).length = 0 + k := List.length_take_of_le (by simp at enough; omega)
          exact ⟨b, r.take (0 + k), rfl, hm, by rw [len], hj⟩
        · cases h

/-- What the encoder writes for a word of a form, whose tag it bears, decodes to what that form's decoder reads in the word. -/
theorem decode_beBytes {n v : Nat} {i : Instr} (rest : List Byte) (hn : lengthOf (BitVec.ofNat 8 (v / 256 ^ n)) = some (n + 1))
    (hi : decodeExact (beBytes (n + 1) v) = some i) : decode (beBytes (n + 1) v ++ rest) = .instr i (beBytes (n + 1) v).length := by
  rw [beBytes] at hi ⊢
  have h := decode_append (rest := rest) (by rw [length_beBytes]; exact hn) hi
  rw [h, List.length_cons]

theorem decodeExact_two (w : BitVec 16) : decodeExact (beBytes 2 w.toNat) = some (decode2 w) := by
  simp [decodeExact, beNat_beBytes 2 _ w.isLt]

theorem decodeExact_four (w : BitVec 32) : decodeExact (beBytes 4 w.toNat) = some (decode4 w) := by
  simp [decodeExact, beNat_beBytes 4 _ w.isLt]

theorem decodeExact_six (w : BitVec 48) : decodeExact (beBytes 6 w.toNat) = decode6 w := by
  simp [decodeExact, beNat_beBytes 6 _ w.isLt]

theorem decodeExact_eight (w : BitVec 64) : decodeExact (beBytes 8 w.toNat) = decode8 w := by
  simp [decodeExact, beNat_beBytes 8 _ w.isLt]

theorem decodeExact_twelve (w : BitVec 96) : decodeExact (beBytes 12 w.toNat) = decode12 w := by
  simp [decodeExact, beNat_beBytes 12 _ w.isLt]

/-- n bytes are those of a word of 8n bits, whose first byte is theirs. -/
theorem bytes_eq_beBytes (b : Byte) (r : List Byte) (m : Nat) (h : 2 ^ m = 256 ^ (r.length + 1)) : ∃ w : BitVec m,
    beBytes (r.length + 1) w.toNat = b :: r ∧ BitVec.ofNat 8 (w.toNat / 256 ^ r.length) = b := by
  have lt : beNat (b :: r) < 2 ^ m := h ▸ beNat_lt (b :: r)
  have eq : beBytes (r.length + 1) (BitVec.ofNat m (beNat (b :: r))).toNat = b :: r := by
    rw [BitVec.toNat_ofNat, Nat.mod_eq_of_lt lt]
    exact beBytes_beNat (b :: r)
  refine ⟨_, eq, ?_⟩
  rw [beBytes] at eq
  exact (List.cons.inj eq).1

/-! ### The two statements (R25, R34 to R38, R42) -/

/-- The tag and the fields of a core instruction's word, form by form. -/
theorem decode_encodeCore {i : Instr} {c : Code} {f : Fields} (hc : codeOf i = some (c, f)) (hf : formCarries c f = true) (rest : List Byte) :
    decode (encodeCore c f ++ rest) = .instr i (encodeCore c f).length := by
  have lt := codeOf_lt hc
  have core := coreOf_of_codeOf hc
  unfold encodeCore
  cases form : f.form <;> simp only [formCarries, form, Bool.false_eq_true, beq_iff_eq] at hf ⊢
  case six =>
    apply decode_beBytes rest
    · rw [lengthOf_six_iff]
      simp (disch := omega) only [word6, BitVec.extractLsb'_append_eq_of_le, BitVec.extractLsb'_eq_self, Nat.sub_self]; rfl
    · rw [decodeExact_six, decode6, split6_word6 lt, ← hf]; exact core
  case eight =>
    apply decode_beBytes rest
    · rw [lengthOf_eight_iff]
      simp (disch := omega) only [word8, BitVec.extractLsb'_append_eq_of_le, BitVec.extractLsb'_eq_self, Nat.sub_self]; rfl
    · rw [decodeExact_eight, decode8, split8_word8 lt, ← hf]; exact core
  case twelve =>
    have keeps : ({ f with form := .twelve } : Fields) = f := by rw [← form]
    apply decode_beBytes rest
    · rw [lengthOf_twelve_iff]
      simp (disch := omega) only [word12, BitVec.extractLsb'_append_eq_of_le, BitVec.extractLsb'_eq_self, Nat.sub_self]; rfl
    · rw [decodeExact_twelve, decode12, split12_word12 lt, keeps]; exact core

/-- Settles O54: a core instruction by its form, a short form by its row. -/
theorem encodedInstructionsDecode : Obligations.EncodedInstructionsDecode := by
  unfold Obligations.EncodedInstructionsDecode
  intro i rest h
  unfold encodable at h
  unfold encode
  cases hc : codeOf i with
  | some p =>
    rw [hc] at h
    exact decode_encodeCore hc h rest
  | none =>
    cases h2 : op5Of i with
    | some p =>
      obtain ⟨op, d, a⟩ := p
      apply decode_beBytes rest
      · rw [lengthOf_two_iff]
        simp (disch := omega) only [word2, BitVec.extractLsb'_append_eq_of_le, BitVec.extractLsb'_eq_self, Nat.sub_self]; rfl
      · rw [decodeExact_two, decode2_word2, shortOf2_of_op5Of h2]
    | none =>
      cases h4 : op6Of i with
      | some p =>
        obtain ⟨op, d, a, b⟩ := p
        apply decode_beBytes rest
        · rw [lengthOf_four_iff]
          simp (disch := omega) only [word4, BitVec.extractLsb'_append_eq_of_le, BitVec.extractLsb'_eq_self, Nat.sub_self]; rfl
        · rw [decodeExact_four, decode4_word4, shortOf4_of_op6Of h4]
      | none => simp [hc, h2, h4] at h

/-- An instruction of a form's table, whose word bears these fields, is encodable, and the encoder writes that word. -/
theorem encode_coreOf {i : Instr} {c : Code} {f : Fields} (h : coreOf c f = some i) (hf : formCarries c f = true) :
    encodable i = true ∧ encode i = encodeCore c f := by
  have hc := codeOf_of_coreOf h
  simp [encodable, encode, hc, hf]

theorem encode_shortOf2 (op d a : BitVec 5) : encodable (shortOf2 op d a) = true ∧ encode (shortOf2 op d a) = beBytes 2 (word2 op d a).toNat := by
  obtain ⟨h2, hc⟩ := op5Of_shortOf2 op d a
  simp [encodable, encode, hc, h2]

theorem encode_shortOf4 (op : BitVec 6) (d a b : BitVec 8) :
    encodable (shortOf4 op d a b) = true ∧ encode (shortOf4 op d a b) = beBytes 4 (word4 op d a b).toNat := by
  obtain ⟨h4, hc, h2⟩ := op6Of_shortOf4 op d a b
  simp [encodable, encode, hc, h2, h4]

/-- The encoder writes back a word of each form that bears the form's tag and decodes. -/
theorem encode_decode2 {w : BitVec 16} {i : Instr} (tag : w.extractLsb' 15 1 = 0) (h : some (decode2 w) = some i) :
    encodable i = true ∧ encode i = beBytes 2 w.toNat := by
  obtain rfl := Option.some.inj h
  have row := encode_shortOf2 (w.extractLsb' 10 5) (w.extractLsb' 5 5) (w.extractLsb' 0 5)
  rwa [word2_fields tag] at row

theorem encode_decode4 {w : BitVec 32} {i : Instr} (tag : w.extractLsb' 30 2 = 2) (h : some (decode4 w) = some i) :
    encodable i = true ∧ encode i = beBytes 4 w.toNat := by
  obtain rfl := Option.some.inj h
  have row := encode_shortOf4 (w.extractLsb' 24 6) (w.extractLsb' 16 8) (w.extractLsb' 8 8) (w.extractLsb' 0 8)
  rwa [word4_fields tag] at row

theorem encode_decode6 {w : BitVec 48} {i : Instr} (tag : w.extractLsb' 45 3 = 6) (h : decode6 w = some i) :
    encodable i = true ∧ encode i = beBytes 6 w.toNat := by
  obtain ⟨able, enc⟩ := encode_coreOf h (formCarries_split6 w)
  exact ⟨able, enc.trans (congrArg (fun v : BitVec _ => beBytes 6 v.toNat) (word6_split6 tag))⟩

theorem encode_decode8 {w : BitVec 64} {i : Instr} (tag : w.extractLsb' 60 4 = 14) (h : decode8 w = some i) :
    encodable i = true ∧ encode i = beBytes 8 w.toNat := by
  obtain ⟨able, enc⟩ := encode_coreOf h (formCarries_split8 w)
  exact ⟨able, enc.trans (congrArg (fun v : BitVec _ => beBytes 8 v.toNat) (word8_split8 tag))⟩

theorem encode_decode12 {w : BitVec 96} {i : Instr} (tag : w.extractLsb' 91 5 = 30) (h : decode12 w = some i) :
    encodable i = true ∧ encode i = beBytes 12 w.toNat := by
  obtain ⟨able, enc⟩ := encode_coreOf h (formCarries_split12 w)
  exact ⟨able, enc.trans (congrArg (fun v : BitVec _ => beBytes 12 v.toNat) (word12_split12 tag))⟩

/-- Settles O55: the bytes are those of one word of the announced length, which the encoder writes back. -/
theorem decodedBytesEncode : Obligations.DecodedBytesEncode := by
  unfold Obligations.DecodedBytesEncode
  intro bs i n h
  obtain ⟨b, r, take, hn, rfl, hi⟩ := decode_instr h
  rw [take]
  have forms := hn
  rw [lengthOf_eq_some] at forms
  obtain len | len | len | len | len : r.length = 1 ∨ r.length = 3 ∨ r.length = 5 ∨ r.length = 7 ∨ r.length = 11 := by omega
  · obtain ⟨w, eq, first⟩ := bytes_eq_beBytes b r 16 (by rw [len]; norm_num)
    rw [len] at eq first hn
    rw [← first, lengthOf_two_iff] at hn
    rw [← eq, decodeExact_two] at hi
    exact eq ▸ encode_decode2 hn hi
  · obtain ⟨w, eq, first⟩ := bytes_eq_beBytes b r 32 (by rw [len]; norm_num)
    rw [len] at eq first hn
    rw [← first, lengthOf_four_iff] at hn
    rw [← eq, decodeExact_four] at hi
    exact eq ▸ encode_decode4 hn hi
  · obtain ⟨w, eq, first⟩ := bytes_eq_beBytes b r 48 (by rw [len]; norm_num)
    rw [len] at eq first hn
    rw [← first, lengthOf_six_iff] at hn
    rw [← eq, decodeExact_six] at hi
    exact eq ▸ encode_decode6 hn hi
  · obtain ⟨w, eq, first⟩ := bytes_eq_beBytes b r 64 (by rw [len]; norm_num)
    rw [len] at eq first hn
    rw [← first, lengthOf_eight_iff] at hn
    rw [← eq, decodeExact_eight] at hi
    exact eq ▸ encode_decode8 hn hi
  · obtain ⟨w, eq, first⟩ := bytes_eq_beBytes b r 96 (by rw [len]; norm_num)
    rw [len] at eq first hn
    rw [← first, lengthOf_twelve_iff] at hn
    rw [← eq, decodeExact_twelve] at hi
    exact eq ▸ encode_decode12 hn hi

/-- Settles O53: the worked words by evaluation (the tests of Table 2.10), the undefined prefixes by the length that they do not announce. -/
theorem specWordsDecode : Obligations.SpecWordsDecode := by
  unfold Obligations.SpecWordsDecode
  refine ⟨Tests.test_decode_add2b, Tests.test_decode_addi, Tests.test_decode_vfma4b, Tests.test_decode_vadd, Tests.test_decode_vfma, fun b rest h => ?_⟩
  rw [decode, lengthOf_eq_none b h]

end Sys2Proof
end

section
/-! PROOFS. The encoding checks of Table 2.9: their order, and the fault of whatever instruction fails one (R43, R46, R49, R66, R86, R93, R224). -/

namespace Sys2Proof.Machine

/-- What issues as a core instruction, in its own form or from a short one, goes through the one issue of core instructions (R27, R49). -/
theorem exec_issued {i : Instr} {c : Code} {f : Fields} (h : Issues i c f) (s : State) : ∃ body, exec i s = issued c f body s := by
  cases i <;> cases h <;> exact ⟨_, rfl⟩

section
variable {c : Code} {f : Fields} {n : Nat} {q : SeqId} {priv : Bool} {i : OpInfo} (hi : opInfo c = some i)
include hi

/-- Row 2: the sequencer. -/
theorem encodingFault_runs (hr : i.runs.allows n q = false) : encodingFault c f n q priv = some (0x03, 0) := by
  simp [encodingFault, hi, hr]

variable (hr : i.runs.allows n q = true)
include hr

/-- Rows 3 and 4: the encoding itself. -/
theorem encodingFault_illegal (h : illegalStatic c i f = true ∨ illegalHere c f n q = true ∨ sregIllegal c n priv (f.x.toNat % 4096) = true) :
    encodingFault c f n q priv = some (0x01, 0) := by
  have bad : (illegalStatic c i f || illegalHere c f n q || sregIllegal c n priv (f.x.toNat % 4096)) = true := by
    simpa [or_assoc] using h
  simp only [encodingFault, hi, hr, bad, Bool.not_true, Bool.false_eq_true, if_false, if_true]

variable (hs : illegalStatic c i f = false) (hh : illegalHere c f n q = false) (hg : sregIllegal c n priv (f.x.toNat % 4096) = false)
include hs hh hg

/-- Row 5: privilege. -/
theorem encodingFault_privileged (h : (i.priv = true ∧ priv = false) ∨ sregPrivileged c priv (f.x.toNat % 4096) = true) :
    encodingFault c f n q priv = some (0x04, 0) := by
  have bad : (i.priv && !priv || sregPrivileged c priv (f.x.toNat % 4096)) = true := by simpa using h
  simp only [encodingFault, hi, hr, hs, hh, hg, bad, Bool.not_true, Bool.or_self, Bool.false_eq_true, if_false, if_true]

/-- Rows 6 and 7: what the operand fields say, once nothing before them fails. -/
theorem encodingFault_operands (hp : i.priv = true → priv = true) (hq : sregPrivileged c priv (f.x.toNat % 4096) = false) :
    encodingFault c f n q priv = match badOperand c i f with
      | some k => some (0x02, BitVec.ofNat 64 k)
      | none => (oddIndex c i f).map (fun k => (0x12, BitVec.ofNat 64 k)) := by
  have good : (i.priv && !priv || sregPrivileged c priv (f.x.toNat % 4096)) = false := by
    rw [hq, Bool.or_false]
    cases hv : i.priv
    · rfl
    · simp [hp hv]
  simp only [encodingFault, hi, hr, hs, hh, hg, good, Bool.not_true, Bool.or_self, Bool.false_eq_true, if_false]
  cases badOperand c i f <;> cases oddIndex c i f <;> rfl

end

/-- Where no check fails, none of the operand fields fails. -/
theorem operands_of_encodingFault_none {c : Code} {f : Fields} {n : Nat} {q : SeqId} {priv : Bool} {i : OpInfo} (hi : opInfo c = some i)
    (h : encodingFault c f n q priv = none) : badOperand c i f = none ∧ oddIndex c i f = none := by
  simp only [encodingFault, hi] at h
  split_ifs at h
  cases hb : badOperand c i f <;> cases ho : oddIndex c i f <;> simp_all

/-- MFS and MTS issue everywhere. -/
theorem opInfo_sreg_runs {c : Code} {i : OpInfo} (hc : c = 0x0E1 ∨ c = 0x0E2) (hi : opInfo c = some i) (n : Nat) (q : SeqId) : i.runs.allows n q = true := by
  obtain rfl | rfl := hc <;> cases hi <;> simp only [Runs.allows, ctl, Runs.all] <;> cases q <;> simp

/-- A register number that MFS and MTS do not reach (R86, R324). -/
theorem sregIllegal_sreg {c : Code} (hc : c = 0x0E1 ∨ c = 0x0E2) (n : Nat) (priv : Bool) (num : Nat) : sregIllegal c n priv num =
    if priv = false ∧ 0x280 ≤ num ∧ num ≤ 0x2FF then false
    else (regInfo num).isNone || regRemoteOnly num || (!isDcc n && decide (0x400 ≤ num ∧ num ≤ 0x43F)) := by
  have op : isSregOp c = true := by obtain rfl | rfl := hc <;> rfl
  simp only [sregIllegal, op, if_true]
  cases priv <;> simp

/-- Settles O6: one issue serves every core instruction, and its checks are the rows of Table 2.9 in their order. -/
theorem encodingFaultsAreTaken : Obligations.EncodingFaultsAreTaken := by
  unfold Obligations.EncodingFaultsAreTaken
  refine ⟨fun i c f s cause a h bad => ?_, fun c f n q priv i hi => ⟨encodingFault_runs hi, fun hr h => encodingFault_illegal hi hr (.inl h),
      fun hr hs hh hg hp hv => encodingFault_privileged hi hr hs hh hg (.inl ⟨hp, hv⟩), fun hr hs hh hg hp hq => ?_, fun h => ?_⟩,
    fun c f n q priv i hi hr => ?_, fun c f n q priv num i hc hnum hi => ?_⟩
  · obtain ⟨body, hb⟩ := exec_issued h s
    rw [hb, issued_illegal bad]
  · rw [encodingFault_operands hi hr hs hh hg hp hq]
    exact ⟨fun k hk => by rw [hk], fun k hb ho => by rw [hb, ho]; rfl, fun hb ho => by rw [hb, ho]; rfl⟩
  · simpa using operands_of_encodingFault_none hi h
  · have here : illegalHere c f n q = true → encodingFault c f n q priv = some (0x01, 0) := fun h => encodingFault_illegal hi hr (.inr (.inl h))
    refine ⟨fun hd h => here ?_, fun hd h => here ?_, fun h hx => here ?_, fun h hx => here ?_⟩
    · simp only [illegalHere, hd, if_true, Bool.or_eq_true, bne_iff_ne]
      exact .inl (.inl h)
    · obtain h | h := h <;> simp [illegalHere, hd, h]
    · obtain rfl | rfl := h <;> simp [illegalHere, hx]
    · subst h; simp [illegalHere, hx]
  · have hr := opInfo_sreg_runs hc hi n q
    subst hnum
    refine ⟨fun hp h => ?_, fun hs hh hp h1 h2 => ?_, fun r hc hs hh hreg hro hrem hd => ?_⟩
    · refine encodingFault_illegal hi hr (.inr (.inr ?_))
      rw [sregIllegal_sreg hc, if_neg (by rintro ⟨rfl, h1, h2⟩; simp at hp; omega)]
      obtain h | h | ⟨hd, h1, h2⟩ := h
      · simp [h]
      · simp [h]
      · simp [hd, h1, h2]
    · refine encodingFault_privileged hi hr hs hh ?_ (.inr ?_)
      · rw [sregIllegal_sreg hc, if_pos ⟨hp, h1, h2⟩]
      · obtain rfl | rfl := hc <;> simp [sregPrivileged, isSregOp, hp, h1, h2]
    · refine encodingFault_privileged hi hr hs hh ?_ (.inr ?_)
      · rw [sregIllegal_sreg (.inr hc), hreg, hrem]
        obtain hd | hd | hd := hd <;> simp [hd]
      · subst hc; simp [sregPrivileged, isSregOp, hreg, hro]

end Sys2Proof.Machine
end

section
/-! PROOFS. The 2-byte forms (R34, Table 2.6), and the scalar operations that they expand to (R72 to R75). -/

namespace Sys2Proof.Machine

/-! ### Scalar operations as Tables 4.2 and 4.3 and R74 write them -/

/-- Where equal keys give equal answers, a strict comparison may as well be a weak one. -/
theorem ite_lt_eq_ite_le {α β : Type} [LinearOrder β] {u v : β} {x y : α} (h : u = v → x = y) : (if u < v then x else y) = if u ≤ v then x else y := by
  obtain lt | eq | gt := lt_trichotomy u v
  · rw [if_pos lt, if_pos lt.le]
  · rw [h eq, ite_self, ite_self]
  · rw [if_neg gt.asymm, if_neg gt.not_ge]

theorem aluMin_eq (a b : Word) : aluMin a b = if a.toInt ≤ b.toInt then a else b := by
  simp only [aluMin, BitVec.slt, decide_eq_true_eq]
  exact ite_lt_eq_ite_le BitVec.toInt_inj.1

theorem aluMax_eq (a b : Word) : aluMax a b = if a.toInt ≤ b.toInt then b else a := by
  simp only [aluMax, BitVec.slt, decide_eq_true_eq]
  exact ite_lt_eq_ite_le fun h => (BitVec.toInt_inj.1 h).symm

theorem aluMinn_eq (a b : Word) : aluMinn a b = if a.toNat ≤ b.toNat then a else b := by
  simp only [aluMinn, BitVec.ult, decide_eq_true_eq]
  exact ite_lt_eq_ite_le BitVec.toNat_inj.1

theorem aluMaxn_eq (a b : Word) : aluMaxn a b = if a.toNat ≤ b.toNat then b else a := by
  simp only [aluMaxn, BitVec.ult, decide_eq_true_eq]
  exact ite_lt_eq_ite_le fun h => (BitVec.toNat_inj.1 h).symm

theorem aluSlt_eq (a b : Word) : aluSlt a b = if a.toInt < b.toInt then 1 else 0 := by
  simp only [aluSlt, BitVec.slt, decide_eq_true_eq]

theorem aluSltn_eq (a b : Word) : aluSltn a b = if a.toNat < b.toNat then 1 else 0 := by
  simp only [aluSltn, BitVec.ult, decide_eq_true_eq]

/-- A count by a fold is the length of a filter. -/
theorem foldl_bitNat (l : List Nat) (g : Nat → Bool) (n : Nat) : l.foldl (fun a i => a + bitNat (g i)) n = n + (l.filter g).length := by
  induction l generalizing n with
  | nil => rfl
  | cons x r ih =>
    rw [List.foldl_cons, ih, List.filter_cons]
    cases hx : g x
    · rfl
    · simp [bitNat]; omega

/-- POPC counts the one bits (R74). -/
theorem aluPopc_eq (a : Word) : aluPopc a = BitVec.ofNat 64 ((List.range 64).filter (fun i => a.getLsbD i)).length := by
  have high : ((List.range 64).map (64 + ·)).filter (fun i => a.toNat.testBit i) = [] := by
    simp only [List.filter_eq_nil_iff, List.mem_map, List.mem_range]
    rintro _ ⟨i, hi, rfl⟩
    rw [BitVec.testBit_toNat, BitVec.getLsbD_of_ge a (64 + i) (by omega), Bool.false_eq_true]
    exact id
  rw [aluPopc, popNat, foldl_bitNat, show (128 : Nat) = 64 + 64 from rfl, List.range_add, List.filter_append, high, List.append_nil, Nat.zero_add]
  rfl

/-- The signed value of the low bits. -/
theorem toInt_mod_eq (w : Nat) (hw : 0 < w) (a : Word) : toInt w (a.toNat % 2 ^ w) = (a.setWidth w).toInt := by
  obtain ⟨k, rfl⟩ := Nat.exists_eq_add_of_lt hw
  have half : (2 : Nat) ^ (0 + k + 1) = 2 * 2 ^ (0 + k + 1 - 1) := by rw [Nat.add_sub_cancel]; ring
  rw [toInt, BitVec.toInt_eq_toNat_cond, BitVec.toNat_setWidth]
  split_ifs <;> push_cast <;> omega

/-- SEXT of a signed type extends the sign (R74). -/
theorem aluExt_signed (q : BitVec 3) (hq : q.toNat < 4) (a : Word) : aluExt q a = (a.setWidth (intWidth q.toNat)).signExtend 64 := by
  have pos : 0 < intWidth q.toNat := by unfold intWidth; positivity
  rw [aluExt, extend, readInt, if_neg (by omega), toInt_mod_eq _ pos]
  rfl

/-! ### The forms -/

@[simp] theorem regNum_setWidth (r : BitVec 5) : regNum (r.setWidth 12) = r := by
  simp [regNum]

/-- Registers alone name no cell of the matrix file. -/
theorem usesOf_scalar {c : Nat} {i : OpInfo} (hd : i.d = .zero ∨ i.d = .sreg) (ha : i.a = .zero ∨ i.a = .sreg) (hb : i.b = .zero ∨ i.b = .sreg)
    (hc : c / 16 = 0x00 ∨ c / 16 = 0x08 ∨ c / 16 = 0x0A ∨ c / 16 = 0x0B ∨ (c / 16 = 0x0E ∧ c % 16 = 0)) (f : Fields) (q : Seq) :
    (usesOf c i f q).all Res.noCell = true := by
  have field : ∀ k : Kind, k = .zero ∨ k = .sreg → ∀ o lanes, (fieldRes k o lanes).all Res.noCell = true := by
    rintro k (rfl | rfl) o lanes
    · rfl
    · simp only [fieldRes, List.all_cons, List.all_nil, Bool.and_true, Res.noCell, decide_eq_true_eq]
      omega
  unfold usesOf
  obtain h | h | h | h | ⟨h, h'⟩ := hc <;> simp [*]

@[simp] theorem State.sreg_setWidth (s : State) (r : BitVec 5) : s.sreg (r.setWidth 12) = s.mySeq.reg r := by
  rw [State.sreg, regNum_setWidth]

/-- A ready instruction of the scalar classes whose body writes one register. -/
theorem putReg_writes {c : Nat} {f : Fields} {s : State} {i : OpInfo} {body : State → Eff} {r : BitVec 5} {v : Word} (hi : opInfo c = some i)
    (hk : i.d = .sreg ∧ i.a = .sreg ∧ (i.b = .zero ∨ i.b = .sreg) ∧ i.runs = .all)
    (hc : c / 16 = 0x08 ∨ c / 16 = 0x0A ∨ c / 16 = 0x0B ∨ (c / 16 = 0x0E ∧ c % 16 = 0)) (hr : regNum f.d = r) (hbody : body s = putReg s f.d v)
    (h : s.ready c f = true) : ∃ t, issued c f body s = .next t ∧ WritesReg s t r v (s.nextPc f) := by
  obtain ⟨hd, ha, hb, runs⟩ := hk
  subst hr
  exact issued_writesReg c i f s hi (by omega) (by omega) (by omega) (usesOf_scalar (.inr hd) (.inr ha) hb (.inr hc) f _) (by rw [runs]; decide)
    body (regNum f.d) v none hbody h

/-- A row with two operands: s[d] := op(s[d], s[a]). -/
theorem twoByte_two {i : BitVec 5 → BitVec 5 → Instr} {c : Nat} {lat : Nat} {op : Word → Word → Word} (op' : Word → Word → Word)
    (he : ∀ d a s, exec (i d a) s = regReg c (expand2 0 d a) op s)
    (hi : opInfo c = some (ctl .sreg .sreg .sreg 0 lat)) (hc : c / 16 = 0x08 ∨ c / 16 = 0x0A) (hop : ∀ a b, op a b = op' a b)
    (d a : BitVec 5) (s : State) (h : s.ready c (expand2 0 d a) = true) :
    ∃ t, exec (i d a) s = .next t ∧ WritesReg s t d (op' (s.mySeq.reg d) (s.mySeq.reg a)) (s.mySeq.pc + 2) := by
  rw [he, ← hop, regReg]
  exact putReg_writes hi ⟨rfl, rfl, .inr rfl, rfl⟩ (by omega) (regNum_setWidth d) (by simp [expand2]) h

/-- A row with one operand: s[d] := op(s[a]). -/
theorem twoByte_one {i : BitVec 5 → BitVec 5 → Instr} {c : Nat} {o : OpInfo} {q : BitVec 3} {op : Word → Word} (op' : Word → Word)
    (he : ∀ d a s, exec (i d a) s = regOne c (expand1 q d a) op s) (hi : opInfo c = some o) (hk : o.d = .sreg ∧ o.a = .sreg ∧ (o.b = .zero ∨ o.b = .sreg) ∧ o.runs = .all)
    (hc : c / 16 = 0x0B ∨ (c / 16 = 0x0E ∧ c % 16 = 0)) (hop : ∀ a, op a = op' a) (d a : BitVec 5) (s : State) (h : s.ready c (expand1 q d a) = true) :
    ∃ t, exec (i d a) s = .next t ∧ WritesReg s t d (op' (s.mySeq.reg a)) (s.mySeq.pc + 2) := by
  rw [he, ← hop, regOne]
  exact putReg_writes hi hk (by omega) (regNum_setWidth d) (by simp [expand1]) h

/-- NOP in 2 bytes. -/
theorem nop2b_moves (d a : BitVec 5) (s : State) (h : s.ready 0x000 (expand1 0 d a) = true) :
    ∃ t, exec (.nop2b d a) s = .next t ∧ OnlyMoves s t (s.mySeq.pc + 2) :=
  issued_onlyMoves 0x000 _ (expand1 0 d a) s rfl (by omega) (by omega) (by omega) (usesOf_scalar (.inl rfl) (.inl rfl) (.inl rfl) (.inl rfl) _ _) (by decide) _ none [] rfl h

/-- Settles O13: row by row of Table 2.6. -/
theorem twoByteForms : Obligations.TwoByteForms := by
  unfold Obligations.TwoByteForms
  refine ⟨nop2b_moves, ?_, ?_⟩
  · simp only [List.forall_mem_cons]
    exact ⟨twoByte_two aluAdd (fun _ _ _ => rfl) rfl (.inl rfl) (fun _ _ => rfl), twoByte_two aluSub (fun _ _ _ => rfl) rfl (.inl rfl) (fun _ _ => rfl),
      twoByte_two aluAnd (fun _ _ _ => rfl) rfl (.inl rfl) (fun _ _ => rfl), twoByte_two aluOr (fun _ _ _ => rfl) rfl (.inl rfl) (fun _ _ => rfl),
      twoByte_two aluXor (fun _ _ _ => rfl) rfl (.inl rfl) (fun _ _ => rfl), twoByte_two aluAndn (fun _ _ _ => rfl) rfl (.inl rfl) (fun _ _ => rfl),
      twoByte_two aluShl (fun _ _ _ => rfl) rfl (.inl rfl) (fun _ _ => rfl), twoByte_two aluShr (fun _ _ _ => rfl) rfl (.inl rfl) (fun _ _ => rfl),
      twoByte_two aluSar (fun _ _ _ => rfl) rfl (.inl rfl) (fun _ _ => rfl), twoByte_two aluRol (fun _ _ _ => rfl) rfl (.inl rfl) (fun _ _ => rfl),
      twoByte_two _ (fun _ _ _ => rfl) rfl (.inl rfl) aluMin_eq, twoByte_two _ (fun _ _ _ => rfl) rfl (.inl rfl) aluMax_eq,
      twoByte_two _ (fun _ _ _ => rfl) rfl (.inl rfl) aluMinn_eq, twoByte_two _ (fun _ _ _ => rfl) rfl (.inl rfl) aluMaxn_eq,
      twoByte_two _ (fun _ _ _ => rfl) rfl (.inl rfl) aluSlt_eq, twoByte_two _ (fun _ _ _ => rfl) rfl (.inl rfl) aluSltn_eq,
      twoByte_two aluMul (fun _ _ _ => rfl) rfl (.inr rfl) (fun _ _ => rfl), twoByte_two aluMulh (fun _ _ _ => rfl) rfl (.inr rfl) (fun _ _ => rfl),
      twoByte_two aluMulhn (fun _ _ _ => rfl) rfl (.inr rfl) (fun _ _ => rfl), twoByte_two aluDiv (fun _ _ _ => rfl) rfl (.inr rfl) (fun _ _ => rfl),
      twoByte_two aluDivn (fun _ _ _ => rfl) rfl (.inr rfl) (fun _ _ => rfl), twoByte_two aluRem (fun _ _ _ => rfl) rfl (.inr rfl) (fun _ _ => rfl),
      twoByte_two aluRemn (fun _ _ _ => rfl) rfl (.inr rfl) (fun _ _ => rfl), List.forall_mem_nil _⟩
  · simp only [List.forall_mem_cons]
    exact ⟨twoByte_one aluClz (fun _ _ _ => rfl) rfl ⟨rfl, rfl, .inl rfl, rfl⟩ (.inl rfl) (fun _ => rfl),
      twoByte_one aluCtz (fun _ _ _ => rfl) rfl ⟨rfl, rfl, .inl rfl, rfl⟩ (.inl rfl) (fun _ => rfl),
      twoByte_one _ (fun _ _ _ => rfl) rfl ⟨rfl, rfl, .inl rfl, rfl⟩ (.inl rfl) aluPopc_eq,
      twoByte_one aluBrev (fun _ _ _ => rfl) rfl ⟨rfl, rfl, .inl rfl, rfl⟩ (.inl rfl) (fun _ => rfl),
      twoByte_one _ (fun _ _ _ => rfl) rfl ⟨rfl, rfl, .inl rfl, rfl⟩ (.inl rfl) (aluExt_signed 0 (by decide)),
      twoByte_one _ (fun _ _ _ => rfl) rfl ⟨rfl, rfl, .inl rfl, rfl⟩ (.inl rfl) (aluExt_signed 1 (by decide)),
      twoByte_one _ (fun _ _ _ => rfl) rfl ⟨rfl, rfl, .inl rfl, rfl⟩ (.inl rfl) (aluExt_signed 2 (by decide)),
      twoByte_one (op := id) id (fun _ _ _ => rfl) rfl ⟨rfl, rfl, .inl rfl, rfl⟩ (.inr ⟨rfl, rfl⟩) (fun _ => rfl),
      List.forall_mem_nil _⟩

end Sys2Proof.Machine
end

section
/-! SUPPORT. The arbitration of a core in one cycle (R94, R95): the rank of its ready instructions, which of them issue, and the turn of a core on which one sequencer alone is ready. -/

namespace Sys2Proof.Machine

/-! ### The sequencers of a node -/

theorem seqNum_injective {a b : SeqId} (h : seqNum a = seqNum b) : a = b := by
  cases a <;> cases b <;> simp_all [seqNum]

theorem seqsOf_nodup (n : Nat) : (seqsOf n).Nodup := by
  unfold seqsOf; split <;> decide

/-! ### Rank (R95) -/

/-- No instruction ranks before itself. -/
theorem State.ranks_irrefl (s : State) (n : Nat) (a : SeqId) : s.ranks n a a = false := by
  cases h : s.promoted n a <;> simp [State.ranks, h]

/-- Of two instructions exactly one ranks before the other: their numbers decide last. -/
theorem State.ranks_total (s : State) (n : Nat) {a b : SeqId} (hab : a ≠ b) : s.ranks n a b = !s.ranks n b a := by
  have hnum : seqNum a ≠ seqNum b := fun h => hab (seqNum_injective h)
  rw [Bool.eq_iff_iff]
  cases ha : s.promoted n a <;> cases hb : s.promoted n b <;> simp [State.ranks, ha, hb] <;> omega

theorem State.ranks_trans (s : State) (n : Nat) {a b c : SeqId} (hab : s.ranks n a b = true) (hbc : s.ranks n b c = true) :
    s.ranks n a c = true := by
  cases ha : s.promoted n a <;> cases hb : s.promoted n b <;> cases hc : s.promoted n c <;>
    simp [State.ranks, ha, hb, hc] at hab hbc ⊢ <;> omega

/-- Of three instructions one has the two others before it. -/
theorem State.ranks_last_of_three (s : State) (n : Nat) {a b c : SeqId} (hab : a ≠ b) (hac : a ≠ c) (hbc : b ≠ c) :
    (s.ranks n b a = true ∧ s.ranks n c a = true) ∨ (s.ranks n a b = true ∧ s.ranks n c b = true) ∨
      (s.ranks n a c = true ∧ s.ranks n b c = true) := by
  have tab := s.ranks_total n hab
  have tac := s.ranks_total n hac
  have tbc := s.ranks_total n hbc
  have t₁ := s.ranks_trans n (a := a) (b := b) (c := c)
  have t₂ := s.ranks_trans n (a := b) (b := a) (c := c)
  cases hba : s.ranks n b a <;> cases hca : s.ranks n c a <;> cases hcb : s.ranks n c b <;> simp_all

/-! ### Which ready instructions issue (R94) -/

/-- A list without duplicates has fewer than two members that a test passes where no two different ones pass it. -/
theorem length_filter_lt_two {α : Type} {l : List α} (hl : l.Nodup) (p : α → Bool) :
    (l.filter p).length < 2 ↔ ∀ a ∈ l, ∀ b ∈ l, a ≠ b → p a = true → p b = false := by
  constructor
  · intro h a ha b hb hab hpa
    by_contra hpb
    have sub : [a, b] ⊆ l.filter p := by simp_all
    have := ((List.nodup_cons.mpr ⟨by simpa using hab, List.nodup_singleton b⟩).subperm sub).length_le
    simp only [List.length_cons, List.length_nil] at this
    omega
  · intro h
    match hf : l.filter p, hl.filter p with
    | [], _ => simp
    | [a], _ => simp
    | a :: b :: r, hn =>
      have ha : a ∈ l.filter p := by simp [hf]
      have hb : b ∈ l.filter p := by simp [hf]
      rw [List.mem_filter] at ha hb
      have hab : a ≠ b := by rintro rfl; simp at hn
      simp [h a ha.1 b hb.1 hab ha.2] at hb

theorem State.mem_picks (s : State) (n : Nat) {ready : List SeqId} (hr : ready.Nodup) (q : SeqId) :
    q ∈ s.picks n ready ↔ q ∈ ready ∧ ∀ a ∈ ready, ∀ b ∈ ready, a ≠ b → s.ranks n a q = true → s.ranks n b q = false := by
  simp only [State.picks, List.mem_filter, decide_eq_true_eq, length_filter_lt_two hr]

/-- At most two instructions issue: of three the last one has two before it. -/
theorem State.length_picks_le (s : State) (n : Nat) {ready : List SeqId} (hr : ready.Nodup) : (s.picks n ready).length ≤ 2 := by
  have hn : (s.picks n ready).Nodup := hr.filter _
  match hp : s.picks n ready, hn with
  | [], _ | [a], _ | [a, b], _ => simp
  | a :: b :: c :: r, hn =>
    exfalso
    obtain ⟨hab, hac, hbc⟩ : a ≠ b ∧ a ≠ c ∧ b ≠ c := by
      refine ⟨?_, ?_, ?_⟩ <;> rintro rfl <;> simp at hn
    obtain ⟨ra, ha⟩ := (s.mem_picks n hr a).mp (by simp [hp])
    obtain ⟨rb, hb⟩ := (s.mem_picks n hr b).mp (by simp [hp])
    obtain ⟨rc, hc⟩ := (s.mem_picks n hr c).mp (by simp [hp])
    obtain ⟨h₁, h₂⟩ | ⟨h₁, h₂⟩ | ⟨h₁, h₂⟩ := s.ranks_last_of_three n hab hac hbc
    · simp [ha b rb c rc hbc h₁] at h₂
    · simp [hb a ra c rc hac h₁] at h₂
    · simp [hc a ra b rb hab h₁] at h₂

/-- What makes an instruction ready, where it has an outcome. -/
theorem State.isReady_iff {s t : State} {n : Nat} {q : SeqId} (h : issueNext (s.as n q) = .next t) (accept : BitVec 4) :
    s.isReady n accept q = true ↔ accept.getLsbD (seqNum q) = true ∧ (s.as n q).nextIsMark = false ∧ (s.as n q).idle = false ∧
      (s.as n q).hintElapsed = true ∧ (s.as n q).hasIssued = false ∧ t.hasIssued = true := by
  simp [State.isReady, State.wouldIssue, h, and_assoc]

/-- An idle sequencer has no ready instruction. -/
theorem State.isReady_of_idle {s : State} {n : Nat} {q : SeqId} (h : (s.as n q).idle = true) (accept : BitVec 4) :
    s.isReady n accept q = false := by
  simp [State.isReady, State.wouldIssue, h]

/-! ### One sequencer after the other -/

/-- Where nothing changes the state, it stays. -/
theorem eachSeq_stays {l : List SeqId} {k : SeqId → State → Host.Outcome State Fault Refusal} {s : State}
    (h : ∀ p ∈ l, k p s = .next s) : eachSeq l k s = .next s := by
  induction l with
  | nil => rfl
  | cons p r ih =>
    rw [eachSeq, h p List.mem_cons_self]
    exact ih (fun q hq => h q (List.mem_cons_of_mem p hq))

/-- Where one sequencer alone changes the state, what it does is all that is done. -/
theorem eachSeq_lone {l : List SeqId} {k : SeqId → State → Host.Outcome State Fault Refusal} {s x : State} {q : SeqId}
    (hl : l.Nodup) (hq : q ∈ l) (hk : k q s = .next x) (h : ∀ p ∈ l, p ≠ q → k p s = .next s ∧ k p x = .next x) :
    eachSeq l k s = .next x := by
  induction l with
  | nil => simp at hq
  | cons p r ih =>
    obtain ⟨hpr, hr⟩ := List.nodup_cons.mp hl
    rw [eachSeq]
    by_cases hp : p = q
    · subst hp
      rw [hk]
      exact eachSeq_stays (fun a ha => (h a (List.mem_cons_of_mem p ha) (by rintro rfl; exact hpr ha)).2)
    · rw [(h p List.mem_cons_self hp).1]
      exact ih hr ((List.mem_cons.mp hq).resolve_left (Ne.symm hp)) (fun a ha => h a (List.mem_cons_of_mem p ha))

/-- Nothing is judged before the instruction of a sequencer whose reel is not due to abort (R208). -/
theorem State.reelJudged_not_due {s : State} {n : Nat} {q : SeqId} (h : q ≠ .cp ∨ s.abortDue n = false) : s.reelJudged n q = s := by
  obtain h | h := h <;> simp [State.reelJudged, h]

theorem State.beforeSeq_idle {s : State} {n : Nat} {q : SeqId} (h : (s.as n q).idle = true) : State.beforeSeq n q s = .next s := by
  simp [State.beforeSeq, h]

/-- Nothing comes before an instruction whose reel is not due to abort and which no notice and no breakpoint meets. -/
theorem State.beforeSeq_none {s : State} {n : Nat} {q : SeqId} (hj : q ≠ .cp ∨ s.abortDue n = false) (hb : (s.as n q).before = none) :
    State.beforeSeq n q s = .next s := by
  simp [State.beforeSeq, State.reelJudged_not_due hj, hb]

section
variable (began : State) (n : Nat) (accept : BitVec 4) (ready picks : List SeqId) {q : SeqId} {s : State}

theorem State.moveSeq_idle (h : (s.as n q).idle = true) : State.moveSeq began n accept ready picks q s = .next s := by
  simp [State.moveSeq, h]

variable (hi : (s.as n q).idle = false) (hh : (s.as n q).hintElapsed = true)
include hi hh

theorem State.moveSeq_picked (hp : q ∈ picks) : State.moveSeq began n accept ready picks q s = issueNext (s.as n q) := by
  simp [State.moveSeq, hi, hh, hp]

variable (hp : q ∉ picks)
include hp

theorem State.moveSeq_passedOver (hr : q ∈ ready) : State.moveSeq began n accept ready picks q s = .next (s.modSeq n q Seq.passedOver) := by
  simp [State.moveSeq, hi, hh, hp, hr]

variable (hr : q ∉ ready)
include hr

theorem State.moveSeq_refused (ha : accept.getLsbD (seqNum q) = false) :
    State.moveSeq began n accept ready picks q s = .next { (s.as n q).endWait with cur := s.cur } := by
  simp [State.moveSeq, hi, hh, hp, hr, ha]

theorem State.moveSeq_waits {u : State} (ha : accept.getLsbD (seqNum q) = true) (hu : issueNext (s.as n q) = .next u) :
    State.moveSeq began n accept ready picks q s = .next (if u.hasIssued && !(s.as n q).nextIsMark then State.noteWait began n q s else u) := by
  simp only [State.moveSeq, hi, hh, hp, hr, ha, hu, andThen, List.contains_eq_mem, decide_false, Bool.not_true, Bool.or_self,
    Bool.false_eq_true, if_false]
  split <;> rfl

end

/-! ### The turn of a core (R94) -/

/-- A lone ready sequencer moves as the current one does. -/
theorem arbitrate_lone {n : Nat} {accept : BitVec 4} {s u x : State} {q : SeqId} (ht : s.turnOf n ≤ n) (hq : q ∈ seqsOf n)
    (hj : q = .cp → (s.turnTaken n).abortDue n = false) (hu : (s.turnTaken n).as n q = u) (hi : u.idle = false) (hb : u.before = none)
    (hh : u.hintElapsed = true) (hn : u.hasIssued = false) (hm : u.nextIsMark = false) (ha : accept.getLsbD (seqNum q) = true)
    (hx : issueNext u = .next x) (hxi : x.hasIssued = true)
    (ho : ∀ p ∈ seqsOf n, p ≠ q → ((s.turnTaken n).as n p).idle = true ∧ (x.as n p).idle = true) :
    arbitrate n accept s = .next { x with cur := s.cur } := by
  subst hu
  have hbefore : eachSeq (seqsOf n) (State.beforeSeq n) (s.turnTaken n) = .next (s.turnTaken n) := by
    refine eachSeq_stays fun p hp => ?_
    by_cases hpq : p = q
    · subst hpq
      exact State.beforeSeq_none (by by_cases h : p = .cp <;> simp_all) hb
    · exact State.beforeSeq_idle (ho p hp hpq).1
  have hready : ∀ p ∈ seqsOf n, p ∈ (seqsOf n).filter ((s.turnTaken n).isReady n accept) → p = q := by
    intro p hp hpr
    by_contra hpq
    simp [State.isReady_of_idle (ho p hp hpq).1] at hpr
  have hpick : q ∈ (s.turnTaken n).picks n ((seqsOf n).filter ((s.turnTaken n).isReady n accept)) := by
    rw [State.mem_picks _ _ ((seqsOf_nodup n).filter _)]
    refine ⟨List.mem_filter.mpr ⟨hq, (State.isReady_iff hx accept).mpr ⟨ha, hm, hi, hh, hn, hxi⟩⟩, ?_⟩
    intro a ha' b hb' hab
    exact absurd ((hready a (List.mem_of_mem_filter ha') ha').trans (hready b (List.mem_of_mem_filter hb') hb').symm) hab
  have hmove : State.moveAll n accept (s.turnTaken n) = .next x :=
    eachSeq_lone (seqsOf_nodup n) hq ((State.moveSeq_picked _ _ _ _ _ hi hh hpick).trans hx)
      (fun p hp hpq => ⟨State.moveSeq_idle _ _ _ _ _ (ho p hp hpq).1, State.moveSeq_idle _ _ _ _ _ (ho p hp hpq).2⟩)
  simp [arbitrate, Nat.not_lt.mpr ht, hbefore, hmove, andThen]

end Sys2Proof.Machine
end

section
/-! SUPPORT. What a fetch leaves: what an instruction at PC had asked for is withdrawn, the error log notes the word, and the sequencers, memory and the stacks stay (R279, R303, R352, Table 19.3). -/

namespace Sys2Proof.Machine

/-! ### Withdrawing what an instruction waits for -/

/-- What a waiting instruction asked for concerns its quadrant, its bay, its package's log and its collective. -/
structure State.OnlyWaits (s t : State) : Prop where
  core : ∀ m, ∃ c, t.core m = { s.core m with clst := c }
  rest : ∃ cs k b p, t = { s with cores := cs, quads := k, bays := b, pkgs := p }

theorem State.OnlyWaits.of_cores {s t : State} (hc : t.cores = s.cores) (hr : ∃ cs k b p, t = { s with cores := cs, quads := k, bays := b, pkgs := p }) :
    s.OnlyWaits t where
  core m := ⟨(s.core m).clst, by unfold State.core; rw [hc]⟩
  rest := hr

theorem State.OnlyWaits.refl (s : State) : s.OnlyWaits s := .of_cores rfl ⟨_, _, _, _, rfl⟩

theorem State.OnlyWaits.trans {s t u : State} (h : s.OnlyWaits t) (g : t.OnlyWaits u) : s.OnlyWaits u where
  core m := by
    obtain ⟨c, hc⟩ := h.core m
    obtain ⟨d, hd⟩ := g.core m
    exact ⟨d, by rw [hd, hc]⟩
  rest := by
    obtain ⟨_, _, _, _, rfl⟩ := h.rest
    obtain ⟨cs, k, b, p, hu⟩ := g.rest
    exact ⟨cs, k, b, p, hu⟩

section
variable {s t : State} (h : s.OnlyWaits t)
include h

theorem State.OnlyWaits.seq (n : Nat) (q : SeqId) : t.seq n q = s.seq n q := by
  obtain ⟨c, hc⟩ := h.core n
  unfold State.seq
  rw [hc]

theorem State.OnlyWaits.cur : t.cur = s.cur := by obtain ⟨_, _, _, _, rfl⟩ := h.rest; rfl
theorem State.OnlyWaits.mem : t.mem = s.mem := by obtain ⟨_, _, _, _, rfl⟩ := h.rest; rfl
theorem State.OnlyWaits.dies : t.dies = s.dies := by obtain ⟨_, _, _, _, rfl⟩ := h.rest; rfl

end

theorem State.notePermit_onlyWaits (s : State) (p : Permit) (kind : PermitKind) : s.OnlyWaits (s.notePermit p kind) :=
  .of_cores rfl ⟨_, _, _, _, rfl⟩

theorem State.notePermits_onlyWaits (s : State) (l : List Permit) (kind : PermitKind) : s.OnlyWaits (s.notePermits l kind) := by
  unfold State.notePermits
  induction l generalizing s with
  | nil => exact .refl s
  | cons p r ih => exact (s.notePermit_onlyWaits p kind).trans (ih _)

theorem State.setQuad_onlyWaits (s : State) (k : Nat) (v : Quad) : s.OnlyWaits (s.setQuad k v) := .of_cores rfl ⟨_, _, _, _, rfl⟩
theorem State.setBay_onlyWaits (s : State) (b : Nat) (v : Bay) : s.OnlyWaits (s.setBay b v) := .of_cores rfl ⟨_, _, _, _, rfl⟩

theorem State.setClst_onlyWaits (s : State) (n : Nat) (a : Option Arrival) : s.OnlyWaits (s.modCore n (fun c => { c with clst := a })) where
  core m := by
    by_cases h : m = n
    · subst h; exact ⟨a, by rw [State.core_modCore_same]⟩
    · exact ⟨(s.core m).clst, by rw [State.core_modCore_other _ _ _ _ h]⟩
  rest := ⟨_, _, _, _, rfl⟩

theorem State.withdrawPermits_onlyWaits (s : State) (n : Nat) (q : SeqId) (clst : Bool) : s.OnlyWaits (s.withdrawPermits n q clst) := by
  unfold State.withdrawPermits
  dsimp only
  split
  · exact (State.setQuad_onlyWaits _ _ _).trans (State.notePermits_onlyWaits _ _ _)
  · exact .refl s

theorem State.leaveLine_onlyWaits (s : State) (n : Nat) (q : SeqId) : s.OnlyWaits (s.leaveLine n q) := by
  unfold State.leaveLine
  dsimp only
  split
  · exact s.setBay_onlyWaits _ _
  · exact .refl s

theorem State.withdraw_onlyWaits (s : State) (n : Nat) (q : SeqId) : s.OnlyWaits (s.withdraw n q) := by
  unfold State.withdraw
  split
  · exact .refl s
  · split
    · exact ((s.setClst_onlyWaits n none).trans (State.withdrawPermits_onlyWaits _ _ _ _)).trans (State.leaveLine_onlyWaits _ _ _)
    · exact (s.withdrawPermits_onlyWaits _ _ _).trans (State.leaveLine_onlyWaits _ _ _)

/-! ### The error log -/

theorem State.noteBad_frame (s : State) (n cause : Nat) (va : Word) : ∃ p, s.noteBad n cause va = { s with pkgs := p } := by
  unfold State.noteBad
  split
  · split <;> exact ⟨_, rfl⟩
  · split <;> exact ⟨_, rfl⟩
  · exact ⟨_, rfl⟩

theorem State.noteFetch_frame (s : State) (cause : Nat) (a : Word) : ∃ p, s.noteFetch cause a = { s with pkgs := p } := by
  unfold State.noteFetch
  split
  · split
    · exact ⟨_, rfl⟩
    · exact s.noteBad_frame _ _ _
  · exact ⟨_, rfl⟩

/-! ### A marked word -/

/-- The state in which the fault of a marked word is taken: what the instruction waited for is withdrawn, the word is to be refilled, and the error log notes it. -/
def State.beforeMark (s : State) (cause : Nat) (a : Word) : State :=
  ((s.withdraw s.node s.me).modMyCore (fun c => { c with icache := Tab.del c.icache s.mySeq.pc.toNat })).noteFetch cause a

theorem State.takeMark_eq (s : State) (cause : Nat) (straddle : Bool) (a : Word) :
    s.takeMark cause straddle a = (s.beforeMark cause a).faultAt s.node s.me cause a s.mySeq.pc straddle := rfl

/-- The sequencers, by number, with the same one current. -/
theorem State.mySeq_congr {s t : State} (hc : t.cur = s.cur) (hs : ∀ n q, t.seq n q = s.seq n q) : t.mySeq = s.mySeq := by
  unfold State.mySeq State.node State.me
  rw [hc]
  exact hs _ _

theorem State.seq_delCached (s : State) (n pc m : Nat) (q : SeqId) :
    (s.modCore n (fun c => { c with icache := Tab.del c.icache pc })).seq m q = s.seq m q := by
  unfold State.seq
  by_cases h : m = n
  · subst h; rw [State.core_modCore_same]
  · rw [State.core_modCore_other _ _ _ _ h]

theorem State.beforeMark_frame (s : State) (cause : Nat) (a : Word) :
    (s.beforeMark cause a).cur = s.cur ∧ (s.beforeMark cause a).mySeq = s.mySeq ∧ (s.beforeMark cause a).mem = s.mem ∧
    (s.beforeMark cause a).bays = (s.withdraw s.node s.me).bays ∧ (s.beforeMark cause a).quads = (s.withdraw s.node s.me).quads ∧
    (s.beforeMark cause a).dies = s.dies := by
  have hw := s.withdraw_onlyWaits s.node s.me
  unfold State.beforeMark
  obtain ⟨p, hp⟩ := State.noteFetch_frame ((s.withdraw s.node s.me).modMyCore (fun c => { c with icache := Tab.del c.icache s.mySeq.pc.toNat })) cause a
  rw [hp]
  exact ⟨hw.cur, State.mySeq_congr hw.cur (fun n q => ((s.withdraw s.node s.me).seq_delCached _ _ n q).trans (hw.seq n q)), hw.mem, rfl, rfl, hw.dies⟩

/-! ### What memory holds at PC (R28, R50, R51) -/

section
variable {s : State} {n : Nat} {pc : Word}

theorem State.fill_fault {cause : Nat} (h : s.fetchFault n pc = some cause) : s.fill n pc = .marked cause false pc := by
  simp [State.fill, h]

theorem State.fill_undefinedPrefix (h : s.fetchFault n pc = none) (hl : lengthOf (s.fetchByte n pc) = none) :
    s.fill n pc = .marked 0x0A false pc := by
  simp [State.fill, h, hl]

/-- The first failing byte of those that a length asks for. -/
theorem State.fetchRest_first {len k cause : Nat} (hk : k < len) (h : ∀ j, j < k → s.fetchFault n (pc + BitVec.ofNat 64 j) = none)
    (hf : s.fetchFault n (pc + BitVec.ofNat 64 k) = some cause) : s.fetchRest n pc len = some (pc + BitVec.ofNat 64 k, cause) := by
  obtain ⟨r, rfl⟩ : ∃ r, len = k + (r + 1) := ⟨len - k - 1, by omega⟩
  unfold State.fetchRest
  rw [List.range_add, List.filterMap_append, List.filterMap_eq_nil_iff.mpr (fun j hj => by simp [h j (List.mem_range.mp hj)]), List.range_succ_eq_map]
  simp [hf]

theorem State.fetchRest_none {len : Nat} (h : ∀ j, j < len → s.fetchFault n (pc + BitVec.ofNat 64 j) = none) : s.fetchRest n pc len = none := by
  unfold State.fetchRest
  rw [List.filterMap_eq_nil_iff.mpr (fun j hj => by simp [h j (List.mem_range.mp hj)])]
  rfl

theorem State.fill_laterByte {len k cause : Nat} (h0 : s.fetchFault n pc = none) (hl : lengthOf (s.fetchByte n pc) = some len) (hk : k < len)
    (h : ∀ j, j < k → s.fetchFault n (pc + BitVec.ofNat 64 j) = none) (hf : s.fetchFault n (pc + BitVec.ofNat 64 k) = some cause) :
    s.fill n pc = if pageOf (pc + BitVec.ofNat 64 k) = pageOf pc then .marked cause false pc else .marked cause true (pageOf (pc + BitVec.ofNat 64 k)) := by
  simp [State.fill, h0, hl, State.fetchRest_first hk h hf]

/-- Where no byte of the instruction fails, its bytes are read. -/
theorem State.fill_bytes {len : Nat} (h : ∀ k, k < len → s.fetchFault n (pc + BitVec.ofNat 64 k) = none) (hl : lengthOf (s.fetchByte n pc) = some len) :
    s.fill n pc = .bytes ((List.range len).map (fun k => s.fetchByte n (pc + BitVec.ofNat 64 k))) := by
  have h0 : s.fetchFault n pc = none := by simpa using h 0 (by rw [lengthOf_eq_some] at hl; omega)
  simp [State.fill, h0, hl, State.fetchRest_none h]

end

/-! ### The next instruction of the current sequencer (R28, R303, R316) -/

section
variable {s : State}

theorem State.nextCached_arrived {a : Arrival} (h : s.arrived = some a) : s.nextCached = .bytes (encodeCore (0xB20 + min a.fn 4) a.fields) := by
  simp [State.nextCached, h]

theorem State.fetchesMemory_arrived {a : Arrival} (h : s.arrived = some a) : s.fetchesMemory = false := by
  simp [State.fetchesMemory, h]

theorem State.fetchesMemory_xo (hx : s.mySeq.xo = true) : s.fetchesMemory = false := by
  simp [State.fetchesMemory, hx]

theorem State.fetchesMemory_kept (hc : Tab.has s.myCore.icache s.mySeq.pc.toNat = true) : s.fetchesMemory = false := by
  simp [State.fetchesMemory, hc]

variable (ha : s.arrived = none)
include ha

theorem State.nextCached_xo (hx : s.mySeq.xo = true) : s.nextCached = .bytes s.mySeq.xoBytes := by
  simp [State.nextCached, ha, hx]

variable (hx : s.mySeq.xo = false)
include hx

theorem State.nextCached_kept (hc : Tab.has s.myCore.icache s.mySeq.pc.toNat = true) :
    s.nextCached = Tab.get s.myCore.icache s.mySeq.pc.toNat (.bytes []) := by
  simp [State.nextCached, ha, hx, hc]

variable (hc : Tab.has s.myCore.icache s.mySeq.pc.toNat = false)
include hc

theorem State.nextCached_memory : s.nextCached = s.fill s.node s.mySeq.pc := by
  simp [State.nextCached, ha, hx, hc]

theorem State.fetchesMemory_memory : s.fetchesMemory = true := by
  simp [State.fetchesMemory, ha, hx, hc]

end

/-! ### What the next instruction does -/

section
variable {s : State}

/-- What does not come from memory has no fetch to count. -/
theorem State.countFetch_elsewhere (h : s.fetchesMemory = false) (t : State) : s.countFetch t = t := by
  simp [State.countFetch, h]

/-- A fetch that meets a PHASE drain stalls (R233). -/
theorem issueNext_drained (hm : s.fetchesMemory = true) (hd : s.fetchDrained s.node s.mySeq.pc = true) : issueNext s = .next (s.stallDrain 1) := by
  simp [issueNext, hm, hd]

variable (hd : s.fetchesMemory = true → s.fetchDrained s.node s.mySeq.pc = false)
include hd

theorem issueNext_marked {cause : Nat} {straddle : Bool} {a : Word} (h : s.nextCached = .marked cause straddle a) :
    issueNext s = .next (s.countFetch ((s.beforeMark cause a).faultAt s.node s.me cause a s.mySeq.pc straddle)) := by
  have hf : s.fetched = .marked cause straddle a := by simp [State.fetched, h]
  unfold issueNext
  rw [if_neg (by simpa using hd), hf]
  rfl

theorem issueNext_undefinedOp {bs : List Byte} {len : Nat} (h : s.nextCached = .bytes bs) (hb : decode bs = .undefinedOpcode len) :
    issueNext s = .next (s.countFetch (s.takeFault 0x01 0)) := by
  have hf : s.fetched = .undefinedOp len := by simp [State.fetched, h, expand, hb]
  unfold issueNext
  rw [if_neg (by simpa using hd), hf]

/-- Bytes that decode to an instruction execute it. -/
theorem issueNext_instr {bs : List Byte} {i : Instr} {len : Nat} (h : s.nextCached = .bytes bs) (hb : decode bs = .instr i len) :
    issueNext s = andThen (exec i s) (fun t => .next (s.countFetch t)) := by
  have hf : s.fetched = .word i len := by simp [State.fetched, h, expand, hb]
  unfold issueNext
  rw [if_neg (by simpa using hd), hf]
  cases he : exec i s <;> simp [andThen, he]

end

/-- An instruction that does not come from memory is executed as it is. -/
theorem issueNext_elsewhere {s : State} {bs : List Byte} {i : Instr} {len : Nat} (hm : s.fetchesMemory = false) (h : s.nextCached = .bytes bs)
    (hb : decode bs = .instr i len) : issueNext s = exec i s := by
  rw [issueNext_instr (by simp [hm]) h hb]
  cases exec i s <;> simp [andThen, State.countFetch_elsewhere hm]

end Sys2Proof.Machine
end

section
/-! PROOFS. The step of a sequencer (R28, R49 to R51, R94, R95, R98): the fault of a fetch that fails, and the instruction that the bytes at PC decode to. -/

namespace Sys2Proof.Machine

/-! ### What a wait notes (R103, R279, R352, R356) -/

theorem State.addAsk_onlyWaits (s : State) (quad : Nat) (p : Permit) : s.OnlyWaits (s.addAsk quad p) :=
  (s.setQuad_onlyWaits _ _).trans (State.notePermit_onlyWaits _ _ _)

theorem State.addAsks_onlyWaits (l : List Permit) (s : State) (quad : Nat) : s.OnlyWaits (l.foldl (fun t p => t.addAsk quad p) s) := by
  induction l generalizing s with
  | nil => exact .refl s
  | cons p r ih => exact (s.addAsk_onlyWaits quad p).trans (ih _)

theorem State.releaseFirst_onlyWaits (s : State) (quad : Nat) (test : Permit → Bool) : s.OnlyWaits (s.releaseFirst quad test) := by
  unfold State.releaseFirst
  dsimp only
  split
  · exact (s.setQuad_onlyWaits _ _).trans (State.notePermit_onlyWaits _ _ _)
  · exact .refl s

/-- An explicit permit's release leaves the sequencer where it is, and memory. -/
theorem State.dropExplicit_frame (s : State) (n : Nat) (q : SeqId) :
    ((s.dropExplicit n q).seq n q).pc = (s.seq n q).pc ∧ ((s.dropExplicit n q).seq n q).regs = (s.seq n q).regs ∧ (s.dropExplicit n q).mem = s.mem := by
  have h := s.releaseFirst_onlyWaits (quadOf n) (fun g => g.node == n && g.seq == q && g.holder == .explicit && !g.waiting)
  unfold State.dropExplicit
  split
  · exact ⟨rfl, rfl, rfl⟩
  · rw [State.seq_modSeq_same, State.releasePermit, h.seq]
    exact ⟨rfl, rfl, h.mem⟩

/-- The wait is the one that began with the cycle; the sequencer stands where it stood. -/
theorem State.noteWait_frame {began v : State} {n : Nat} {q : SeqId} (h : issueNext (began.as n q) = .next v) (s : State) :
    ((State.noteWait began n q s).seq n q).wait = (v.seq n q).wait ∧ ((State.noteWait began n q s).seq n q).pc = (s.seq n q).pc ∧
    ((State.noteWait began n q s).seq n q).regs = (s.seq n q).regs ∧ (State.noteWait began n q s).mem = s.mem := by
  simp only [State.noteWait, h]
  generalize ((v.quad (quadOf n)).asks.filter _) = asks
  generalize hr : (if (s.seq n q).holdsPermit && !(v.seq n q).holdsPermit then s.dropExplicit n q else s) = r
  obtain ⟨pc, regs, mem⟩ : (r.seq n q).pc = (s.seq n q).pc ∧ (r.seq n q).regs = (s.seq n q).regs ∧ r.mem = s.mem := by
    subst hr
    split
    · exact s.dropExplicit_frame n q
    · exact ⟨rfl, rfl, rfl⟩
  have asked := State.addAsks_onlyWaits asks r (quadOf n)
  generalize asks.foldl (fun t p => t.addAsk (quadOf n) p) r = u at asked ⊢
  generalize ht : u.modSeq n q (fun k => { k with wait := (v.seq n q).wait }) = t
  have stands : t.seq n q = { r.seq n q with wait := (v.seq n q).wait } := by rw [← ht, State.seq_modSeq_same, asked.seq]
  have waits : (t.seq n q).wait = (v.seq n q).wait ∧ (t.seq n q).pc = (s.seq n q).pc ∧ (t.seq n q).regs = (s.seq n q).regs ∧ t.mem = s.mem := by
    rw [stands, ← ht]
    exact ⟨rfl, pc, regs, asked.mem.trans mem⟩
  split <;> exact waits

theorem Wait.passed_counts {w v : Wait} (h : w.passed = some v) : v.counts = false := by
  unfold Wait.passed at h
  split at h
  next hk => cases h; obtain hk | hk := hk <;> simp [Wait.counts, hk]
  next =>
    split at h
    next hk => cases h; obtain hk | hk := hk <;> simp [Wait.counts, hk]
    next => cases h

/-! ### A collective that has arrived (R303) -/

theorem codeOf_clst (f : Fields) : codeOf (.clstFadd f) = some (0xB20, f) ∧ codeOf (.clstFmax f) = some (0xB21, f) ∧ codeOf (.clstFmin f) = some (0xB22, f) ∧
    codeOf (.clstIadd f) = some (0xB23, f) ∧ codeOf (.clstImax f) = some (0xB24, f) := ⟨rfl, rfl, rfl, rfl, rfl⟩

/-- The instruction of an arrival is the one whose code it bears. -/
theorem Arrival.codeOf_instr (a : Arrival) : codeOf a.instr = some (0xB20 + min a.fn 4, a.fields) := by
  obtain ⟨fadd, fmax, fmin, iadd, imax⟩ := codeOf_clst a.fields
  unfold Arrival.instr
  split
  next h => rw [fadd, h]; rfl
  next h => rw [fmax, h]; rfl
  next h => rw [fmin, h]; rfl
  next h => rw [iadd, h]; rfl
  next h0 h1 h2 h3 =>
    rw [imax, Nat.min_eq_right (by simp only [imp_false] at h0 h1 h2 h3; omega)]

/-! ### The step -/

/-- Without a turn the current sequencer moves; with nothing before its next instruction and its hint elapsed, it issues. -/
theorem step_issues {s t u : State} (hs : s.turns = []) (ht : s.elapse s.node 1 1 = t) (hi : t.idle = false) (hu : t.reelJudged t.node t.me = u)
    (hb : u.before = none) (hh : u.hintElapsed = true) : step s = issueNext u := by
  subst ht hu
  simp [step, hs, runCurrent, hi, hb, hh]

/-- A turn of a core is its arbitration. -/
theorem step_arbitrates {s : State} {t : Turn} {rest : List Turn} {n : Nat} {accept : BitVec 4} (hs : s.turns = t :: rest) (ht : t.act = .run n accept) :
    step s = arbitrate n accept (({ s with turns := rest, hold := t.hold } : State).elapse n t.dt t.ctrl) := by
  simp [step, hs, ht]

/-- Settles O57: each case is what the stream at PC is filled with, and what a marked word does. -/
theorem fetchFaultsAreTaken : Obligations.FetchFaultsAreTaken := by
  unfold Obligations.FetchFaultsAreTaken
  refine ⟨?_, fun s t u hs ht hi hu hb hh => step_issues hs ht hi hu hb hh, ?_⟩
  · rintro u pc ha hx rfl hc
    have hm := State.fetchesMemory_memory ha hx hc
    have hfill := State.nextCached_memory ha hx hc
    refine ⟨fun hd => issueNext_drained hm hd, fun hd => ?_⟩
    have marked {cause : Nat} {straddle : Bool} {a : Word} (h : u.fill u.node u.mySeq.pc = .marked cause straddle a) :=
      issueNext_marked (fun _ => hd) (hfill.trans h)
    refine ⟨fun cause hf => ?_, fun hf hl => ?_, ?_, ?_⟩
    · exact ⟨_, marked (State.fill_fault hf), u.beforeMark_frame _ _⟩
    · obtain ⟨hcur, hseq, hmem, -⟩ := u.beforeMark_frame 0x0A u.mySeq.pc
      exact ⟨_, marked (State.fill_undefinedPrefix hf hl), hcur, hseq, hmem⟩
    · rintro n k a cause hf hl hk hj rfl hfa
      have hlater := State.fill_laterByte hf hl hk hj hfa
      by_cases hp : pageOf (u.mySeq.pc + BitVec.ofNat 64 k) = pageOf u.mySeq.pc
      · rw [if_pos hp] at hlater
        obtain ⟨hcur, hseq, hmem, -⟩ := u.beforeMark_frame cause u.mySeq.pc
        exact ⟨_, hcur, hseq, hmem, by rw [marked hlater, if_pos hp]⟩
      · rw [if_neg hp] at hlater
        obtain ⟨hcur, hseq, hmem, -⟩ := u.beforeMark_frame cause (pageOf (u.mySeq.pc + BitVec.ofNat 64 k))
        exact ⟨_, hcur, hseq, hmem, by rw [marked hlater, if_neg hp]; rfl⟩
    · intro n hk hl hdec
      exact issueNext_undefinedOp (fun _ => hd) (hfill.trans (State.fill_bytes hk hl)) hdec
  · rintro s t rest nd accept v u x q hs ht rfl hle hq hj hu hi hb hh hn hm ha hx - hxi ho
    rw [step_arbitrates hs ht]
    exact arbitrate_lone hle hq hj hu hi hb hh hn hm ha hx hxi ho

/-- Settles O56: the equations of the step and of the arbiter, and the rank of ready instructions as a strict order. -/
theorem stepRunsDecodedInstruction : Obligations.StepRunsDecodedInstruction := by
  unfold Obligations.StepRunsDecodedInstruction
  refine ⟨?current, ?arrival, ?bytes, fun s t rest nd accept hs ht => step_arbitrates hs ht, ?arbitrated, ?lone, ?atMostTwo, ?picked,
    fun s t n accept q h => State.isReady_iff h accept, ?ranked, ?moved, fun began v s t n q hv ht => ht ▸ State.noteWait_frame hv s, ?passedOver, ?event⟩
  case current =>
    rintro s t u hs ht hi hu
    have moves : step s = runCurrent t := by simp [step, hs, ht]
    refine ⟨fun hj => hu.symm.trans (State.reelJudged_not_due hj), fun v hv => ?_, fun hb hh => step_issues hs ht hi hu hb hh, fun hb hh => ?_⟩
    · simp [moves, runCurrent, hi, hu, hv]
    · simp [moves, runCurrent, hi, hu, hb, hh]
  case arrival =>
    intro u a ha he
    have hc := a.codeOf_instr
    have hf : formCarries (0xB20 + min a.fn 4) a.fields = true := by simpa [encodable, hc] using he
    exact issueNext_elsewhere (State.fetchesMemory_arrived ha) (State.nextCached_arrived ha)
      (by simpa using decode_encodeCore hc hf [])
  case bytes =>
    intro u i n ha
    refine ⟨fun hx hc hd hk hl hdec t ht => ?_, fun bs hx hc hw hdec => ?_, fun hx hdec => ?_⟩
    · have hm := State.fetchesMemory_memory ha hx hc
      rw [issueNext_instr (fun _ => hd) ((State.nextCached_memory ha hx hc).trans (State.fill_bytes hk hl)) hdec, ht]
      exact ⟨fun h => by simp [andThen, State.countFetch, h], fun h => by simp [andThen, State.countFetch, hm, h]⟩
    · exact issueNext_elsewhere (State.fetchesMemory_kept hc) ((State.nextCached_kept ha hx hc).trans hw) hdec
    · exact issueNext_elsewhere (State.fetchesMemory_xo hx) (State.nextCached_xo ha hx) hdec
  case arbitrated => exact fun n accept s h => if_pos h
  case lone =>
    intro n accept s u x q hle hq hj hu hi hb hh hn hm ha hx _ hxi ho
    exact arbitrate_lone hle hq hj hu hi hb hh hn hm ha hx hxi ho
  case atMostTwo => exact fun s n accept => s.length_picks_le n ((seqsOf_nodup n).filter _)
  case picked =>
    intro s n accept q
    rw [s.mem_picks n ((seqsOf_nodup n).filter _)]
    simp only [List.mem_filter]
    constructor
    · rintro ⟨⟨hq, hr⟩, h⟩
      exact ⟨hq, hr, fun a ha b hb hab ra rb => h a ⟨ha, ra⟩ b ⟨hb, rb⟩ hab⟩
    · rintro ⟨hq, hr, h⟩
      exact ⟨⟨hq, hr⟩, fun a ha b hb hab => h a ha.1 b hb.1 hab ha.2 hb.2⟩
  case ranked =>
    intro s n a b
    refine ⟨fun ha hb => ?_, fun ha hb h => ?_, fun ha hb h => ?_, fun ha hb h hn => ?_, fun ha hb h hn => ?_, fun h => s.ranks_total n h, ?_⟩
    · simp [State.ranks, ha, hb]
    · simp [State.ranks, ha, hb, h, Nat.lt_asymm h, Nat.ne_of_lt h]
    · simp [State.ranks, ha, hb, h, Nat.lt_asymm h, Nat.ne_of_gt h]
    · simp [State.ranks, ha, hb, h, hn, Nat.lt_asymm hn]
    · simp [State.ranks, ha, hb, h, hn, Nat.lt_asymm hn]
    · simp [State.promoted]
  case moved =>
    intro began n accept ready picks q s hi hh
    exact ⟨fun hp => State.moveSeq_picked _ _ _ _ _ hi hh hp, fun hp hr => State.moveSeq_passedOver _ _ _ _ _ hi hh hp hr,
      fun hp hr ha => State.moveSeq_refused _ _ _ _ _ hi hh hp hr ha, fun u hp hr ha hu => State.moveSeq_waits _ _ _ _ _ hi hh hp hr ha hu⟩
  case passedOver =>
    refine fun v => ⟨rfl, fun w hw => ?_, rfl⟩
    obtain ⟨w₀, -, hw₀⟩ := Option.bind_eq_some_iff.mp hw
    exact Wait.passed_counts hw₀
  case event =>
    intro s t rest i hs ht
    simp [step, hs, ht]

end Sys2Proof.Machine
end

section
/-! SUPPORT. What a correction leaves as it was: whatever a walk reads (R220, R378). -/

namespace Sys2Proof.Machine

/-- A state that a walk and the map of addresses read alike: it differs in counters of the stacks and in the error logs alone. -/
structure State.ReadsAlike (s t : State) : Prop where
  cores : t.cores = s.cores
  bays  : t.bays = s.bays
  mem   : t.mem = s.mem
  keyed : t.keyed = s.keyed
  bad   : t.bad = s.bad
  weak  : t.weak = s.weak
  fresh : t.fresh = s.fresh
  stack : ∀ k, ∃ r, t.stack k = { s.stack k with sys := r }
  pkg   : ∀ k, ∃ l, t.pkg k = { s.pkg k with errorLog := l }

theorem State.ReadsAlike.refl (s : State) : s.ReadsAlike s := ⟨rfl, rfl, rfl, rfl, rfl, rfl, rfl, fun _ => ⟨_, rfl⟩, fun _ => ⟨_, rfl⟩⟩

theorem State.ReadsAlike.trans {s t u : State} (h : s.ReadsAlike t) (g : t.ReadsAlike u) : s.ReadsAlike u where
  cores := g.cores.trans h.cores
  bays := g.bays.trans h.bays
  mem := g.mem.trans h.mem
  keyed := g.keyed.trans h.keyed
  bad := g.bad.trans h.bad
  weak := g.weak.trans h.weak
  fresh := g.fresh.trans h.fresh
  stack k := by
    obtain ⟨_, h₁⟩ := h.stack k
    obtain ⟨r, h₂⟩ := g.stack k
    exact ⟨r, by rw [h₂, h₁]⟩
  pkg k := by
    obtain ⟨_, h₁⟩ := h.pkg k
    obtain ⟨l, h₂⟩ := g.pkg k
    exact ⟨l, by rw [h₂, h₁]⟩

theorem State.stack_setStack_same (s : State) (k : Nat) (v : Stack) : (s.setStack k v).stack k = v := Tab.get_put_same _ _ _ _

theorem State.stack_setStack_other (s : State) (k j : Nat) (v : Stack) (h : j ≠ k) : (s.setStack k v).stack j = s.stack j :=
  Tab.get_put_other _ _ _ _ _ h

theorem State.correct_readsAlike (s : State) (b : Nat) : s.ReadsAlike (s.correct b) where
  cores := rfl
  bays := rfl
  mem := rfl
  keyed := rfl
  bad := rfl
  weak := rfl
  fresh := rfl
  stack k := by
    change ∃ r, (s.setStack _ _).stack k = _
    by_cases h : k = stackOf (vaultCore (8 * b))
    · subst h; exact ⟨_, State.stack_setStack_same _ _ _⟩
    · exact ⟨_, State.stack_setStack_other _ _ _ _ h⟩
  pkg k := by
    unfold State.correct State.logError
    by_cases h : k = paPkg (8 * b)
    · subst h; exact ⟨_, State.pkg_setPkg_same _ _ _⟩
    · exact ⟨_, State.pkg_setPkg_other _ _ _ _ h⟩

theorem State.corrects_readsAlike (l : List Nat) (s : State) : s.ReadsAlike (l.foldl State.correct s) := by
  induction l generalizing s with
  | nil => exact .refl s
  | cons b r ih => exact (s.correct_readsAlike b).trans (ih _)

section
variable {s t : State} (h : s.ReadsAlike t)
include h

theorem State.ReadsAlike.core (n : Nat) : t.core n = s.core n := by unfold State.core; rw [h.cores]
theorem State.ReadsAlike.seq (n : Nat) (q : SeqId) : t.seq n q = s.seq n q := by unfold State.seq; rw [h.core]
theorem State.ReadsAlike.bay (b : Nat) : t.bay b = s.bay b := by unfold State.bay; rw [h.bays]
theorem State.ReadsAlike.clock (k : Nat) : (t.stack k).clock = (s.stack k).clock := by obtain ⟨_, hk⟩ := h.stack k; rw [hk]
theorem State.ReadsAlike.gatedDom (k d : Nat) : t.gatedDom k d = s.gatedDom k d := by
  obtain ⟨_, hk⟩ := h.stack k
  unfold State.gatedDom
  rw [hk]

/-! ### The registers that a window shows (R217) -/

theorem State.ReadsAlike.leasest (n : Nat) : t.leasest n = s.leasest n := by
  simp only [State.leasest, h.core, h.clock]

theorem State.ReadsAlike.noPlace (num : Nat) : t.noPlace num = s.noPlace num := by
  simp only [State.noPlace, h.fresh]

theorem State.ReadsAlike.readCoreReg (n : Nat) (q : SeqId) (num : Nat) : t.readCoreReg n q num = s.readCoreReg n q num := by
  simp only [State.readCoreReg, h.core, h.seq, h.bay, h.noPlace, h.leasest]

theorem State.ReadsAlike.readReg_window (n : Nat) (q : SeqId) {num : Nat} (hw : windowReg num = true) : t.readReg n q num = s.readReg n q num := by
  unfold windowReg at hw
  unfold State.readReg
  cases hr : regInfo num with
  | none => rfl
  | some r =>
    have home : r.home = .core := by simp_all
    simp only [home, h.readCoreReg]

/-! ### Bytes (R214, R216, R378, R380) -/

theorem State.ReadsAlike.place (pa : Nat) : t.place pa = s.place pa := by
  obtain ⟨l, hl⟩ := h.pkg (paPkg pa)
  have cap : (t.pkg (paPkg pa)).gddrcap = (s.pkg (paPkg pa)).gddrcap := by rw [hl]; rfl
  simp only [State.place, h.gatedDom, h.bay, cap]

theorem State.ReadsAlike.windowByte (n w off : Nat) : t.windowByte n w off = s.windowByte n w off := by
  have reg : (if windowReg (off / 8) then ((t.readReg n .ld (off / 8)) >>> (8 * (off % 8))).setWidth 8 else (0 : Byte)) =
      if windowReg (off / 8) then ((s.readReg n .ld (off / 8)) >>> (8 * (off % 8))).setWidth 8 else 0 := by
    split
    next hw => rw [h.readReg_window n .ld hw]
    next => rfl
  simp only [State.windowByte, h.core, h.mem, reg]

theorem State.ReadsAlike.deviceByte (pkg off : Nat) : t.deviceByte pkg off = s.deviceByte pkg off := by
  obtain ⟨l, hl⟩ := h.pkg pkg
  obtain ⟨l', hl'⟩ := h.pkg (pkgOf (1024 * pkg))
  have boot : t.readPkgReg (1024 * pkg) 0x2C0 = s.readPkgReg (1024 * pkg) 0x2C0 := by
    simp only [State.readPkgReg, hl']
    rfl
  simp only [State.deviceByte, h.core, h.mem, boot, hl]
  rfl

theorem State.ReadsAlike.physByte (key : Option Nat) (pa : Nat) : t.physByte key pa = s.physByte key pa := by
  simp only [State.physByte, h.place, State.plainByte_congr h.mem h.keyed, h.windowByte, h.deviceByte]

theorem State.ReadsAlike.physRead (key : Option Nat) (pa n : Nat) : t.physRead key pa n = s.physRead key pa n := by
  simp only [State.physRead, h.physByte]

theorem State.ReadsAlike.layerRetired (pa : Nat) : t.layerRetired pa = s.layerRetired pa := by
  obtain ⟨l, hl⟩ := h.pkg (paPkg pa)
  simp only [State.layerRetired, hl]

theorem State.ReadsAlike.isBad (pa n : Nat) : t.isBad pa n = s.isBad pa n := by
  simp only [State.isBad, h.bad, h.weak, h.layerRetired]

/-! ### Translation (R219 to R221) -/

theorem State.ReadsAlike.walk (shifts : List Nat) (table va : Nat) : t.walk shifts table va = s.walk shifts table va := by
  induction shifts generalizing table with
  | nil => rfl
  | cons sh rest ih => simp only [State.walk, h.physRead, h.isBad, ih]

theorem State.ReadsAlike.xlate (n : Nat) (va : Word) : t.xlate n va = s.xlate n va := by
  simp only [State.xlate, State.cached, h.core, h.bay, h.walk]

end

end Sys2Proof.Machine
end

section
/-! SUPPORT. What lands, what is cached and what stops (R13, R91, R128, R221, R325, R326): the frames of the operations that the events of a core share. -/

namespace Sys2Proof.Machine

/-! ### Lists and tables -/

/-- Where a member passes the test, one is removed. -/
theorem length_dropFirst {α : Type} (test : α → Bool) {l : List α} (h : l.any test = true) : (dropFirst test l).length + 1 = l.length := by
  induction l with
  | nil => simp at h
  | cons x r ih =>
    unfold dropFirst
    split
    next => rfl
    next hx => simpa using ih (by simpa [hx] using h)

theorem Tab.length_put_le {α : Type} (t : Tab α) (k : Nat) (v : α) : (Tab.put t k v).length ≤ t.length + 1 := by
  induction t with
  | nil => simp [Tab.put]
  | cons p r ih =>
    obtain ⟨k', v'⟩ := p
    unfold Tab.put
    split
    · simp
    · split
      · simp
      · simpa using ih

/-- A key that a sorted table lists is written in its place. -/
theorem Tab.length_put_of_has {α : Type} {t : Tab α} {k : Nat} (v : α) (hs : Tab.sorted t = true) (hk : Tab.has t k = true) :
    (Tab.put t k v).length = t.length := by
  induction t with
  | nil => simp [Tab.has] at hk
  | cons p r ih =>
    obtain ⟨k', v'⟩ := p
    simp only [Tab.sorted, Bool.and_eq_true, List.all_eq_true, decide_eq_true_eq] at hs
    obtain ⟨hlt, hr⟩ := hs
    simp only [Tab.has, List.any_cons, Bool.or_eq_true, beq_iff_eq] at hk
    unfold Tab.put
    by_cases he : k' = k
    · simp [he]
    · have hkr : Tab.has r k = true := hk.resolve_left he
      obtain ⟨x, hx, hxk⟩ := List.any_eq_true.mp hkr
      have : k' < k := by simpa [(beq_iff_eq.mp hxk)] using hlt x hx
      rw [if_neg (by omega), if_neg he]
      simpa using ih hr hkr

/-! ### Results that land (R91, R105, R128) -/

/-- A core that differs in cells of the matrix file only. -/
def Core.onlyCells (c d : Core) : Prop := d = { c with cells := d.cells }

theorem Core.onlyCells_trans {c d e : Core} (h : c.onlyCells d) (g : d.onlyCells e) : c.onlyCells e := by
  unfold Core.onlyCells at *
  rw [g, h]

theorem Core.onlyCells_fold {β : Type} (l : List β) (g : Core → β → Core) (hg : ∀ (c : Core) (x : β), c.onlyCells (g c x)) (c : Core) :
    c.onlyCells (l.foldl g c) := by
  induction l generalizing c with
  | nil => exact rfl
  | cons x r ih => exact Core.onlyCells_trans (hg c x) (ih _)

theorem Core.setLane_onlyCells (c : Core) (o : BitVec 12) (i : Nat) (v : Word) : c.onlyCells (c.setLane o i v) := by
  unfold Core.setLane
  split <;> rfl

theorem Core.land_onlyCells (c : Core) (l : Land) : c.onlyCells (c.land l) := by
  refine Core.onlyCells_fold _ _ (fun c p => ?_) c
  dsimp only
  split <;> exact c.setLane_onlyCells _ _ _

/-- Which tokens are placed does not depend on what else the core holds. -/
theorem Core.place_tok_congr {c d : Core} (ht : c.tok = d.tok) (hr : c.resv = d.resv) (q : SeqId) (l : List (SeqId × Nat)) :
    (c.place q l).tok = (d.place q l).tok := by
  unfold Core.place
  induction l generalizing c d with
  | nil => exact ht
  | cons p r ih =>
    apply ih
    · simp [Core.setTokens, Core.setReserved, Core.tokens, ht]
    · simp [Core.setTokens, Core.setReserved, Core.reserved, hr]

/-- Results that land, and pushes that are placed, touch cells and tokens. -/
theorem Core.landPlace_frame (c : Core) (lands : List Land) (q : SeqId) (pushes : List (SeqId × Nat)) :
    ((lands.foldl Core.land c).place q pushes).cells = (lands.foldl Core.land c).cells ∧
    ((lands.foldl Core.land c).place q pushes).tok = (c.place q pushes).tok ∧
    ((lands.foldl Core.land c).place q pushes).sys = c.sys ∧ ((lands.foldl Core.land c).place q pushes).seqs = c.seqs ∧
    ((lands.foldl Core.land c).place q pushes).snap = c.snap := by
  have hl : c.onlyCells (lands.foldl Core.land c) := Core.onlyCells_fold _ _ Core.land_onlyCells c
  have hp := Core.place_only (lands.foldl Core.land c) q pushes
  have tok := Core.place_tok_congr (c := lands.foldl Core.land c) (d := c) (by rw [hl]) (by rw [hl]) q pushes
  refine ⟨by rw [hp], tok, ?_, ?_, ?_⟩ <;> rw [hp, hl]

theorem Core.addSteps_frame (c : Core) (rc steps : Nat) : ∃ r, c.addSteps rc steps = { c with sys := r } := by
  unfold Core.addSteps
  split
  · exact ⟨c.sys, rfl⟩
  · exact ⟨_, rfl⟩

theorem Core.sysreg_addSteps (c : Core) (rc steps : Nat) :
    (c.addSteps rc steps).sysreg (0x048 + rc) = c.sysreg (0x048 + rc) + BitVec.ofNat 64 steps := by
  unfold Core.addSteps
  split
  next h => simp [h]
  next => rw [Core.sysreg_setSys_same]

/-- A flight retires: its results land, its pushes are placed, its steps are counted, and it is in flight no more (R91, R128). -/
theorem Core.retire_does (c : Core) (q : SeqId) (x : Flight) :
    (c.retire q x).cells = (x.lands.foldl Core.land c).cells ∧ (c.retire q x).tok = (c.place q x.pushes).tok ∧
    (c.retire q x).sysreg (0x048 + x.rc) = c.sysreg (0x048 + x.rc) + BitVec.ofNat 64 x.occ ∧
    ((c.retire q x).seqs.get q).flights = dropFirst (fun y => y.tag == x.tag) (c.seqs.get q).flights := by
  obtain ⟨cells, tok, sys, seqs, -⟩ := c.landPlace_frame x.lands q x.pushes
  obtain ⟨r, hr⟩ := Core.addSteps_frame ((x.lands.foldl Core.land c).place q x.pushes) x.rc x.occ
  have steps := Core.sysreg_addSteps ((x.lands.foldl Core.land c).place q x.pushes) x.rc x.occ
  have old : ((x.lands.foldl Core.land c).place q x.pushes).sysreg (0x048 + x.rc) = c.sysreg (0x048 + x.rc) := by
    unfold Core.sysreg; rw [sys]
  refine ⟨?_, ?_, steps.trans (by rw [old]), ?_⟩
  · change (Core.addSteps _ _ _).cells = _
    rw [hr]; exact cells
  · change (Core.addSteps _ _ _).tok = _
    rw [hr]; exact tok
  · unfold Core.retire
    rw [Core.setSeq_get_same, hr, ← seqs]

/-! ### Words that are cached (R13) -/

/-- The word is kept, and a full cache has given up another. -/
theorem Core.get_cacheWord (c : Core) (fresh : Nat) (pc : Word) (w : Cached) : Tab.get (c.cacheWord fresh pc w).icache pc.toNat (.bytes []) = w :=
  Tab.get_put_same _ _ _ _

theorem Core.length_cacheWord {c : Core} (hl : c.icache.length ≤ 2048) (hs : Tab.sorted c.icache = true) (fresh : Nat) (pc : Word) (w : Cached) :
    (c.cacheWord fresh pc w).icache.length ≤ 2048 := by
  unfold Core.cacheWord
  dsimp only
  split
  next h =>
    obtain h | h := h
    · exact (Tab.length_put_le _ _ _).trans (by omega)
    · rw [Tab.length_put_of_has w hs h]; exact hl
  next h =>
    refine (Tab.length_put_le _ _ _).trans ?_
    have hpos : 0 < c.icache.length := by omega
    rw [List.length_eraseIdx_of_lt (Nat.mod_lt _ hpos)]
    omega

/-- What a fetch leaves beside the word is in no instruction cache and in no memory. -/
theorem State.noteFetched_frame (s : State) (n : Nat) (pc : Word) :
    ((s.noteFetched n pc).core n).icache = (s.core n).icache ∧ (s.noteFetched n pc).mem = s.mem := by
  have counted : ((s.countMisses n (s.fetchAddrs n pc)).core n).icache = (s.core n).icache ∧ (s.countMisses n (s.fetchAddrs n pc)).mem = s.mem := by
    unfold State.countMisses
    split
    · exact ⟨rfl, rfl⟩
    · rw [State.core_modCore_same]; exact ⟨rfl, rfl⟩
  unfold State.noteFetched State.noteAccess
  dsimp only
  split
  · exact counted
  · have same := State.corrects_readsAlike ((s.countMisses n (s.fetchAddrs n pc)).wordsRead n 1 (s.fetchAddrs n pc)) (s.countMisses n (s.fetchAddrs n pc))
    simp only [if_true]
    rw [same.core, same.mem]
    exact counted

/-! ### The stop (R325, R326) -/

/-- One sequencer of a core gives up what it waits for. -/
def State.stopSeq (n : Nat) (t : State) (q : SeqId) : State := (t.withdraw n q).modSeq n q Seq.atStop

/-- Sequencers that have stopped: each waits for nothing, and its core keeps everything but its collective. -/
theorem State.stopSeqs_frame (n : Nat) (l : List SeqId) (s : State) :
    (∃ c, (l.foldl (State.stopSeq n) s).core n = { s.core n with clst := c, seqs := ((l.foldl (State.stopSeq n) s).core n).seqs }) ∧
    (∀ q, (l.foldl (State.stopSeq n) s).seq n q = if q ∈ l then (s.seq n q).atStop else s.seq n q) ∧
    (l.foldl (State.stopSeq n) s).mem = s.mem := by
  induction l generalizing s with
  | nil => exact ⟨⟨_, rfl⟩, fun _ => by simp, rfl⟩
  | cons p r ih =>
    obtain ⟨⟨c, core⟩, seqs, mem⟩ := ih (State.stopSeq n s p)
    have hw := s.withdraw_onlyWaits n p
    obtain ⟨d, hd⟩ := hw.core n
    have first : ∀ q, (State.stopSeq n s p).seq n q = if q = p then (s.seq n q).atStop else s.seq n q := by
      intro q
      unfold State.stopSeq
      split
      next h => subst h; rw [State.seq_modSeq_same, hw.seq]
      next h => rw [State.modSeq, State.seq_setSeq_other _ _ _ _ _ _ (by simp [h]), hw.seq]
    refine ⟨⟨c, ?_⟩, fun q => ?_, mem.trans hw.mem⟩
    · rw [List.foldl_cons, core]
      unfold State.stopSeq
      rw [State.core_modSeq_same, hd]
      rfl
    · rw [List.foldl_cons, seqs q, first q]
      by_cases hq : q = p <;> by_cases hr : q ∈ r <;> simp [hq, hr, Seq.atStop]

theorem snapEntries_congr {c d : Core} (hs : d.snap = c.snap) (hf : d.seqs.cp.flights = c.seqs.cp.flights) : snapEntries d = snapEntries c := by
  unfold snapEntries
  rw [hs, hf]

end Sys2Proof.Machine
end

section
/-! PROOFS. The events of a core and its sequencers (R13, R90, R91, R103, R128, R215, R221, R227, R242, R320, R321, R324 to R329). -/

namespace Sys2Proof.Machine

/-! ### Retiring and performing (R91, R227, R242) -/

theorem exec_instructionRetire {n : Nat} {q : SeqId} {tag : Nat} {s : State} {x : Flight}
    (hx : (s.seq n q).flights.find? (fun y => y.tag == tag) = some x) (hz : (s.core n).freeze = none)
    (hw : (s.seq n q).queue.any (fun st => st.tag == tag) = false)
    (hd : (x.lands = [] ∧ x.timed = false) ∨ reached (s.core n).cycle x.due = true) :
    exec (.instructionRetire n q tag) s = .next (s.modCore n (fun c => c.retire q x)) := by
  change execInstructionRetire n q tag s = _
  have due : ((!x.lands.isEmpty || x.timed) && !reached (s.core n).cycle x.due) = false := by
    obtain ⟨hl, ht⟩ | hr := hd
    · simp [hl, ht]
    · simp [hr]
  simp [execInstructionRetire, hx, hz, hw, due]

/-- The oldest write of a path class may be performed, and whatever may is one of its instruction's. -/
theorem nextStores_oldest (h : Store) (l : List Store) :
    h ∈ nextStores (h :: l) ∧ ∀ st ∈ nextStores (h :: l), st ∈ h :: l ∧ st.tag = h.tag := by
  constructor
  · simp [nextStores]
  · intro st hst
    simp only [nextStores, List.mem_filterMap] at hst
    obtain ⟨⟨x, i⟩, hx, hst⟩ := hst
    have hmem := List.fst_mem_of_mem_zipIdx hx
    rw [List.mem_filter] at hmem
    split at hst
    · cases hst
    · cases hst; exact ⟨hmem.1, by simpa using hmem.2⟩

/-- One of the writes that may be performed is; which one, a free value says. -/
theorem exec_accessPerform {n : Nat} {q : SeqId} {path : Nat} {s : State} {l : List Store}
    (hl : nextStores ((s.seq n q).queue.filter (fun st => st.path == (if path = 0 then Path.vertical else .horizontal))) = l) (hne : l ≠ [])
    (hz : (s.core n).freeze = none) (hd : ∀ st ∈ l, s.drainHit st.addr = false) :
    ∃ st ∈ l, exec (.accessPerform n q path) s =
      .next (((s.modSeq n q (fun k => { k with queue := k.queue.erase st })).performStore st).useFree (decide (1 < l.length))) := by
  have hpos : 0 < l.length := List.length_pos_of_ne_nil hne
  have hlt : (Config.freeWord s.fresh).toNat % max l.length 1 < l.length := by
    rw [Nat.max_eq_left hpos]; exact Nat.mod_lt _ hpos
  refine ⟨l[(Config.freeWord s.fresh).toNat % max l.length 1], List.getElem_mem hlt, ?_⟩
  change execAccessPerform n q path s = _
  simp [execAccessPerform, hl, List.getElem?_eq_getElem hlt, hz, hd _ (List.getElem_mem hlt)]

theorem exec_accessPerform_frozen {n : Nat} {q : SeqId} {path : Nat} {s : State} (hz : (s.core n).freeze.isSome = true) :
    exec (.accessPerform n q path) s = .next s := by
  change execAccessPerform n q path s = _
  unfold execAccessPerform
  dsimp only
  split
  · rfl
  · simp [hz]

/-! ### Waits and breakpoints (R103, R320) -/

theorem exec_waitTimeout {n : Nat} {q : SeqId} {s t : State} {w : Wait} {kind : Nat} {id : Word} (ht : t = ({ s with cur := (n, q) } : State))
    (hi : t.idle = false) (hw : (s.seq n q).wait = some w) (hc : w.counts = true) (he : 2 ^ w.exp ≤ ((s.core n).cycle - w.start).toNat)
    (hs : t.stillWaits = some (kind, id)) : exec (.waitTimeout n q) s = .next { t.timeOut kind id with cur := s.cur } := by
  subst ht
  have waits : ({ s with cur := (n, q) } : State).mySeq.wait = some w := hw
  have limit : w.expired ({ s with cur := (n, q) } : State).myCore.cycle = true := decide_eq_true he
  change execWaitTimeout n q s = _
  simp [execWaitTimeout, State.endWaitAt, waits, hi, hc, limit, hs]

theorem exec_waitTimeout_idle {n : Nat} {q : SeqId} {s t : State} (ht : t = ({ s with cur := (n, q) } : State)) (hs : t.stillWaits = none) :
    exec (.waitTimeout n q) s = .next s := by
  subst ht
  change execWaitTimeout n q s = _
  unfold execWaitTimeout State.endWaitAt
  dsimp only
  split
  · rfl
  · simp [hs]

/-- What a wait at its limit lacks: a token first, then room, then what its instruction waits for (Table 4.10). -/
theorem State.stillWaits_tokens {t : State} {c : Code} {f : Fields} (h : t.nextWord = some (c, f)) :
    (t.myCore.missingPops t.me c f ≠ 0 → t.stillWaits = some (0x01, BitVec.ofNat 64 (t.myCore.missingPops t.me c f))) ∧
    (t.myCore.missingPops t.me c f = 0 → t.myCore.shortPushes t.me (placesOf c f) ≠ 0 →
      t.stillWaits = some (0x02, BitVec.ofNat 64 (t.myCore.shortPushes t.me (placesOf c f)))) ∧
    (t.myCore.missingPops t.me c f = 0 → t.myCore.shortPushes t.me (placesOf c f) = 0 → waitingMeaning c = none → t.stillWaits = none) := by
  refine ⟨fun hp => ?_, fun hp hq => ?_, fun hp hq hm => ?_⟩
  · simp [State.stillWaits, h, hp]
  · simp [State.stillWaits, h, hp, hq]
  · simp [State.stillWaits, h, hp, hq, hm]

theorem exec_hardwareBreakpoint {n : Nat} {q : SeqId} {s t : State} {i : Nat} (ht : t = ({ s with cur := (n, q) } : State)) (hi : t.idle = false)
    (hb : t.breakpoint = some i) : exec (.hardwareBreakpoint n q) s = .next { t.takeBreakpoint i with cur := s.cur } := by
  subst ht
  change execHardwareBreakpoint n q s = _
  simp [execHardwareBreakpoint, hi, hb]

/-! ### What is cached (R13, R28, R215, R221, R233, R378) -/

/-- The state in which a core and its bay keep a translation. -/
def State.keepXlat (s : State) (n : Nat) (e : TlbEntry) : State :=
  let t := s.modCore n (fun c => { c with tlb := addTlb c.tlb e 96 })
  if isDcc n then t else t.setBay (bayOf n) { t.bay (bayOf n) with tlb := addTlb (t.bay (bayOf n)).tlb e 4096 }

section
variable {n : Nat} {va : Word} {s : State} {x : Xlat} (hva : va.toNat < 2 ^ 55) (hc : (s.core n).ctx.isSome = true)
  (ht : (s.core n).tlb.any (fun t => t.covers (s.core n).ctxTag va) = false) (hx : s.xlate n va = some x)
include hva hc ht hx

/-- A walk that ends in a bad physical address keeps nothing. -/
theorem exec_pageWalk_bad (hp : s.place (x.addr va) = .bad) : exec (.pageWalk n va) s = .next (s.noteWalk n va) := by
  have same : s.ReadsAlike (s.noteWalk n va) := State.corrects_readsAlike _ s
  have held : (s.core n).ctx.isNone = false := Option.isNone_eq_false_iff.mpr hc
  change execPageWalk n va s = _
  unfold execPageWalk
  simp only [Nat.div_eq_of_lt hva, held, ht, same.xlate, hx, same.place, hp]
  simp

theorem exec_pageWalk_good (hp : s.place (x.addr va) ≠ .bad) :
    exec (.pageWalk n va) s = .next ((s.noteWalk n va).keepXlat n (x.entry (s.core n).ctxTag va)) := by
  have same : s.ReadsAlike (s.noteWalk n va) := State.corrects_readsAlike _ s
  have held : (s.core n).ctx.isNone = false := Option.isNone_eq_false_iff.mpr hc
  change execPageWalk n va s = _
  unfold execPageWalk
  simp only [Nat.div_eq_of_lt hva, held, ht, same.xlate, hx, same.place, hp]
  simp only [ne_eq, not_true_eq_false, Bool.false_eq_true, or_self, if_false, State.keepXlat, Xlat.entry]

end

theorem State.bay_modCore (s : State) (n : Nat) (g : Core → Core) (b : Nat) : (s.modCore n g).bay b = s.bay b := rfl

theorem State.core_setBay (s : State) (b : Nat) (v : Bay) (n : Nat) : (s.setBay b v).core n = s.core n := rfl

/-- A translation that is kept is the newest of its TLBs, neither of which grows beyond its room. -/
theorem State.keepXlat_keeps (s : State) (n : Nat) (e : TlbEntry) :
    e ∈ ((s.keepXlat n e).core n).tlb ∧ ((s.keepXlat n e).core n).tlb.length ≤ 96 ∧
    (isDcc n = false → e ∈ ((s.keepXlat n e).bay (bayOf n)).tlb ∧ ((s.keepXlat n e).bay (bayOf n)).tlb.length ≤ 4096) := by
  have core : (s.keepXlat n e).core n = { s.core n with tlb := addTlb (s.core n).tlb e 96 } := by
    unfold State.keepXlat
    dsimp only
    split
    · exact State.core_modCore_same _ _ _
    · exact (State.core_setBay _ _ _ _).trans (State.core_modCore_same s n _)
  refine ⟨?_, ?_, fun hd => ?_⟩
  · rw [core]; exact addTlb_mem _ _ (by decide)
  · rw [core]; exact addTlb_length _ _ _
  · have bay : ((s.keepXlat n e).bay (bayOf n)).tlb = addTlb (s.bay (bayOf n)).tlb e 4096 := by
      unfold State.keepXlat
      simp only [hd, Bool.false_eq_true, if_false]
      rw [State.bay_setBay_same, State.bay_modCore]
    rw [bay]
    exact ⟨addTlb_mem _ _ (by decide), addTlb_length _ _ _⟩

theorem State.stack_logError (s : State) (pa : Nat) (kind : ErrorKind) (k : Nat) : (s.logError pa kind).stack k = s.stack k := rfl

/-- One symbol that a walk corrects counts once at its vault's stack. -/
theorem State.noteWalk_counts {n : Nat} {va : Word} {s : State} {b : Nat} (h : s.tablesRead n [va] = [b]) :
    ((s.noteWalk n va).stack (stackOf (vaultCore (8 * b)))).sysreg 0x2C1 = (s.stack (stackOf (vaultCore (8 * b)))).sysreg 0x2C1 + 1 := by
  unfold State.noteWalk
  rw [h, List.foldl_cons, List.foldl_nil]
  unfold State.correct
  rw [State.stack_logError, State.stack_setStack_same]
  exact Tab.get_put_same _ _ _ _

theorem exec_icacheFill {n : Nat} {pc : Word} {s : State} (hc : (s.core n).ctx.isSome = true) (hp : pc.getLsbD 0 = false)
    (hd : s.fetchDrained n pc = false) :
    exec (.icacheFill n pc) s = .next (((s.noteFetched n pc).modCore n (fun c => c.cacheWord s.fresh pc (s.fill n pc))).spend) := by
  have held : (s.core n).ctx.isNone = false := Option.isNone_eq_false_iff.mpr hc
  change execIcacheFill n pc s = _
  unfold execIcacheFill
  rw [if_neg (by simp [-BitVec.getLsbD_eq_getElem, held, hp, hd])]

theorem exec_icacheFill_drained {n : Nat} {pc : Word} {s : State} (hd : s.fetchDrained n pc = true) : exec (.icacheFill n pc) s = .next s := by
  change execIcacheFill n pc s = _
  simp [execIcacheFill, hd]

/-! ### Events, the stop and restored results (R321, R325, R326, R329) -/

theorem exec_eventDeliver {n : Nat} {q : SeqId} {s : State} (he : (s.core n).events.contains q = true) :
    ∃ t, exec (.eventDeliver n q) s = .next t ∧ (t.seq n q).latch = true ∧ (t.core n).events.length + 1 = (s.core n).events.length := by
  refine ⟨_, show execEventDeliver n q s = _ by unfold execEventDeliver; rw [if_pos he], ?_, ?_⟩
  · rw [State.seq_modSeq_same]
  · rw [State.core_modSeq_same, State.core_modCore_same]
    exact length_dropFirst _ (by simpa [List.contains_eq_any_beq, Bool.beq_comm] using he)

/-- A core in no collective has none to combine as it stops. -/
theorem State.combineAtStop_alone {s : State} {n : Nat} (h : (s.core n).clst = none) : s.combineAtStop n = s := by
  have alone : (({ s with hold := true } : State).core n).clst = none := h
  simp [State.combineAtStop, State.combineIf, alone]

/-- A core at the stop: CP's results in flight are in the snapshot buffer, and the reel is to be suspended. -/
def Core.atStop (c : Core) : Core :=
  { c.setSeq .cp { c.seqs.cp with flights := c.seqs.cp.flights.filter (fun x => x.lands.isEmpty) } with
    snap := snapEntries c, paused := some c.cycle, reel := c.reel.map (fun r => { r with suspending := true }) }

theorem Core.atStop_seq (c : Core) (q : SeqId) : ∃ l, c.atStop.seqs.get q = { c.seqs.get q with flights := l } := by
  by_cases hq : q = .cp
  · subst hq; exact ⟨_, rfl⟩
  · exact ⟨_, Core.setSeq_get_other c .cp q _ hq⟩

theorem State.stopIssue_eq {s : State} {n : Nat} (h : (s.core n).clst = none) :
    s.stopIssue n = (allSeqs.foldl (State.stopSeq n) s).modCore n Core.atStop := by
  unfold State.stopIssue
  rw [State.combineAtStop_alone h]
  rfl

/-- The end of a grace stops issue; what has issued stays issued (R325, R326). -/
theorem State.stopIssue_does {s : State} {n : Nat} (h : (s.core n).clst = none) :
    ((s.stopIssue n).core n).paused = some (s.core n).cycle ∧ ((s.stopIssue n).core n).snap = snapEntries (s.core n) ∧
    (∀ q, ((s.stopIssue n).seq n q).wait = none ∧ ((s.stopIssue n).seq n q).remote = (s.seq n q).remote ∧
      ((s.stopIssue n).seq n q).halting = (s.seq n q).halting ∧ ((s.stopIssue n).seq n q).pc = (s.seq n q).pc) ∧
    (s.stopIssue n).mem = s.mem := by
  obtain ⟨⟨c, core⟩, seqs, mem⟩ := State.stopSeqs_frame n allSeqs s
  rw [State.stopIssue_eq h]
  generalize allSeqs.foldl (State.stopSeq n) s = t at *
  have stopped (q : SeqId) : (t.core n).seqs.get q = (s.seq n q).atStop := (seqs q).trans (if_pos (by cases q <;> decide))
  refine ⟨?_, ?_, fun q => ?_, mem⟩
  · rw [State.core_modCore_same, core]
    rfl
  · rw [State.core_modCore_same]
    have flights := congrArg Seq.flights (stopped .cp)
    exact snapEntries_congr (by rw [core]) flights
  · obtain ⟨l, hl⟩ := (t.core n).atStop_seq q
    unfold State.seq
    rw [State.core_modCore_same, hl, stopped q]
    exact ⟨rfl, rfl, rfl, rfl⟩

theorem exec_preemptGraceEnd {n : Nat} {s : State} {k : Notice} (hk : (s.core n).notice = some k) (hr : reached (s.core n).cycle k.ends = true)
    (hp : (s.core n).paused = none) : exec (.preemptGraceEnd n) s = .next (s.stopIssue n) := by
  change execPreemptGraceEnd n s = _
  simp [execPreemptGraceEnd, Core.graceOver, hk, hr, hp]

theorem exec_snapshotLand {n : Nat} {s : State} {x : Flight} (hx : (s.core n).snap.find? (fun x => reached (s.core n).cycle x.due) = some x)
    (hl : (s.core n).live = true) :
    ∃ t, exec (.snapshotLand n) s = .next t ∧ (t.core n).snap = (s.core n).snap.erase x ∧
      (t.core n).cells = (x.lands.foldl Core.land (s.core n)).cells ∧ (t.core n).tok = ((s.core n).place .cp x.pushes).tok ∧
      (t.core n).sysreg (0x048 + x.rc) = (s.core n).sysreg (0x048 + x.rc) + BitVec.ofNat 64 x.occ := by
  obtain ⟨cells, tok, sys, -, snap⟩ := (s.core n).landPlace_frame x.lands .cp x.pushes
  have run : exec (.snapshotLand n) s = .next (s.modCore n (fun c =>
      ({ (x.lands.foldl Core.land c).place .cp x.pushes with snap := ((x.lands.foldl Core.land c).place .cp x.pushes).snap.erase x } : Core).addSteps x.rc x.occ)) := by
    change execSnapshotLand n s = _
    simp [execSnapshotLand, hx, hl]
  refine ⟨_, run, ?_⟩
  rw [State.core_modCore_same]
  generalize hd : (x.lands.foldl Core.land (s.core n)).place .cp x.pushes = d at *
  obtain ⟨r, hr⟩ := Core.addSteps_frame ({ d with snap := d.snap.erase x } : Core) x.rc x.occ
  refine ⟨?_, ?_, ?_, ?_⟩
  · rw [hr]; exact congrArg (·.erase x) snap
  · rw [hr]; exact cells
  · rw [hr]; exact tok
  · rw [Core.sysreg_addSteps]
    unfold Core.sysreg
    rw [← sys]

/-! ### The request of MFP and MTP (R324, R381) -/

section
variable {n : Nat} {q : SeqId} {s t v : State} {r : RemoteReq}

/-- The checks of the target pass. -/
theorem remoteChecked_passes {f : Fields} (ha : (v.sreg f.a).toNat < 4096) (hr : v.reaches v.node (remoteNode v f) = true)
    (hs : v.sealed (remoteNode v f) = false) (k : Nat → SeqId → Eff) : remoteChecked v f k = k (remoteNode v f) (remoteSeq v f) := by
  simp [remoteChecked, Nat.div_eq_of_lt ha, hr, hs]

/-- The answer of a request that has been served ends its instruction (R91, R98, R324). -/
theorem State.answer_done (t : State) (r : RemoteReq) (d : Done) : t.answer r (.done d) =
    (t.commit (remoteCode r.write) { r.fields with pop := 0 } { d with st := d.st.modMyCore (fun k => k.unreserve t.me (pushList r.fields.push)) }).modMe
      (fun k => { k with last := t.mySeq.last }) := rfl

theorem State.answer_trap (t : State) (r : RemoteReq) (cause : Nat) (a : Word) :
    t.answer r (.trap cause a) = (t.recall t.node t.me r).takeFault cause a := rfl

theorem exec_remoteRequestArrive (hq : (s.seq n q).remote = some r) (hz : (s.core n).freeze = none) (hp : (s.pkg (pkgOf n)).runs = true)
    (ht : t = ({ s.modSeq n q (fun k => { k with remote := none }) with cur := (n, q) } : State)) :
    exec (.remoteRequestArrive n q) s =
      .next { t.answer r (if r.write then serveWrite (t.view (remoteCode r.write) r.fields) r.fields
        else serveRead (t.view (remoteCode r.write) r.fields) r.fields) with cur := s.cur } := by
  subst ht
  change execRemoteRequestArrive n q s = _
  simp [execRemoteRequestArrive, hq, hz, hp, State.runBody, State.view]

theorem exec_remoteRequestArrive_frozen (hq : (s.seq n q).remote = some r) (hz : (s.core n).freeze.isSome = true) :
    exec (.remoteRequestArrive n q) s = .next s := by
  change execRemoteRequestArrive n q s = _
  simp [execRemoteRequestArrive, hq, hz]

variable (ha : (v.sreg r.fields.a).toNat < 4096) (hr : v.reaches v.node (remoteNode v r.fields) = true) (hs : v.sealed (remoteNode v r.fields) = false)
include ha hr hs

theorem serveRead_reads : serveRead v r.fields =
    done ((v.useFree (regIsFree (remoteNode v r.fields) (r.fields.x.toNat % 4096))).setReg (regNum r.fields.d)
      (v.readReg (remoteNode v r.fields) (remoteSeq v r.fields) (r.fields.x.toNat % 4096))) := by
  unfold serveRead
  rw [remoteChecked_passes ha hr hs]
  rfl

theorem serveWrite_writes (hrun : (v.seq (remoteNode v r.fields) (remoteSeq v r.fields)).run ≠ .running) (hn : r.fields.x.toNat % 4096 ≠ 0x281) :
    serveWrite v r.fields = .done { st := v.writeReg v.node (remoteNode v r.fields) (remoteSeq v r.fields) (r.fields.x.toNat % 4096) (v.sreg r.fields.d),
                                    wr := some (remoteUses v 0xC71 r.fields) } := by
  unfold serveWrite
  rw [remoteChecked_passes ha hr hs]
  simp [State.mtpAllowed, hrun, hn]

/-- A target that runs is not written. -/
theorem serveWrite_refused (hrun : (v.seq (remoteNode v r.fields) (remoteSeq v r.fields)).run = .running)
    (hn : r.fields.x.toNat % 4096 ≠ 0x281 ∨ (v.core (remoteNode v r.fields)).freeze = none) : serveWrite v r.fields = .trap 0x02 1 := by
  unfold serveWrite
  rw [remoteChecked_passes ha hr hs]
  obtain hn | hn := hn <;> simp [State.mtpAllowed, hrun, hn]

end

/-! ### What a core keeps of a walk and of a fill -/

/-- A walk that ends well is kept by the core and its bay. -/
theorem pageWalk_keeps {n : Nat} {va : Word} {s : State} {x : Xlat} (hva : va.toNat < 2 ^ 55) (hc : (s.core n).ctx.isSome = true)
    (ht : (s.core n).tlb.any (fun t => t.covers (s.core n).ctxTag va) = false) (hx : s.xlate n va = some x) (hp : s.place (x.addr va) ≠ .bad) :
    ∃ t e, exec (.pageWalk n va) s = .next t ∧ e ∈ (t.core n).tlb ∧ e.covers (s.core n).ctxTag va = true ∧ e.perm = x.perm ∧
      (t.core n).tlb.length ≤ 96 ∧ (isDcc n = false → e ∈ (t.bay (bayOf n)).tlb ∧ (t.bay (bayOf n)).tlb.length ≤ 4096) := by
  obtain ⟨mine, room, bay⟩ := (s.noteWalk n va).keepXlat_keeps n (x.entry (s.core n).ctxTag va)
  have covers : (x.entry (s.core n).ctxTag va).covers (s.core n).ctxTag va = true := by simp [TlbEntry.covers, Xlat.entry]
  exact ⟨(s.noteWalk n va).keepXlat n (x.entry (s.core n).ctxTag va), x.entry (s.core n).ctxTag va, exec_pageWalk_good hva hc ht hx hp,
    mine, covers, rfl, room, bay⟩

theorem State.core_spend (s : State) (n : Nat) : s.spend.core n = s.core n := rfl

theorem icacheFill_keeps {n : Nat} {pc : Word} {s : State} (hc : (s.core n).ctx.isSome = true) (hp : pc.getLsbD 0 = false)
    (hd : s.fetchDrained n pc = false) :
    ∃ t, exec (.icacheFill n pc) s = .next t ∧ Tab.get (t.core n).icache pc.toNat (.bytes []) = s.fill n pc ∧
      ((s.core n).icache.length ≤ 2048 → Tab.sorted (s.core n).icache = true → (t.core n).icache.length ≤ 2048) ∧ t.mem = s.mem := by
  obtain ⟨cache, mem⟩ := s.noteFetched_frame n pc
  have core : (((s.noteFetched n pc).modCore n (fun c => c.cacheWord s.fresh pc (s.fill n pc))).spend.core n) =
      ((s.noteFetched n pc).core n).cacheWord s.fresh pc (s.fill n pc) :=
    (State.core_spend _ n).trans (State.core_modCore_same (s.noteFetched n pc) n _)
  refine ⟨_, exec_icacheFill hc hp hd, ?_, fun hl hs => ?_, mem⟩
  · rw [core]
    exact Core.get_cacheWord _ _ _ _
  · rw [core]
    exact Core.length_cacheWord (by rw [cache]; exact hl) (by rw [cache]; exact hs) _ _ _

/-! ### The settlement -/

/-- Settles O48: each event by its own equation, with the frames of what it does. -/
theorem coreEvents : Obligations.CoreEvents := by
  unfold Obligations.CoreEvents
  refine ⟨?retire, ?perform, nextStores_oldest, fun n q path s hz => exec_accessPerform_frozen hz, ?timeout, fun t c f h => State.stillWaits_tokens h,
    fun n q s t ht hs => exec_waitTimeout_idle ht hs, fun n q s t i ht hi hb => exec_hardwareBreakpoint ht hi hb, fun n va s x hva hc ht hx => ⟨exec_pageWalk_bad hva hc ht hx, pageWalk_keeps hva hc ht hx⟩, ?counts,
    fun n pc s hc hp hd => icacheFill_keeps hc hp hd,
    fun n pc s hd => exec_icacheFill_drained hd, fun n q s he => exec_eventDeliver he, ?stop, fun n s x hx hl => exec_snapshotLand hx hl, ?remote,
    fun n q s r hq hz => exec_remoteRequestArrive_frozen hq hz⟩
  case retire =>
    intro n q tag s x hx hz hw hd
    obtain ⟨cells, tok, steps, flights⟩ := (s.core n).retire_does q x
    obtain ⟨rfl⟩ : x.tag = tag := by simpa using List.find?_some hx
    refine ⟨_, exec_instructionRetire hx hz hw hd, ?_, ?_, ?_, ?_, rfl⟩
    · unfold State.seq
      rw [State.core_modCore_same, flights]
      exact length_dropFirst _ (List.any_eq_true.mpr ⟨x, List.mem_of_find?_eq_some hx, by simp⟩)
    all_goals rw [State.core_modCore_same]; assumption
  case perform =>
    rintro n q path p s l rfl hl hne hz hd
    exact exec_accessPerform hl hne hz hd
  case timeout =>
    intro n q s t w kind id ht hi hw hc he hs
    exact ⟨_, exec_waitTimeout ht hi hw hc he hs⟩
  case counts =>
    intro n va s b h
    obtain ⟨cores, mem, -, -⟩ := s.noteWalk_frame n va
    exact ⟨_, rfl, State.noteWalk_counts h, cores, mem⟩
  case stop =>
    intro n s k _ hk hr hp hc
    exact ⟨_, exec_preemptGraceEnd hk hr hp, State.stopIssue_does hc⟩
  case remote =>
    rintro n q s r t v m num w hq hz hp ht rfl rfl rfl ha hr hs
    have arrives := exec_remoteRequestArrive hq hz hp ht
    refine ⟨?_, ?_, ?_⟩
    · rintro u hw hv rfl
      rw [arrives, hw]
      simp only [remoteCode, Bool.false_eq_true, if_false]
      rw [hv, serveRead_reads ha hr hs, done, State.answer_done, hw]
      simp only [remoteCode, Bool.false_eq_true, if_false]
    · rintro u hw hv hrun hn rfl
      rw [arrives, hw]
      simp only [remoteCode, if_true]
      rw [hv, serveWrite_writes ha hr hs hrun hn, State.answer_done, hw]
      simp only [remoteCode, if_true]
    · intro hw hv hrun hn
      rw [arrives, hw]
      simp only [remoteCode, if_true]
      rw [hv, serveWrite_refused ha hr hs hrun hn, State.answer_trap]
      subst ht
      rfl

end Sys2Proof.Machine
end

section
/-! SUPPORT. An instruction in whatever form: what it does is what the body of its core instruction answers on the state that it reads (R27, R34, R35, R97). -/

namespace Sys2Proof.Machine

/-- What issues a core instruction, in its own form or in a short one, does what that instruction does (R27, R34, R35). -/
theorem exec_eq_coreOf {i j : Instr} {c : Code} {f : Fields} (h : Issues i c f) (hj : coreOf c f = some j) (s : State) : exec i s = exec j s := by
  cases i <;> cases h <;> cases hj <;> rfl

section
variable {i j : Instr} {c : Code} {f : Fields} {s v : State} {body : State → Eff} (h : Issues i c f) (hj : coreOf c f = some j)
  (he : exec j s = issued c f body s) (hr : s.ready c f = true) (hv : s.view c f = v)
include h hj he hr hv

theorem does_of_body {d : Done} (hb : body v = .done d) : Does i c f s d := by
  subst hv
  exact issued_does ((exec_eq_coreOf h hj s).trans he) hr hb

theorem fault_of_body {cause : Nat} {a : Word} (hb : body v = .trap cause a) : exec i s = .next (s.takeFault cause a) := by
  subst hv
  exact ((exec_eq_coreOf h hj s).trans he).trans (issued_trap hr hb)

end

end Sys2Proof.Machine
end

section
/-! SUPPORT. The matrix file by lanes: which cells a lane has, what a lane reads after a write, what results that land leave, and the exchange of two operands (R13, R29, R30, R105, R108, R109, R117). -/

namespace Sys2Proof.Machine

/-! ### The cells of a lane (R13, R29, R30) -/

/-- An operand whose lanes lie apart: no broadcast, and a pair only of rows or of columns. -/
structure Lined (o : BitVec 12) : Prop where
  file  : opBcast o = false
  pairs : opPair o = true → opDir o < 2

theorem laneCells_single {o : BitVec 12} (hf : opBcast o = false) (hp : opPair o = false) (i : Nat) : laneCells o i = [cellAt (opDir o) (opIndex o) i] := by
  simp [laneCells, hf, hp]

theorem laneCells_pair {o : BitVec 12} (hf : opBcast o = false) (hp : opPair o = true) (i : Nat) :
    laneCells o i = [cellAt (opDir o) (opIndex o) i, cellAt (opDir o) (opIndex o + 1) i] := by
  simp [laneCells, hf, hp]

theorem cellAt_injective {dir n i j : Nat} (h : cellAt dir n i = cellAt dir n j) : i = j := by
  unfold cellAt at h
  split at h <;> omega

/-- The direction of a pair: rows or columns. -/
theorem Lined.rows_or_columns {o : BitVec 12} (h : Lined o) (hp : opPair o = true) : opDir o = 0 ∨ opDir o = 1 := by
  have := h.pairs hp
  omega

theorem Lined.low_ne_high {o : BitVec 12} (h : Lined o) (hp : opPair o = true) (i : Nat) :
    cellAt (opDir o) (opIndex o + 1) i ≠ cellAt (opDir o) (opIndex o) i := by
  obtain hd | hd := h.rows_or_columns hp <;> rw [hd] <;> simp only [cellAt] <;> omega

/-- A cell lies on one lane of an operand at most. -/
theorem Lined.lane_unique {o : BitVec 12} (h : Lined o) {i j k : Nat} (hi : i < 128) (hj : j < 128) (hki : k ∈ laneCells o i) (hkj : k ∈ laneCells o j) : i = j := by
  cases hp : opPair o
  · rw [laneCells_single h.file hp, List.mem_singleton] at hki hkj
    exact cellAt_injective (hki.symm.trans hkj)
  · rw [laneCells_pair h.file hp, List.mem_pair] at hki hkj
    obtain hd | hd := h.rows_or_columns hp <;> simp only [hd, cellAt] at hki hkj <;> omega

/-! ### Cells and lanes as words (R30, R108) -/

theorem halves_join (v : Word) : (v.setWidth 32).setWidth 64 ||| ((v >>> 32).setWidth 32 : W32).setWidth 64 <<< 32 = v := by
  ext i hi
  by_cases h : i < 32
  · simp [h, hi]
  · simp [h, hi, show i - 32 < 32 by omega, show 32 + (i - 32) = i by omega]

theorem low_of_join (a b : W32) : (a.setWidth 64 ||| b.setWidth 64 <<< 32 : Word).setWidth 32 = a := by
  ext i hi
  simp

theorem high_of_join (a b : W32) : ((a.setWidth 64 ||| b.setWidth 64 <<< 32 : Word) >>> 32).setWidth 32 = b := by
  ext i hi
  simp [hi, show 32 + i < 64 by omega, show i < 64 by omega]

section
variable {c d : Core} {o : BitVec 12} {i : Nat}

/-- A lane is decided by its cells. -/
theorem Core.laneWord_congr (hf : opBcast o = false) (h : ∀ k ∈ laneCells o i, d.cell k = c.cell k) : d.laneWord o i = c.laneWord o i := by
  unfold Core.laneWord
  cases hp : opPair o
  · rw [laneCells_single hf hp] at h
    simp [h]
  · rw [laneCells_pair hf hp] at h
    simp [h]

/-- And decides them. -/
theorem Core.cell_of_laneWord (hf : opBcast o = false) (h : d.laneWord o i = c.laneWord o i) {k : Nat} (hk : k ∈ laneCells o i) : d.cell k = c.cell k := by
  unfold Core.laneWord at h
  cases hp : opPair o
  · rw [laneCells_single hf hp, List.mem_singleton] at hk
    subst hk
    simpa [hp] using congrArg (BitVec.setWidth 32) h
  · rw [laneCells_pair hf hp, List.mem_pair] at hk
    simp only [hp, if_true] at h
    obtain rfl | rfl := hk
    · simpa [low_of_join] using congrArg (BitVec.setWidth 32) h
    · simpa [high_of_join] using congrArg (fun v : Word => (v >>> 32).setWidth 32) h

/-- Operands that name the same cells in a lane read the same there. -/
theorem Core.laneWord_of_laneCells {a : BitVec 12} (hf : opBcast o = false) (ha : opBcast a = false) (h : laneCells o i = laneCells a i) (c : Core) :
    c.laneWord o i = c.laneWord a i := by
  unfold Core.laneWord
  cases hp : opPair o <;> cases hq : opPair a <;> simp_all [laneCells]

/-- A lane of single cells holds 32 bits. -/
theorem Core.laneWord_lt (hp : opPair o = false) (c : Core) (i : Nat) : (c.laneWord o i).toNat < 2 ^ 32 := by
  simp only [Core.laneWord, hp, Bool.false_eq_true, if_false, BitVec.toNat_setWidth]
  exact (Nat.mod_le _ _).trans_lt (BitVec.isLt _)

theorem Core.cell_setLane_other (hf : opBcast o = false) (v : Word) {k : Nat} (hk : k ∉ laneCells o i) : (c.setLane o i v).cell k = c.cell k := by
  unfold Core.setLane
  cases hp : opPair o
  · rw [laneCells_single hf hp, List.mem_singleton] at hk
    rw [if_neg (by decide), Core.cell_setCell_other _ _ _ _ hk]
  · rw [laneCells_pair hf hp, List.mem_pair, not_or] at hk
    rw [if_pos rfl, Core.cell_setCell_other _ _ _ _ hk.2, Core.cell_setCell_other _ _ _ _ hk.1]

/-- A lane reads back what was written, where it holds that many bits. -/
theorem Core.laneWord_setLane_same (h : Lined o) {v : Word} (hv : opPair o = true ∨ v.toNat < 2 ^ 32) : (c.setLane o i v).laneWord o i = v := by
  unfold Core.setLane Core.laneWord
  cases hp : opPair o
  · simp only [Bool.false_eq_true, if_false, Core.cell_setCell_same]
    apply BitVec.eq_of_toNat_eq
    have small : v.toNat < 2 ^ 32 := hv.resolve_left (by simp [hp])
    rw [BitVec.toNat_setWidth, BitVec.toNat_setWidth, Nat.mod_eq_of_lt small, Nat.mod_eq_of_lt v.isLt]
  · simp only [if_true, Core.cell_setCell_same, Core.cell_setCell_other _ _ _ _ (h.low_ne_high hp i).symm]
    exact halves_join v

end

/-! ### Results that land (R105, R108) -/

/-- Results for the lanes of a list, each with its word. -/
def laneLand (o : BitVec 12) (w : Nat) (e : Bool) (l : List Nat) (u : Nat → Word) : Land :=
  { field := o, width := w, e := e, lanes := l.map (fun j => (j, u j)) }

theorem changeLanes_eq (o : BitVec 12) (w : Nat) (l : List Nat) (old new : Nat → Nat) :
    changeLanes o w (l.map (fun j => (j, old j, new j))) = laneLand o w false l (fun j => BitVec.ofNat 64 (old j ^^^ new j)) := by
  simp [changeLanes, laneLand, Function.comp_def]

theorem lowBits_lt (w : Nat) (v : Word) : (lowBits w v).toNat < 2 ^ w := by
  unfold lowBits
  rw [BitVec.toNat_ofNat]
  exact (Nat.mod_le _ _).trans_lt (Nat.mod_lt _ (Nat.two_pow_pos w))

/-- What a lane that held old becomes. -/
def landed (w : Nat) (e : Bool) (old v : Word) : Word := if e then lowBits w v else old ^^^ lowBits w v

section
variable {o : BitVec 12} {w : Nat} {e : Bool} {u : Nat → Word}

theorem Core.land_cons (c : Core) (j : Nat) (l : List Nat) :
    c.land (laneLand o w e (j :: l) u) = (c.setLane o j (landed w e (c.laneWord o j) (u j))).land (laneLand o w e l u) := by
  cases e <;> rfl

/-- What lands fits its lane. -/
theorem landed_fits (hw : opPair o = true ∨ w ≤ 32) (c : Core) (j : Nat) (v : Word) :
    opPair o = true ∨ (landed w e (c.laneWord o j) v).toNat < 2 ^ 32 := by
  cases hp : opPair o
  · have low : (lowBits w v).toNat < 2 ^ 32 := (lowBits_lt w v).trans_le (Nat.pow_le_pow_right (by omega) (hw.resolve_left (by simp [hp])))
    refine .inr ?_
    unfold landed
    split
    · exact low
    · rw [BitVec.toNat_xor]
      exact Nat.xor_lt_two_pow (c.laneWord_lt hp j) low
  · exact .inl rfl

/-- Results that land leave every cell that is no cell of their lanes. -/
theorem Core.cell_land_other (hf : opBcast o = false) {k : Nat} {l : List Nat} (hk : ∀ j ∈ l, k ∉ laneCells o j) (c : Core) :
    (c.land (laneLand o w e l u)).cell k = c.cell k := by
  induction l generalizing c with
  | nil => rfl
  | cons j r ih =>
    rw [Core.land_cons, ih (fun x hx => hk x (List.mem_cons_of_mem j hx)), Core.cell_setLane_other hf _ (hk j List.mem_cons_self)]

/-- A lane of an operand none of whose cells is a cell of the results keeps its word. -/
theorem Core.laneWord_land_other (hf : opBcast o = false) {a : BitVec 12} (ha : opBcast a = false) {i : Nat} {l : List Nat}
    (h : ∀ j ∈ l, ∀ k ∈ laneCells a i, k ∉ laneCells o j) (c : Core) : (c.land (laneLand o w e l u)).laneWord a i = c.laneWord a i :=
  Core.laneWord_congr ha (fun k hk => Core.cell_land_other hf (fun j hj => h j hj k hk) c)

/-- Each lane of the results becomes what lands in it; of the lanes of that operand the others keep their words. -/
theorem Core.laneWord_land (h : Lined o) (hw : opPair o = true ∨ w ≤ 32) {l : List Nat} (hl : l.Nodup) (hlt : ∀ j ∈ l, j < 128) (c : Core) {i : Nat} (hi : i < 128) :
    (c.land (laneLand o w e l u)).laneWord o i = if i ∈ l then landed w e (c.laneWord o i) (u i) else c.laneWord o i := by
  have apart : ∀ j ∈ l, j ≠ i → ∀ k ∈ laneCells o i, k ∉ laneCells o j := fun j hj hne k hki hkj => hne (h.lane_unique (hlt j hj) hi hkj hki)
  induction l generalizing c with
  | nil => rfl
  | cons j r ih =>
    obtain ⟨hjr, hr⟩ := List.nodup_cons.1 hl
    have hltr : ∀ x ∈ r, x < 128 := fun x hx => hlt x (List.mem_cons_of_mem j hx)
    have apartr : ∀ x ∈ r, x ≠ i → ∀ k ∈ laneCells o i, k ∉ laneCells o x := fun x hx => apart x (List.mem_cons_of_mem j hx)
    rw [Core.land_cons, ih hr hltr _ apartr]
    by_cases hij : i = j
    · subst hij
      rw [if_neg hjr, if_pos List.mem_cons_self, Core.laneWord_setLane_same h (landed_fits hw c i _)]
    · have kept : ∀ v, (c.setLane o j v).laneWord o i = c.laneWord o i := fun v =>
        Core.laneWord_congr h.file (fun k hk => Core.cell_setLane_other h.file v (apart j List.mem_cons_self (Ne.symm hij) k hk))
      simp only [kept, List.mem_cons, hij, false_or]

end

/-- What lands depends on the cells alone. -/
theorem Core.land_cells_congr {c d : Core} (h : c.cells = d.cells) (l : Land) : (c.land l).cells = (d.land l).cells := by
  unfold Core.land
  induction l.lanes generalizing c d with
  | nil => exact h
  | cons p r ih =>
    apply ih
    have word : c.laneWord l.field p.1 = d.laneWord l.field p.1 := by unfold Core.laneWord Core.cell; rw [h]
    simp only [word, Core.setLane, Core.setCell]
    split <;> split <;> simp only [h]

theorem Core.lands_cells_congr {c d : Core} (h : c.cells = d.cells) (l : List Land) : (l.foldl Core.land c).cells = (l.foldl Core.land d).cells := by
  induction l generalizing c d with
  | nil => exact h
  | cons x r ih => exact ih (Core.land_cells_congr h x)

theorem Core.laneWord_of_cells {c d : Core} (h : c.cells = d.cells) (o : BitVec 12) (i : Nat) : c.laneWord o i = d.laneWord o i := by
  unfold Core.laneWord Core.cell; rw [h]

theorem Core.cell_of_cells {c d : Core} (h : c.cells = d.cells) (k : Nat) : c.cell k = d.cell k := by
  unfold Core.cell; rw [h]

/-! ### Low and upper bits under XOR (R105, R108) -/

theorem toNat_xor_ofNat_mod (v : Word) {x w : Nat} (hw : w ≤ 64) (hx : x < 2 ^ w) : (v ^^^ BitVec.ofNat 64 x).toNat % 2 ^ w = v.toNat % 2 ^ w ^^^ x := by
  have fits : x < 2 ^ 64 := hx.trans_le (Nat.pow_le_pow_right (by omega) hw)
  rw [BitVec.toNat_xor, BitVec.toNat_ofNat, Nat.mod_eq_of_lt fits, Nat.xor_mod_two_pow, Nat.mod_eq_of_lt hx]

theorem toNat_xor_ofNat_div (v : Word) {x w : Nat} (hw : w ≤ 64) (hx : x < 2 ^ w) : (v ^^^ BitVec.ofNat 64 x).toNat / 2 ^ w = v.toNat / 2 ^ w := by
  have fits : x < 2 ^ 64 := hx.trans_le (Nat.pow_le_pow_right (by omega) hw)
  rw [BitVec.toNat_xor, BitVec.toNat_ofNat, Nat.mod_eq_of_lt fits, ← Nat.shiftRight_eq_div_pow, Nat.shiftRight_xor_distrib, Nat.shiftRight_eq_div_pow x,
    Nat.div_eq_of_lt hx, Nat.xor_zero, Nat.shiftRight_eq_div_pow]

theorem lowBits_ofNat {x w : Nat} (hw : w ≤ 64) (hx : x < 2 ^ w) : lowBits w (BitVec.ofNat 64 x) = BitVec.ofNat 64 x := by
  have fits : x < 2 ^ 64 := hx.trans_le (Nat.pow_le_pow_right (by omega) hw)
  rw [lowBits, BitVec.toNat_ofNat, Nat.mod_eq_of_lt fits, Nat.mod_eq_of_lt hx]

end Sys2Proof.Machine
end

section
/-! SUPPORT. Exchanges of two operands (R117), and what an instruction leaves whose results land as it issues (R91, R105). -/

namespace Sys2Proof.Machine

/-! ### Exchanges (R117) -/

theorem laneMeets_iff (d a : BitVec 12) (j : Nat) : laneMeets d a j = true ↔ ∃ k ∈ laneCells d j, k ∈ laneCells a j := by
  simp [laneMeets]

/-- A source is read in its w bits. -/
theorem State.srcLane_lt (s : State) (o : BitVec 12) (w j : Nat) : s.srcLane o w j < 2 ^ w := by
  unfold State.srcLane
  split <;> exact Nat.mod_lt _ (Nat.two_pow_pos w)

theorem State.srcLane_file {o : BitVec 12} (h : opBcast o = false) (v : State) (w j : Nat) : v.srcLane o w j = (v.myCore.laneWord o j).toNat % 2 ^ w := by
  simp [State.srcLane, h]

/-- Operands of w bits that can be exchanged on their first n lanes: no lane of the one shares a cell with another lane of the other, and lanes of one number share all their cells or none. -/
structure Exchangeable (d a : BitVec 12) (w n : Nat) : Prop where
  dst   : Lined d
  src   : Lined a
  wide  : w ≤ 64
  dfits : opPair d = true ∨ w ≤ 32
  afits : opPair a = true ∨ w ≤ 32
  room  : n ≤ 128
  apart : ∀ j k, j < n → k < n → (∀ x ∈ laneCells d j, x ∉ laneCells a k) ∨ (j = k ∧ laneCells d j = laneCells a j)

/-- What an exchange XORs into lane j of both operands. -/
def exchangeBits (c : Core) (d a : BitVec 12) (w j : Nat) : Nat := (c.laneWord d j).toNat % 2 ^ w ^^^ (c.laneWord a j).toNat % 2 ^ w

theorem exchangeBits_lt (c : Core) (d a : BitVec 12) (w j : Nat) : exchangeBits c d a w j < 2 ^ w :=
  Nat.xor_lt_two_pow (Nat.mod_lt _ (Nat.two_pow_pos w)) (Nat.mod_lt _ (Nat.two_pow_pos w))

/-- From c to c' the low w bits of d and a were exchanged on the lanes below n that take part, and nothing else of the matrix file changed. -/
structure Exchanged (d a : BitVec 12) (w n : Nat) (takes : Nat → Bool) (c c' : Core) : Prop where
  lanes : ∀ j, j < n → ∀ o ∈ [d, a], c'.laneWord o j = if takes j then c.laneWord o j ^^^ BitVec.ofNat 64 (exchangeBits c d a w j) else c.laneWord o j
  frame : ∀ k, (∀ j, j < n → k ∉ laneCells d j ∧ k ∉ laneCells a j) → c'.cell k = c.cell k

/-- An exchange as two writes of the same words. -/
theorem exchange_eq (v : State) (f : Fields) (takes : Nat → Bool) (hd : opBcast f.d = false) (ha : opBcast f.a = false) :
    exchange v f takes =
      [laneLand f.d (wOf f) false (v.lanes.filter takes) (fun j => BitVec.ofNat 64 (exchangeBits v.myCore f.d f.a (wOf f) j)),
       laneLand f.a (wOf f) false ((v.lanes.filter takes).filter (fun j => !laneMeets f.d f.a j))
        (fun j => BitVec.ofNat 64 (exchangeBits v.myCore f.d f.a (wOf f) j))] := by
  simp only [exchange, exchangeBits, State.srcLane_file hd, State.srcLane_file ha, List.filter_map, List.map_map, Function.comp_def, changeLanes_eq,
    List.singleton_append, Nat.xor_comm ((v.myCore.laneWord f.a _).toNat % 2 ^ wOf f)]

section
variable {d a : BitVec 12} {w n : Nat} (h : Exchangeable d a w n)
include h

theorem Exchangeable.cells_of_meets {j : Nat} (hj : j < n) (hm : laneMeets d a j = true) : laneCells d j = laneCells a j := by
  obtain ⟨k, hd, ha⟩ := (laneMeets_iff d a j).1 hm
  exact ((h.apart j j hj hj).resolve_left (fun none => none k hd ha)).2

/-- A lane of d and a lane of a that differ in number, or do not meet, share no cell. -/
theorem Exchangeable.disjoint {j k : Nat} (hj : j < n) (hk : k < n) (hm : j = k → laneMeets d a k = false) {x : Nat} (hd : x ∈ laneCells d j)
    (ha : x ∈ laneCells a k) : False := by
  obtain none | ⟨rfl, -⟩ := h.apart j k hj hk
  · exact none x hd ha
  · exact Bool.eq_false_iff.1 (hm rfl) ((laneMeets_iff d a j).2 ⟨x, hd, ha⟩)

/-- The two writes of an exchange exchange. -/
theorem Exchangeable.exchanges (takes : Nat → Bool) (c : Core) :
    Exchanged d a w n takes c
      ((c.land (laneLand d w false ((List.range n).filter takes) (fun j => BitVec.ofNat 64 (exchangeBits c d a w j)))).land
        (laneLand a w false (((List.range n).filter takes).filter (fun j => !laneMeets d a j)) (fun j => BitVec.ofNat 64 (exchangeBits c d a w j)))) := by
  set l := (List.range n).filter takes with hl
  set u := fun j => BitVec.ofNat 64 (exchangeBits c d a w j) with hu
  have low (j : Nat) : lowBits w (u j) = u j := lowBits_ofNat h.wide (exchangeBits_lt c d a w j)
  have mem {j : Nat} : j ∈ l ↔ j < n ∧ takes j = true := by rw [hl, List.mem_filter, List.mem_range]
  have small : ∀ j ∈ l, j < 128 := fun j hj => (mem.1 hj).1.trans_le h.room
  have nodup : l.Nodup := List.nodup_range.filter _
  have first (j : Nat) (hj : j < n) : (c.land (laneLand d w false l u)).laneWord d j = if takes j then c.laneWord d j ^^^ u j else c.laneWord d j := by
    rw [Core.laneWord_land h.dst h.dfits nodup small c (hj.trans_le h.room)]
    simp [mem, hj, landed, low]
  have dst (j : Nat) (hj : j < n) : ((c.land (laneLand d w false l u)).land (laneLand a w false (l.filter (fun j => !laneMeets d a j)) u)).laneWord d j =
      if takes j then c.laneWord d j ^^^ u j else c.laneWord d j := by
    rw [Core.laneWord_land_other h.src.file h.dst.file, first j hj]
    intro k hk x hd ha
    rw [List.mem_filter, mem] at hk
    exact h.disjoint hj hk.1.1 (fun _ => by simpa using hk.2) hd ha
  have src (j : Nat) (hj : j < n) : ((c.land (laneLand d w false l u)).land (laneLand a w false (l.filter (fun j => !laneMeets d a j)) u)).laneWord a j =
      if takes j then c.laneWord a j ^^^ u j else c.laneWord a j := by
    cases hm : laneMeets d a j
    · rw [Core.laneWord_land h.src h.afits (nodup.filter _) (fun k hk => small k (List.mem_of_mem_filter hk)) _ (hj.trans_le h.room),
        Core.laneWord_land_other h.dst.file h.src.file (fun k hk x ha hd => h.disjoint (mem.1 hk).1 hj (fun _ => hm) hd ha)]
      simp [mem, hj, landed, low, hm]
    · have same := Core.laneWord_of_laneCells h.dst.file h.src.file (h.cells_of_meets hj hm)
      rw [← same, ← same, dst j hj]
  refine ⟨fun j hj o ho => ?_, fun k hk => ?_⟩
  · rw [List.mem_pair] at ho
    obtain rfl | rfl := ho
    · exact dst j hj
    · exact src j hj
  · rw [Core.cell_land_other h.src.file (fun j hj => (hk j (mem.1 (List.mem_of_mem_filter hj)).1).2),
      Core.cell_land_other h.dst.file (fun j hj => (hk j (mem.1 hj).1).1)]

end

section
variable {d a : BitVec 12} {w n : Nat} {takes : Nat → Bool} {c c' : Core} (h : Exchanged d a w n takes c c') {j : Nat} (hj : j < n)
include h hj

/-- A lane that takes part gets the low bits of the other operand, and one that does not keeps its own. -/
theorem Exchanged.low_dst (hw : w ≤ 64) :
    (c'.laneWord d j).toNat % 2 ^ w = if takes j then (c.laneWord a j).toNat % 2 ^ w else (c.laneWord d j).toNat % 2 ^ w := by
  rw [h.lanes j hj d (by simp)]
  split
  · rw [toNat_xor_ofNat_mod _ hw (exchangeBits_lt c d a w j), exchangeBits, Nat.xor_xor_cancel_left]
  · rfl

theorem Exchanged.low_src (hw : w ≤ 64) :
    (c'.laneWord a j).toNat % 2 ^ w = if takes j then (c.laneWord d j).toNat % 2 ^ w else (c.laneWord a j).toNat % 2 ^ w := by
  rw [h.lanes j hj a (by simp)]
  split
  · rw [toNat_xor_ofNat_mod _ hw (exchangeBits_lt c d a w j), exchangeBits, Nat.xor_comm (_ % _) (_ % _), Nat.xor_xor_cancel_left]
  · rfl

theorem Exchanged.upper (hw : w ≤ 64) {o : BitVec 12} (ho : o ∈ [d, a]) : (c'.laneWord o j).toNat / 2 ^ w = (c.laneWord o j).toNat / 2 ^ w := by
  rw [h.lanes j hj o ho]
  split
  · exact toNat_xor_ofNat_div _ hw (exchangeBits_lt c d a w j)
  · rfl

theorem Exchanged.bits (hw : w ≤ 64) : exchangeBits c' d a w j = exchangeBits c d a w j := by
  unfold exchangeBits
  rw [h.low_dst hj hw, h.low_src hj hw]
  split
  · exact Nat.xor_comm _ _
  · rfl

end

theorem Exchanged.congr {d a : BitVec 12} {w n : Nat} {takes : Nat → Bool} {c c' c'' : Core} (h : Exchanged d a w n takes c c') (hc : c''.cells = c'.cells) :
    Exchanged d a w n takes c c'' :=
  ⟨fun j hj o ho => (Core.laneWord_of_cells hc o j).trans (h.lanes j hj o ho), fun k hk => (Core.cell_of_cells hc k).trans (h.frame k hk)⟩

/-- Two exchanges on the same lanes restore every cell. -/
theorem Exchanged.twice {d a : BitVec 12} {w n : Nat} {takes : Nat → Bool} {c c' c'' : Core} (hd : opBcast d = false) (ha : opBcast a = false) (hw : w ≤ 64)
    (h : Exchanged d a w n takes c c') (g : Exchanged d a w n takes c' c'') (k : Nat) : c''.cell k = c.cell k := by
  have restored (j : Nat) (hj : j < n) (o : BitVec 12) (ho : o ∈ [d, a]) : c''.laneWord o j = c.laneWord o j := by
    rw [g.lanes j hj o ho, h.lanes j hj o ho, h.bits hj hw]
    split
    · rw [BitVec.xor_assoc, BitVec.xor_self, BitVec.xor_zero]
    · rfl
  by_cases inside : ∃ j < n, ∃ o ∈ [d, a], k ∈ laneCells o j
  · obtain ⟨j, hj, o, ho, hk⟩ := inside
    have file : opBcast o = false := by
      rw [List.mem_pair] at ho
      obtain rfl | rfl := ho <;> assumption
    exact Core.cell_of_laneWord file (restored j hj o ho) hk
  · have outside : ∀ j, j < n → k ∉ laneCells d j ∧ k ∉ laneCells a j := fun j hj =>
      ⟨fun hk => inside ⟨j, hj, d, by simp, hk⟩, fun hk => inside ⟨j, hj, a, by simp, hk⟩⟩
    rw [g.frame k outside, h.frame k outside]

/-- The results of an exchange land as an exchange, on any core with the same matrix file. -/
theorem exchange_exchanges {v : State} {f : Fields} {n : Nat} (h : Exchangeable f.d f.a (wOf f) n) (hn : v.mySeq.vlen = n) (takes : Nat → Bool) :
    Exchanged f.d f.a (wOf f) n takes v.myCore ((exchange v f takes).foldl Core.land v.myCore) := by
  rw [exchange_eq v f takes h.dst.file h.src.file, State.lanes, hn]
  exact h.exchanges takes v.myCore

/-! ### The charge (R106, R127, R129) -/

/-- A charge changes registers of the core alone. -/
theorem Core.charge_frame (c : Core) (bits : Nat) : ∃ r, c.charge bits = { c with sys := r } := by
  unfold Core.charge
  dsimp only
  split <;> exact ⟨_, rfl⟩

theorem Core.sysreg_charge (c : Core) (bits : Nat) : (c.charge bits).sysreg 0x041 = c.sysreg 0x041 + BitVec.ofNat 64 bits := by
  have sum : BitVec.ofNat 64 ((c.sysreg 0x041).toNat + bits) = c.sysreg 0x041 + BitVec.ofNat 64 bits := by
    rw [BitVec.ofNat_add, BitVec.ofNat_toNat, BitVec.setWidth_eq]
  unfold Core.charge
  dsimp only
  split
  · rw [Core.sysreg_setSys_other _ _ _ _ (by decide), Core.sysreg_setSys_same, sum]
  · rw [Core.sysreg_setSys_same, sum]

theorem State.core_charge (s : State) (n bits : Nat) : (s.charge n bits).core n = if bits = 0 then s.core n else (s.core n).charge bits := by
  unfold State.charge
  split
  · rfl
  · have core : (s.modCore n (fun c => c.charge bits)).core n = (s.core n).charge bits := State.core_modCore_same _ _ _
    dsimp only
    split
    · exact core
    · exact core

@[simp] theorem State.charge_cur (s : State) (n bits : Nat) : (s.charge n bits).cur = s.cur := by
  unfold State.charge
  dsimp only
  split
  · rfl
  · split <;> rfl

@[simp] theorem State.charge_hold (s : State) (n bits : Nat) : (s.charge n bits).hold = s.hold := by
  unfold State.charge
  dsimp only
  split
  · rfl
  · split <;> rfl

/-- What a charge does not change of a core. -/
theorem State.core_charge_frame (s : State) (n bits : Nat) : ∃ r, (s.charge n bits).core n = { s.core n with sys := r } := by
  rw [State.core_charge]
  split
  · exact ⟨_, rfl⟩
  · exact Core.charge_frame _ _

/-! ### Results that land as their instruction issues (R91, R105) -/

/-- Steps of RSTEP are no other register. -/
theorem Core.sysreg_addSteps_other (c : Core) (rc steps : Nat) {k : Nat} (h : k ≠ 0x048 + rc) : (c.addSteps rc steps).sysreg k = c.sysreg k := by
  unfold Core.addSteps
  split
  · rfl
  · exact Core.sysreg_setSys_other _ _ _ _ h

/-- From u to t results have landed in the current core's matrix file; the negative, ERASEC, what is in flight and the registers of the current sequencer stay. -/
structure Landed (lands : List Land) (u t : State) : Prop where
  cur     : t.cur = u.cur
  hold    : t.hold = u.hold
  cells   : t.myCore.cells = (lands.foldl Core.land u.myCore).cells
  neg     : t.myCore.neg = u.myCore.neg
  erasec  : t.myCore.sysreg 0x041 = u.myCore.sysreg 0x041
  snap    : t.myCore.snap = u.myCore.snap
  flights : t.mySeq.flights = u.mySeq.flights
  sys     : t.mySeq.sys = u.mySeq.sys

/-- Where nothing is kept in flight, results land as their instruction issues. -/
theorem State.commit_lands (s : State) (c : Code) (f : Fields) {d : Done} (hc : d.st.cur = s.cur) (hh : s.hold = false) (he : d.engine = false) (hx : d.extra = [])
    (hs : d.stores = []) : Landed d.lands d.st (s.commit c f d) := by
  have now : s.held f d = false := by simp [State.held, hh, hx]
  have node : s.node = d.st.node := congrArg Prod.fst hc.symm
  have me : s.me = d.st.me := congrArg Prod.snd hc.symm
  unfold State.commit
  simp only [he, now, hx, hs, State.issueStores, List.isEmpty_nil, Bool.false_eq_true, if_false, if_true, List.append_nil]
  generalize s.occupancy c f = occ
  generalize (s.core s.node).cycle = cycle
  generalize s.effRc s.node f.rc = rc
  rw [node, me]
  set moved := (d.st.mySeq.advance c f d s.mySeq).issuedAt cycle occ with hmoved
  set k1 := d.st.myCore.setSeq d.st.me moved with hk1
  set k2 := (k1.popAll d.st.me f.pop).addSteps rc (stepsOf c f) with hk2
  set k3 := d.lands.foldl Core.land k2 with hk3
  set t := ((d.st.modSeq d.st.node d.st.me (fun q => (q.advance c f d s.mySeq).issuedAt cycle occ)).modCore d.st.node
      (fun k => (k.popAll d.st.me f.pop).addSteps rc (stepsOf c f))).modCore d.st.node
      (fun k => ((d.lands.foldl Core.land k).reserve d.st.me (pushList f.push)).place d.st.me (pushList f.push)) with ht
  have core : t.myCore = (k3.reserve d.st.me (pushList f.push)).place d.st.me (pushList f.push) := by
    show t.core d.st.node = _
    rw [ht, State.core_modCore_same, State.core_modCore_same, State.core_modSeq_same]
    rfl
  have pops : k1.onlyTokens (k1.popAll d.st.me f.pop) := Core.popAll_only _ _ _
  obtain ⟨r, steps⟩ := Core.addSteps_frame (k1.popAll d.st.me f.pop) rc (stepsOf c f)
  have lands : k2.onlyCells k3 := Core.onlyCells_fold _ _ Core.land_onlyCells k2
  have places : k3.onlyTokens t.myCore := core ▸ Core.onlyTokens_trans (Core.reserve_only _ _ _) (Core.place_only _ _ _)
  have seq : t.mySeq = moved := by
    show t.myCore.seqs.get d.st.me = moved
    rw [places, lands, hk2, steps, pops]
    exact Core.setSeq_get_same _ _ _
  refine ⟨rfl, rfl, ?_, ?_, ?_, ?_, ?_, ?_⟩
  · rw [places]
    exact Core.lands_cells_congr (by rw [hk2, steps, pops]; rfl) d.lands
  · rw [places, lands, hk2, steps, pops]
    rfl
  · rw [places, lands]
    exact (Core.sysreg_addSteps_other _ _ _ (by omega)).trans (by rw [pops]; rfl)
  · rw [places, lands, hk2, steps, pops]
    rfl
  · rw [seq]
    rfl
  · rw [seq]
    rfl

end Sys2Proof.Machine
end

section
/-! PROOFS. How the reversible vector class writes the matrix file, and what its writes are charged (R105 to R109, R117, R127, R129). -/

namespace Sys2Proof.Machine

/-! ### Landing (R105 to R109) -/

theorem State.myCore_charge_cells (v : State) (bits : Nat) : (v.charge v.node bits).myCore.cells = v.myCore.cells := by
  obtain ⟨r, core⟩ := v.core_charge_frame v.node bits
  have node : (v.charge v.node bits).node = v.node := congrArg Prod.fst (v.charge_cur _ _)
  rw [State.myCore, node, core]
  rfl

theorem State.writeLanes_lands (v : State) (e : Bool) (o : BitVec 12) (w : Nat) (meets : Nat → Bool) (l : List Nat) (val : Nat → Nat) :
    (v.writeLanes e o w meets (l.map (fun j => (j, val j)))).lands = [laneLand o w e l (fun j => BitVec.ofNat 64 (val j))] := by
  simp [State.writeLanes, laneLand, Function.comp_def]

/-- Results for the first n lanes of an operand, landed from the matrix file of v. -/
theorem Landed.lanes {o : BitVec 12} {w n : Nat} {e : Bool} {u : Nat → Word} {v x t : State} (h : Landed [laneLand o w e (List.range n) u] x t)
    (hx : x.myCore.cells = v.myCore.cells) (ho : Lined o) (hw : opPair o = true ∨ w ≤ 32) (hn : n ≤ 128) :
    (∀ j, j < n → t.myCore.laneWord o j = landed w e (v.myCore.laneWord o j) (u j)) ∧
    (∀ k, (∀ j, j < n → k ∉ laneCells o j) → t.myCore.cell k = v.myCore.cell k) := by
  have cells : t.myCore.cells = (v.myCore.land (laneLand o w e (List.range n) u)).cells := h.cells.trans (Core.land_cells_congr hx _)
  refine ⟨fun j hj => ?_, fun k hk => ?_⟩
  · rw [Core.laneWord_of_cells cells, Core.laneWord_land ho hw List.nodup_range (fun i hi => (List.mem_range.1 hi).trans_le hn) _ (hj.trans_le hn),
      if_pos (List.mem_range.2 hj)]
  · rw [Core.cell_of_cells cells, Core.cell_land_other ho.file (fun j hj => hk j (List.mem_range.1 hj))]

section
variable {s v : State} (c : Code) (f : Fields) {o : BitVec 12} {w n : Nat} (hc : v.cur = s.cur) (hh : s.hold = false) (hn : n ≤ 128) (ho : Lined o)
  (hw : opPair o = true ∨ w ≤ 32)
include hc hh hn ho hw

/-- A write of w-bit results, in the overwrite and in the XOR form (R105 to R107). -/
theorem commit_writeLanes (e : Bool) (meets : Nat → Bool) (val : Nat → Nat) :
    ∃ t, s.commit c f (v.writeLanes e o w meets ((List.range n).map (fun j => (j, val j)))) = t ∧
      (∀ j, j < n → t.myCore.laneWord o j =
        if e then BitVec.ofNat 64 (val j % 2 ^ 64 % 2 ^ w) else v.myCore.laneWord o j ^^^ BitVec.ofNat 64 (val j % 2 ^ 64 % 2 ^ w)) ∧
      (∀ k, (∀ j, j < n → k ∉ laneCells o j) → t.myCore.cell k = v.myCore.cell k) := by
  have lands := s.commit_lands c f (d := v.writeLanes e o w meets ((List.range n).map (fun j => (j, val j)))) ((v.charge_cur _ _).trans hc) hh rfl rfl rfl
  rw [State.writeLanes_lands] at lands
  obtain ⟨words, frame⟩ := lands.lanes (v.myCore_charge_cells _) ho hw hn
  refine ⟨_, rfl, fun j hj => ?_, frame⟩
  rw [words j hj, landed, lowBits, BitVec.toNat_ofNat]

/-- An in-place change of lanes (R106, R108). -/
theorem commit_changeLanes (hw64 : w ≤ 64) (new : Nat → Nat) :
    ∃ t, s.commit c f { st := v, lands := [changeLanes o w ((List.range n).map (fun j => (j, v.srcLane o w j, new j)))] } = t ∧
      (∀ j, j < n → (t.myCore.laneWord o j).toNat % 2 ^ w = new j % 2 ^ w ∧
        (t.myCore.laneWord o j).toNat / 2 ^ w = (v.myCore.laneWord o j).toNat / 2 ^ w) ∧
      (∀ k, (∀ j, j < n → k ∉ laneCells o j) → t.myCore.cell k = v.myCore.cell k) ∧ t.myCore.sysreg 0x041 = v.myCore.sysreg 0x041 := by
  have lands := s.commit_lands c f (d := { st := v, lands := [changeLanes o w ((List.range n).map (fun j => (j, v.srcLane o w j, new j)))] }) hc hh rfl rfl rfl
  simp only [changeLanes_eq] at lands ⊢
  obtain ⟨words, frame⟩ := lands.lanes rfl ho hw hn
  refine ⟨_, rfl, fun j hj => ?_, frame, lands.erasec⟩
  have low : (v.srcLane o w j ^^^ new j) % 2 ^ 64 % 2 ^ w = v.srcLane o w j ^^^ new j % 2 ^ w := by
    rw [Nat.mod_mod_of_dvd _ (pow_dvd_pow 2 hw64), Nat.xor_mod_two_pow, Nat.mod_eq_of_lt (v.srcLane_lt o w j)]
  have small : v.srcLane o w j ^^^ new j % 2 ^ w < 2 ^ w := Nat.xor_lt_two_pow (v.srcLane_lt o w j) (Nat.mod_lt _ (Nat.two_pow_pos w))
  rw [words j hj, landed, if_neg (by decide), lowBits, BitVec.toNat_ofNat, low]
  refine ⟨?_, toNat_xor_ofNat_div _ hw64 small⟩
  rw [toNat_xor_ofNat_mod _ hw64 small, ← State.srcLane_file ho.file, Nat.xor_xor_cancel_left]

end

/-- The results of an exchange land as an exchange, and nothing is charged (R117). -/
theorem State.commit_exchanges {s v : State} {c : Code} {f : Fields} {n : Nat} (h : Exchangeable f.d f.a (wOf f) n) (hc : v.cur = s.cur) (hh : s.hold = false)
    (hn : v.mySeq.vlen = n) (takes : Nat → Bool) :
    Exchanged f.d f.a (wOf f) n takes v.myCore (s.commit c f { st := v, lands := exchange v f takes }).myCore := by
  have lands := s.commit_lands c f (d := { st := v, lands := exchange v f takes }) hc hh rfl rfl rfl
  exact (exchange_exchanges h hn takes).congr lands.cells

/-- Settles O18: writes, in-place changes and exchanges by what lands lane by lane. -/
theorem writeFormsLand : Obligations.WriteFormsLand := by
  unfold Obligations.WriteFormsLand
  refine ⟨fun s v c f _ e o w meets val n _ hc hh hn hf hp hw _ => commit_writeLanes c f hc hh hn ⟨hf, hp⟩ hw e meets val,
    fun s v c f _ o w new n _ hc hh hn hf hp hw hw64 => commit_changeLanes c f hc hh hn ⟨hf, hp⟩ hw hw64 new, ?_⟩
  rintro s v c f _ _ takes n - hc hh hn hn128 rfl hw64 hops hapart
  obtain ⟨df, dp, dw⟩ := hops f.d (by simp)
  obtain ⟨af, ap, aw⟩ := hops f.a (by simp)
  have able : Exchangeable f.d f.a (wOf f) n := ⟨⟨df, dp⟩, ⟨af, ap⟩, hw64, dw, aw, hn128, hapart⟩
  have done := State.commit_exchanges (c := c) able hc hh hn takes
  refine ⟨_, rfl, fun j hj ht => ⟨?_, ?_⟩, fun j hj o ho => ⟨done.upper hj hw64 ho, fun ht => ?_⟩, done.frame, ?_⟩
  · rw [done.low_dst hj hw64, if_pos ht, State.srcLane_file af]
  · rw [done.low_src hj hw64, if_pos ht, State.srcLane_file df]
  · rw [done.lanes j hj o ho, if_neg (by simp [ht])]
  · exact (s.commit_lands c f hc hh rfl rfl rfl).erasec

/-! ### Charging (R106, R107, R127, R129) -/

theorem Core.writeCharge_overwrite (c : Core) (o : BitVec 12) (meets : Nat → Bool) (vals : List (Nat × Nat)) :
    c.writeCharge true o meets (vals.map (fun p => p.1)) = (vals.map (fun p => c.laneBits o p.1)).foldl (· + ·) 0 := by
  simp [Core.writeCharge, List.foldl_map]

theorem Core.writeCharge_xor (c : Core) (o : BitVec 12) (meets : Nat → Bool) (vals : List (Nat × Nat)) :
    c.writeCharge false o meets (vals.map (fun p => p.1)) = ((vals.filter (fun p => meets p.1)).map (fun p => c.laneBits o p.1)).foldl (· + ·) 0 := by
  simp [Core.writeCharge, List.foldl_map, List.foldl_filter]

/-- ERASELIM after a charge. -/
theorem Core.sysreg_charge_limit (c : Core) (bits : Nat) : (c.charge bits).sysreg 0x042 =
    if (c.sysreg 0x041).toNat < (c.sysreg 0x042).toNat % 2 ^ 63 ∧ (c.sysreg 0x042).toNat % 2 ^ 63 ≤ (c.sysreg 0x041).toNat + bits
    then c.sysreg 0x042 ||| 0x8000000000000000 else c.sysreg 0x042 := by
  unfold Core.charge
  dsimp only
  split
  · rw [Core.sysreg_setSys_same]
  · rw [Core.sysreg_setSys_other _ _ _ _ (by decide)]

/-- HIT, where it was 0, says whether the charge has carried ERASEC to the limit. -/
theorem Core.charge_hit (c : Core) {bits limit : Nat} (h : c.sysreg 0x042 = BitVec.ofNat 64 limit) (hl : limit < 2 ^ 63) :
    ((c.charge bits).sysreg 0x042).getLsbD 63 = decide ((c.sysreg 0x041).toNat < limit ∧ limit ≤ (c.sysreg 0x041).toNat + bits) := by
  have low : limit % 2 ^ 64 % 2 ^ 63 = limit := by omega
  have clear : (BitVec.ofNat 64 limit).getLsbD 63 = false := by
    rw [BitVec.getLsbD_ofNat, Nat.testBit_lt_two_pow hl, Bool.and_false]
  rw [Core.sysreg_charge_limit, h, BitVec.toNat_ofNat, low]
  split
  next carried => simp only [BitVec.getLsbD_or, clear, carried]; decide
  next short => rw [clear, decide_eq_false short]

/-- Settles O19: the charge of a write is the sum over the lanes that are charged, and a charge is what it does to ERASEC and ERASELIM. -/
theorem chargesOfWrites : Obligations.ChargesOfWrites := by
  unfold Obligations.ChargesOfWrites
  refine ⟨fun v o w meets vals => congrArg (v.charge v.node) (Core.writeCharge_overwrite _ _ _ _), fun v o w meets vals => congrArg (v.charge v.node) (Core.writeCharge_xor _ _ _ _),
    fun v o w vals => ?_, fun v n bits hb => ?_, fun v n bits limit hb hl hl63 => ?_⟩
  · have none : v.myCore.writeCharge false o (fun _ => false) (vals.map (fun p => p.1)) = 0 := by
      rw [Core.writeCharge_xor, List.filter_false]
      rfl
    rw [State.writeLanes, none]
    rfl
  · rw [State.core_charge, if_neg (by omega), Core.sysreg_charge]
  · rw [State.core_charge, if_neg (by omega), Core.charge_hit _ hl hl63]

end Sys2Proof.Machine
end

section
/-! PROOFS. The integer results of the reversible vector class, written and in place (R112 to R118, Tables 5.2 and 5.3). -/

namespace Sys2Proof.Machine

/-! ### Lane results as Table 5.2 writes them -/

theorem laneSar_eq : laneSar = fun _ w a b => wrap w (toInt w a / 2 ^ (b % w)) := by
  funext q w a b
  unfold laneSar
  push_cast
  rfl

/-- A sum that wraps at every step wraps once. -/
theorem foldl_laneAdd (q w : Nat) (g : Nat → Nat) (l : List Nat) (x : Nat) (hx : x < 2 ^ w) :
    l.foldl (fun x j => laneAdd q w x (g j)) x = (x + (l.map g).sum) % 2 ^ w := by
  induction l generalizing x with
  | nil => simp [Nat.mod_eq_of_lt hx]
  | cons j r ih =>
    rw [List.foldl_cons, ih _ (show laneAdd q w x (g j) < 2 ^ w from Nat.mod_lt _ (Nat.two_pow_pos w)), List.map_cons, List.sum_cons, laneAdd,
      Nat.mod_add_mod, Nat.add_assoc]

/-- The active lanes, lane 0 first. -/
theorem State.lanes_cons {v : State} (h : 0 < v.mySeq.vlen) : v.lanes = 0 :: v.lanes.drop 1 := by
  obtain ⟨n, hn⟩ := Nat.exists_eq_add_of_lt h
  simp [State.lanes, hn, List.range_succ_eq_map]

/-! ### The forms of a result -/

/-- Code c is a row with two sources whose lane result is op, of Q, the width and the two lanes (R105, R112). -/
def TwoSources (c : Code) (op : Nat → Nat → Nat → Nat → Nat) : Prop :=
  ∀ i f s v, Issues i c f → s.ready c f = true → s.view c f = v →
    Does i c f s (v.writeLanes f.e f.d (intWidth f.q.toNat) (overlapsIn f.d [f.a, f.b]) (v.lanes.map (fun j =>
      (j, op f.q.toNat (intWidth f.q.toNat) (v.srcLane f.a (intWidth f.q.toNat) j) (v.srcLane f.b (intWidth f.q.toNat) j)))))

/-- Code c is a row with one source whose lane result is op, of the width and the lane (R105, R112, R114). -/
def OneSource (c : Code) (op : Nat → Nat → Nat) : Prop :=
  ∀ i f s v, Issues i c f → s.ready c f = true → s.view c f = v →
    Does i c f s (v.writeLanes f.e f.d (intWidth f.q.toNat) (overlapsIn f.d [f.a]) (v.lanes.map (fun j =>
      (j, op (intWidth f.q.toNat) (v.srcLane f.a (intWidth f.q.toNat) j)))))

/-- Instruction j of code c folds op, of the width and two values, over the active lanes of A (R115). -/
def Reduces (j : Fields → Instr) (c : Code) (op : Nat → Nat → Nat → Nat) : Prop :=
  ∀ f s v, s.ready c f = true → s.view c f = v →
    Does (j f) c f s (v.writeLanes f.e f.d (intWidth f.q.toNat) (reduceMeets f.d f.a v.mySeq.vlen)
      [(0, (v.lanes.drop 1).foldl (fun x j => op (intWidth f.q.toNat) x (v.srcLane f.a (intWidth f.q.toNat) j))
        (v.srcLane f.a (intWidth f.q.toNat) 0))])

/-- Code c changes D's lanes in place by op, of the width and the lanes of D and A (R116). -/
def ChangesInPlace (c : Code) (op : Nat → Nat → Nat → Nat) : Prop :=
  ∀ i f s v, Issues i c f → s.ready c f = true → s.view c f = v →
    Does i c f s { st := v, lands := [changeLanes f.d (intWidth f.q.toNat) (v.lanes.map (fun j => (j, v.srcLane f.d (intWidth f.q.toNat) j,
      op (intWidth f.q.toNat) (v.srcLane f.d (intWidth f.q.toNat) j) (v.srcLane f.a (intWidth f.q.toNat) j))))] }

section
variable {c : Code} (j : Fields → Instr) (hj : ∀ f, coreOf c f = some (j f))
include hj

theorem twoSources_of_vec2 (op : Nat → Nat → Nat → Nat → Nat) (he : ∀ f s, exec (j f) s = vec2 c f op s) : TwoSources c op :=
  fun _ f s _ h hr hv => does_of_body h (hj f) (he f s) hr hv rfl

theorem oneSource_of_vec1 (op : Nat → Nat → Nat) (he : ∀ f s, exec (j f) s = vec1 c f op s) : OneSource c op :=
  fun _ f s _ h hr hv => does_of_body h (hj f) (he f s) hr hv rfl

theorem reduces_of_vecRed (op : Nat → Nat → Nat → Nat) (hi : ∀ f, Issues (j f) c f) (he : ∀ f s, exec (j f) s = vecRed c f (fun _ => op) s) : Reduces j c op :=
  fun f s _ hr hv => does_of_body (hi f) (hj f) (he f s) hr hv rfl

theorem changesInPlace_of_vecIn (op : Nat → Nat → Nat → Nat) (he : ∀ f s, exec (j f) s = vecIn c f (fun _ => op) s) : ChangesInPlace c op :=
  fun _ f s _ h hr hv => does_of_body h (hj f) (he f s) hr hv rfl

/-- VCMP: all ones where the condition holds (R113). -/
theorem twoSources_of_vecCmp {cond : Nat → Nat → Nat → Bool} (p : Nat → Nat → Nat → Prop) [∀ w a b, Decidable (p w a b)]
    (hp : ∀ w a b, cond w a b = true ↔ p w a b) (he : ∀ f s, exec (j f) s = vecCmp c f cond s) :
    TwoSources c (fun _ w a b => if p w a b then 2 ^ w - 1 else 0) :=
  twoSources_of_vec2 j hj _ (fun f s => by
    have ones : (fun (_ w a b : Nat) => laneCmp (cond w a b) w) = fun _ w a b => if p w a b then 2 ^ w - 1 else 0 := by
      funext q w a b
      simp only [laneCmp, hp, onesW]
    rw [← ones]
    exact he f s)

end

/-- VRED.ADD is the sum of the active lanes modulo 2^w (R115). -/
theorem vredAdd_does (f : Fields) (s v : State) (hr : s.ready 0x250 f = true) (hv : s.view 0x250 f = v) (hn : 0 < v.mySeq.vlen) :
    Does (.vredAdd f) 0x250 f s (v.writeLanes f.e f.d (intWidth f.q.toNat) (reduceMeets f.d f.a v.mySeq.vlen)
      [(0, (v.lanes.map (fun j => v.srcLane f.a (intWidth f.q.toNat) j)).sum % 2 ^ intWidth f.q.toNat)]) := by
  have folded := reduces_of_vecRed .vredAdd (fun _ => rfl) (laneAdd 0) (fun _ => rfl) (fun _ _ => rfl) f s v hr hv
  rw [foldl_laneAdd _ _ _ _ _ (v.srcLane_lt _ _ _)] at folded
  rwa [State.lanes_cons hn, List.map_cons, List.sum_cons]

/-- VSEL takes A where its mask lane is not zero (R113). -/
theorem vsel_does (f : Fields) (s v : State) (hr : s.ready 0x230 f = true) (hv : s.view 0x230 f = v) :
    Does (.vsel f) 0x230 f s (v.writeLanes f.e f.d (intWidth f.q.toNat) (overlapsIn f.d [f.a, f.b, f.x.setWidth 12]) (v.lanes.map (fun j =>
      (j, if v.srcLane (f.x.setWidth 12) (intWidth f.q.toNat) j ≠ 0 then v.srcLane f.a (intWidth f.q.toNat) j
          else v.srcLane f.b (intWidth f.q.toNat) j)))) := by
  refine does_of_body (show Issues (.vsel f) 0x230 f from rfl) rfl rfl hr hv ?_
  simp only [bne_iff_ne]
  rfl

/-- Settles O20: the rows of Table 5.2 by their form, two sources, one source or a reduction; only VSAR, the compares, VSEL and VRED.ADD are written otherwise than the model writes them. -/
theorem vectorIntegerResults : Obligations.VectorIntegerResults := by
  unfold Obligations.VectorIntegerResults
  change (∀ r ∈ (_ : List (Nat × (Nat → Nat → Nat → Nat → Nat))), TwoSources r.1 r.2) ∧
    ((∀ r ∈ (_ : List (Nat × (Nat → Nat → Nat))), OneSource r.1 r.2) ∧ _) ∧ _ ∧
    (∀ r ∈ (_ : List ((Fields → Instr) × Nat × (Nat → Nat → Nat → Nat))), Reduces r.1 r.2.1 r.2.2)
  simp only [List.forall_mem_cons]
  refine ⟨⟨twoSources_of_vec2 .vand (fun _ => rfl) laneAnd (fun _ _ => rfl),
      twoSources_of_vec2 .vor (fun _ => rfl) laneOr (fun _ _ => rfl),
      twoSources_of_vec2 .vxor (fun _ => rfl) laneXor (fun _ _ => rfl),
      twoSources_of_vec2 .vandn (fun _ => rfl) laneAndn (fun _ _ => rfl),
      twoSources_of_vec2 .vadd (fun _ => rfl) laneAdd (fun _ _ => rfl),
      twoSources_of_vec2 .vsub (fun _ => rfl) laneSub (fun _ _ => rfl),
      twoSources_of_vec2 .vmin (fun _ => rfl) laneMin (fun _ _ => rfl),
      twoSources_of_vec2 .vmax (fun _ => rfl) laneMax (fun _ _ => rfl),
      twoSources_of_vec2 .vminn (fun _ => rfl) laneMinn (fun _ _ => rfl),
      twoSources_of_vec2 .vmaxn (fun _ => rfl) laneMaxn (fun _ _ => rfl),
      twoSources_of_vec2 .vmul (fun _ => rfl) laneMul (fun _ _ => rfl),
      twoSources_of_vec2 .vmulh (fun _ => rfl) laneMulh (fun _ _ => rfl),
      twoSources_of_vec2 .vshl (fun _ => rfl) laneShl (fun _ _ => rfl),
      twoSources_of_vec2 .vshr (fun _ => rfl) laneShr (fun _ _ => rfl),
      twoSources_of_vec2 .vsar (fun _ => rfl) _ (fun _ _ => laneSar_eq ▸ rfl),
      twoSources_of_vec2 .vavg (fun _ => rfl) laneAvg (fun _ _ => rfl),
      twoSources_of_vecCmp .vcmpEq (fun _ => rfl) (fun _ a b => a = b) (fun _ _ _ => beq_iff_eq) (fun _ _ => rfl),
      twoSources_of_vecCmp .vcmpNe (fun _ => rfl) (fun _ a b => a ≠ b) (fun _ _ _ => bne_iff_ne) (fun _ _ => rfl),
      twoSources_of_vecCmp .vcmpLt (fun _ => rfl) (fun w a b => toInt w a < toInt w b) (fun _ _ _ => decide_eq_true_iff) (fun _ _ => rfl),
      twoSources_of_vecCmp .vcmpGe (fun _ => rfl) (fun w a b => toInt w b ≤ toInt w a) (fun _ _ _ => decide_eq_true_iff) (fun _ _ => rfl),
      twoSources_of_vecCmp .vcmpLtn (fun _ => rfl) (fun _ a b => a < b) (fun _ _ _ => decide_eq_true_iff) (fun _ _ => rfl),
      twoSources_of_vecCmp .vcmpGen (fun _ => rfl) (fun _ a b => b ≤ a) (fun _ _ _ => decide_eq_true_iff) (fun _ _ => rfl), List.forall_mem_nil _⟩,
    ⟨⟨oneSource_of_vec1 .vmov (fun _ => rfl) _ (fun _ _ => rfl),
      oneSource_of_vec1 .vabs (fun _ => rfl) _ (fun _ _ => rfl),
      oneSource_of_vec1 .vclz (fun _ => rfl) _ (fun _ _ => rfl),
      oneSource_of_vec1 .vpopc (fun _ => rfl) _ (fun _ _ => rfl), List.forall_mem_nil _⟩, vsel_does⟩,
    vredAdd_does,
    ⟨reduces_of_vecRed .vredMin (fun _ => rfl) _ (fun _ => rfl) (fun _ _ => rfl),
      reduces_of_vecRed .vredMax (fun _ => rfl) _ (fun _ => rfl) (fun _ _ => rfl),
      reduces_of_vecRed .vredMinn (fun _ => rfl) _ (fun _ => rfl) (fun _ _ => rfl),
      reduces_of_vecRed .vredMaxn (fun _ => rfl) _ (fun _ => rfl) (fun _ _ => rfl),
      reduces_of_vecRed .vredAnd (fun _ => rfl) _ (fun _ => rfl) (fun _ _ => rfl),
      reduces_of_vecRed .vredOr (fun _ => rfl) _ (fun _ => rfl) (fun _ _ => rfl),
      reduces_of_vecRed .vredXor (fun _ => rfl) _ (fun _ => rfl) (fun _ _ => rfl), List.forall_mem_nil _⟩⟩

/-! ### Multiplication in place, exchanges and permutations (R116 to R118) -/

/-- The low bits of a word are odd where the word is. -/
theorem mod_two_pow_mod_two (x q : Nat) : x % 2 ^ intWidth q % 2 = x % 2 :=
  Nat.mod_mod_of_dvd x (dvd_pow_self 2 (by unfold intWidth; positivity))

section
variable {f : Fields} {s v : State} (hr : s.ready 0x285 f = true) (hv : s.view 0x285 f = v)
include hr hv

theorem vmulin_odd (h : (v.sreg f.a).toNat % 2 = 1) : Does (.vmulin f) 0x285 f s { st := v, lands := [changeLanes f.d (intWidth f.q.toNat) (v.lanes.map (fun j =>
    (j, v.srcLane f.d (intWidth f.q.toNat) j, v.srcLane f.d (intWidth f.q.toNat) j * ((v.sreg f.a).toNat % 2 ^ intWidth f.q.toNat) % 2 ^ intWidth f.q.toNat)))] } :=
  does_of_body (show Issues (.vmulin f) 0x285 f from rfl) rfl rfl hr hv
    (if_neg (fun even => by rw [wOf, mod_two_pow_mod_two, h] at even; cases even))

theorem vmulin_even (h : (v.sreg f.a).toNat % 2 = 0) : exec (.vmulin f) s = .next (s.takeFault 0x02 1) :=
  fault_of_body (show Issues (.vmulin f) 0x285 f from rfl) rfl rfl hr hv (if_pos ((mod_two_pow_mod_two _ _).trans h))

end

theorem getD_ite_some {α : Type} (p : Prop) [Decidable p] (x y : α) : (if p then some x else none).getD y = if p then x else y := by
  split <;> rfl

/-- VBFLY takes the lane that it names, and its own where that is not active (R118). -/
theorem vbfly_does (f : Fields) (s v : State) (hr : s.ready 0x2A2 f = true) (hv : s.view 0x2A2 f = v) :
    Does (.vbfly f) 0x2A2 f s { st := v, lands := [changeLanes f.d (intWidth f.q.toNat) (v.lanes.map (fun j =>
      (j, v.srcLane f.d (intWidth f.q.toNat) j, v.srcLane f.d (intWidth f.q.toNat)
        (if j ^^^ ((v.sreg f.a).toNat % 128) < v.mySeq.vlen then j ^^^ ((v.sreg f.a).toNat % 128) else j))))] } := by
  refine does_of_body (show Issues (.vbfly f) 0x2A2 f from rfl) rfl rfl hr hv ?_
  simp only [getD_ite_some]
  rfl

/-- Settles O21: the rows of Table 5.3 by their one form, VMULIN by the parity of its multiplier, the exchanges and the permutations by what they take. -/
theorem vectorInPlaceResults : Obligations.VectorInPlaceResults := by
  unfold Obligations.VectorInPlaceResults
  refine ⟨⟨?table, fun f s v hr hv => vmulin_odd hr hv, fun f s v hr hv => vmulin_even hr hv⟩,
    fun i f s v h hr hv => does_of_body h rfl rfl hr hv rfl, fun f s v hr hv => does_of_body (show Issues (.vcswap f) 0x291 f from rfl) rfl rfl hr hv rfl,
    fun i f s v h hr hv => does_of_body h rfl rfl hr hv rfl, fun f s v hr hv => does_of_body (show Issues (.vrotl f) 0x2A1 f from rfl) rfl rfl hr hv rfl, vbfly_does⟩
  change ∀ r ∈ (_ : List (Nat × (Nat → Nat → Nat → Nat))), ChangesInPlace r.1 r.2
  simp only [List.forall_mem_cons]
  exact ⟨changesInPlace_of_vecIn .vaddin (fun _ => rfl) _ (fun _ _ => rfl),
      changesInPlace_of_vecIn .vsubin (fun _ => rfl) _ (fun _ _ => rfl),
      changesInPlace_of_vecIn .vnegin (fun _ => rfl) _ (fun _ _ => rfl),
      changesInPlace_of_vecIn .vnotin (fun _ => rfl) _ (fun _ _ => rfl),
      changesInPlace_of_vecIn .vrotin (fun _ => rfl) _ (fun _ _ => rfl),
      changesInPlace_of_vecIn .vbrevin (fun _ => rfl) _ (fun _ _ => rfl), List.forall_mem_nil _⟩

end Sys2Proof.Machine
end

section
/-! SUPPORT. Accesses to memory leave the negative, also where they perform older writes, which may reach a window of a core or space 0xE (R124, R217, R240). -/

namespace Sys2Proof.Machine

/-- From s to t every core keeps its negative, and the turn stays. -/
structure State.KeepsNegatives (s t : State) : Prop where
  cur : t.cur = s.cur
  neg : ∀ n, (t.core n).neg = (s.core n).neg

theorem State.KeepsNegatives.refl (s : State) : s.KeepsNegatives s := ⟨rfl, fun _ => rfl⟩

theorem State.KeepsNegatives.trans {s t u : State} (h : s.KeepsNegatives t) (g : t.KeepsNegatives u) : s.KeepsNegatives u :=
  ⟨g.cur.trans h.cur, fun n => (g.neg n).trans (h.neg n)⟩

theorem State.KeepsNegatives.after {s t u : State} (g : t.KeepsNegatives u) (h : s.KeepsNegatives t) : s.KeepsNegatives u := h.trans g

theorem State.KeepsNegatives.of_cores {s t : State} (hc : t.cur = s.cur) (h : t.cores = s.cores) : s.KeepsNegatives t :=
  ⟨hc, fun n => by unfold State.core; rw [h]⟩

theorem State.KeepsNegatives.setCore (s : State) (n : Nat) {c : Core} (h : c.neg = (s.core n).neg) : s.KeepsNegatives (s.setCore n c) := by
  refine ⟨rfl, fun m => ?_⟩
  by_cases e : m = n
  · subst e; rwa [State.core_setCore_same]
  · rw [State.core_setCore_other _ _ _ _ e]

theorem State.KeepsNegatives.modCore (s : State) (n : Nat) {g : Core → Core} (h : ∀ c, (g c).neg = c.neg) : s.KeepsNegatives (s.modCore n g) :=
  .setCore s n (h _)

theorem State.KeepsNegatives.foldl {β : Type} (l : List β) (g : State → β → State) (hg : ∀ (s : State) x, s.KeepsNegatives (g s x)) (s : State) :
    s.KeepsNegatives (l.foldl g s) := by
  induction l generalizing s with
  | nil => exact .refl s
  | cons x r ih => exact (hg s x).trans (ih _)

/-- A fold over a core whose steps keep the negative keeps it. -/
theorem Core.neg_foldl {β : Type} (g : Core → β → Core) (hg : ∀ c x, (g c x).neg = c.neg) (l : List β) (c : Core) : (l.foldl g c).neg = c.neg := by
  induction l generalizing c with
  | nil => rfl
  | cons x r ih => exact (ih _).trans (hg c x)

theorem Core.neg_land (c : Core) (l : Land) : (c.land l).neg = c.neg := by
  rw [Core.land_onlyCells c l]

theorem Core.neg_landMet (c : Core) (hit : Nat → Bool) : (c.landMet hit).neg = c.neg := by
  unfold Core.landMet
  dsimp only
  split
  · exact Core.neg_foldl _ (fun d _ => Core.neg_foldl _ (fun d _ => d.neg_land _) _ d) _ c
  · rfl

theorem Core.neg_windowPut (c : Core) (w off : Nat) (b : Byte) : (c.windowPut w off b).neg = c.neg := by
  unfold Core.windowPut
  split
  case h_3 =>
    dsimp only
    split
    · rfl
    · split
      · rfl
      · split <;> rfl
  case h_4 =>
    dsimp only
    split
    · rfl
    · split
      · rfl
      · split <;> rfl
  all_goals rfl

theorem Core.neg_putReg (c : Core) (num : Nat) (v : Word) : (c.putReg num v).neg = c.neg := by
  unfold Core.putReg
  split
  · rfl
  · split
    · rfl
    · split <;> rfl

theorem State.charge_keepsNegatives (s : State) (n bits : Nat) : s.KeepsNegatives (s.charge n bits) := by
  refine ⟨s.charge_cur n bits, fun m => ?_⟩
  by_cases e : m = n
  · subst e
    obtain ⟨r, core⟩ := s.core_charge_frame m bits
    rw [core]
  · have other := State.core_modCore_other s n m (fun c => c.charge bits) e
    unfold State.charge
    split
    · rfl
    · dsimp only
      split <;> exact congrArg Core.neg other

theorem State.putCell_keepsNegatives (s : State) (n k : Nat) (v : W32) : s.KeepsNegatives (s.putCell n k v) :=
  (State.charge_keepsNegatives _ _ _).after (.setCore s n (Core.neg_landMet (s.core n) (fun x => x == k)))

theorem State.windowWrite_keepsNegatives (s : State) (n w off size : Nat) (v : Word) : s.KeepsNegatives (s.windowWrite n w off size v) := by
  unfold State.windowWrite
  split
  · exact .foldl _ _ (fun t _ => t.putCell_keepsNegatives _ _ _) s
  · exact .of_cores rfl rfl
  · exact .refl s
  · split
    · exact .modCore _ _ (fun c => c.neg_putReg _ _)
    · exact .refl s
  · exact .modCore _ _ (fun c => Core.neg_foldl _ (fun d _ => d.neg_windowPut _ _ _) _ c)

/-- A mailbox write starts a die control core; its negative stays. -/
theorem State.mailbox_keepsNegatives (s : State) (n : Nat) (v : Word) : s.KeepsNegatives (s.mailbox n v) := by
  unfold State.mailbox
  split
  · exact .refl s
  · dsimp only
    refine (State.KeepsNegatives.setCore s n ?_).trans (.of_cores rfl rfl)
    split <;> rfl

theorem State.deviceWrite_keepsNegatives (s : State) (p off size : Nat) (v : Word) : s.KeepsNegatives (s.deviceWrite p off size v) := by
  unfold State.deviceWrite
  split
  · split
    · exact State.mailbox_keepsNegatives _ _ _
    · split
      · exact .of_cores rfl rfl
      · exact .refl s
  · split
    · exact .of_cores rfl rfl
    · exact .refl s

theorem State.corrects_keepsNegatives (l : List Nat) (s : State) : s.KeepsNegatives (l.foldl State.correct s) :=
  .foldl l State.correct (fun _ _ => .of_cores rfl rfl) s

theorem State.writeNote_keepsNegatives (s : State) (pa n : Nat) : s.KeepsNegatives (s.writeNote pa n) := by
  have noted : s.KeepsNegatives ((s.heal pa n).readNote pa n) := (State.corrects_keepsNegatives _ (s.heal pa n)).after (.of_cores rfl rfl)
  exact noted.trans (.of_cores rfl rfl)

theorem State.rekey_keepsNegatives (s : State) (key : Option Nat) (b : Nat) : s.KeepsNegatives (s.rekey key b) := by
  unfold State.rekey
  split
  · exact .refl s
  · exact .of_cores rfl rfl

theorem State.physWrite_keepsNegatives (s : State) (key : Option Nat) (pa size : Nat) (v : Word) : s.KeepsNegatives (s.physWrite key pa size v) := by
  unfold State.physWrite
  split
  · have keyed : s.KeepsNegatives (if key = none ∧ s.blockKey (pa / 16) = none then s else s.rekey key (pa / 16)) := by
      split
      · exact .refl s
      · exact State.rekey_keepsNegatives _ _ _
    dsimp only
    generalize (if key = none ∧ s.blockKey (pa / 16) = none then s else s.rekey key (pa / 16)) = t at keyed
    split
    · exact keyed.trans (.of_cores rfl rfl)
    · exact (State.writeNote_keepsNegatives _ _ _).after (keyed.trans (.of_cores rfl rfl))
  · exact State.windowWrite_keepsNegatives _ _ _ _ _ _
  · exact State.deviceWrite_keepsNegatives _ _ _ _ _
  · exact .refl s

theorem State.drainQueue_keepsNegatives (s : State) (n : Nat) (q : SeqId) : s.KeepsNegatives (s.drainQueue n q) :=
  .after (.foldl _ State.performStore (fun _ _ => State.physWrite_keepsNegatives _ _ _ _ _) _)
    (.modCore s n (g := fun c => c.setSeq q { c.seqs.get q with queue := [] }) (fun _ => rfl))

theorem State.noteData_keepsNegatives (s : State) (n : Nat) (read : Bool) (size : Nat) (vas : List Word) : s.KeepsNegatives (s.noteData n read size vas) := by
  have filled : s.KeepsNegatives (s.fillL1 n read vas) := by
    obtain same | ⟨l, same⟩ := s.fillL1_frame n read vas
    · rw [same]; exact .refl s
    · rw [same]; exact .modCore _ _ (fun _ => rfl)
  unfold State.noteData
  generalize s.fillL1 n read vas = t at filled
  refine filled.trans ?_
  have counted : t.KeepsNegatives (t.countMisses n vas) := by
    unfold State.countMisses
    split
    · exact .refl t
    · exact .modCore _ _ (fun _ => rfl)
  unfold State.noteAccess
  dsimp only
  split
  · exact counted
  · exact counted.trans (State.corrects_keepsNegatives _ _)

/-- Accesses that are made leave the negative of the core that makes them. -/
theorem State.neg_passed (s : State) (want : Want) (size : Nat) (vas : List Word) : (s.passed want size vas).myCore.neg = s.myCore.neg := by
  have kept : s.KeepsNegatives (s.passed want size vas) := by
    unfold State.passed
    split
    · refine .trans ?_ (State.noteData_keepsNegatives _ _ _ _ _)
      unfold State.behind
      split
      · exact State.drainQueue_keepsNegatives _ _ _
      · exact .refl s
    · exact State.noteData_keepsNegatives _ _ _ _ _
  have node : (s.passed want size vas).node = s.node := congrArg Prod.fst kept.cur
  rw [State.myCore, node]
  exact kept.neg s.node

end Sys2Proof.Machine
end

section
/-! PROOFS. The negative: what keeps, pops, moves, spills and fills planes, and ERASE (R119 to R125, Table 5.4). -/

namespace Sys2Proof.Machine

/-! ### Pushing and popping planes -/

theorem keepPlane_room {s : State} (p : Plane) (lands : List Land) (h : s.myCore.neg.length < 4096) :
    keepPlane s p lands = .done { st := s.modMyCore (fun c => c.pushPlane p), lands } :=
  if_neg (Nat.not_le.2 h)

theorem keepPlane_full {s : State} (p : Plane) (lands : List Land) (h : 4096 ≤ s.myCore.neg.length) : keepPlane s p lands = .trap 0x21 0 :=
  if_pos h

theorem popPlane_cons {s : State} {p : Plane} {rest : List Plane} (k : State → Plane → Eff) (h : s.myCore.neg = p :: rest) :
    popPlane s k = k (s.modMyCore (fun c => { c with neg := rest })) p := by
  simp only [popPlane, h]

theorem popPlane_nil {s : State} (k : State → Plane → Eff) (h : s.myCore.neg = []) : popPlane s k = .trap 0x22 0 := by
  simp only [popPlane, h]

/-- Code c is a keep operation on pairs: it exchanges where y of A goes before x of D, and pushes the plane that says where (Table 5.4). -/
def KeepsPair (c : Code) (before : Nat → Nat → Nat → Bool) : Prop :=
  ∀ i f s v swaps, Issues i c f → s.ready c f = true → s.view c f = v →
    (swaps = fun j => before (intWidth f.q.toNat) (v.srcLane f.a (intWidth f.q.toNat) j) (v.srcLane f.d (intWidth f.q.toNat) j)) →
    (v.myCore.neg.length < 4096 → Does i c f s
      { st := v.modCore v.node (fun k => { k with neg := planeOf v.lanes swaps :: k.neg }), lands := exchange v f swaps }) ∧
    (4096 ≤ v.myCore.neg.length → exec i s = .next (s.takeFault 0x21 0))

theorem keepsPair_of_keepPair {c : Code} (j : Fields → Instr) (hj : ∀ f, coreOf c f = some (j f)) (before : Nat → Nat → Nat → Bool)
    (he : ∀ f s, exec (j f) s = keepPair c f before s) : KeepsPair c before := by
  rintro i f s v - h hr hv rfl
  exact ⟨fun room => does_of_body h (hj f) (he f s) hr hv (keepPlane_room _ _ room),
    fun full => fault_of_body h (hj f) (he f s) hr hv (keepPlane_full _ _ full)⟩

/-- Settles O22: the four keep operations on pairs by their one form, and VABSK; each by whether the negative has room. -/
theorem keepResults : Obligations.KeepResults := by
  unfold Obligations.KeepResults
  change (∀ r ∈ (_ : List (Nat × (Nat → Nat → Nat → Bool))), KeepsPair r.1 r.2) ∧ _
  simp only [List.forall_mem_cons]
  refine ⟨⟨keepsPair_of_keepPair .vmaxk (fun _ => rfl) _ (fun _ _ => rfl),
    keepsPair_of_keepPair .vmink (fun _ => rfl) _ (fun _ _ => rfl),
    keepsPair_of_keepPair .vmaxnk (fun _ => rfl) _ (fun _ _ => rfl),
    keepsPair_of_keepPair .vminnk (fun _ => rfl) _ (fun _ _ => rfl), List.forall_mem_nil _⟩, ?_⟩
  rintro i f s v - h hr hv rfl
  exact ⟨fun room => does_of_body h rfl rfl hr hv (keepPlane_room _ _ room), fun full => fault_of_body h rfl rfl hr hv (keepPlane_full _ _ full)⟩

/-- VUNCX (R121). -/
theorem vuncx_does {i : Instr} {f : Fields} {s v : State} {p : Plane} {rest : List Plane} {dAt aAt : Nat → Nat} (h : Issues i 0x2D0 f)
    (hr : s.ready 0x2D0 f = true) (hv : s.view 0x2D0 f = v) (hp : v.myCore.neg = p :: rest)
    (hd : dAt = fun j => if p.getLsbD j && !laneMeets f.d f.a j then v.srcLane f.a (intWidth f.q.toNat) j else v.srcLane f.d (intWidth f.q.toNat) j)
    (ha : aAt = fun j => if p.getLsbD j && !laneMeets f.d f.a j then v.srcLane f.d (intWidth f.q.toNat) j else v.srcLane f.a (intWidth f.q.toNat) j) :
    Does i 0x2D0 f s
      { st := (v.modCore v.node (fun k => { k with neg := rest })).charge v.node (popNat (p ^^^ planeOf v.lanes (fun j =>
          if f.x.getLsbD 0 then decide (readInt f.q.toNat (intWidth f.q.toNat) (aAt j) < readInt f.q.toNat (intWidth f.q.toNat) (dAt j))
          else decide (readInt f.q.toNat (intWidth f.q.toNat) (dAt j) < readInt f.q.toNat (intWidth f.q.toNat) (aAt j)))).toNat),
        lands := exchange v f (fun j => p.getLsbD j) } := by
  subst hd ha
  exact does_of_body h rfl rfl hr hv (popPlane_cons _ hp)

/-- Settles O24: what pops a plane by whether there is one, what pushes or drops by whether there is room or depth. -/
theorem negativeResults : Obligations.NegativeResults := by
  unfold Obligations.NegativeResults
  refine ⟨fun i f s v p rest h hr hv hp => does_of_body h rfl rfl hr hv (popPlane_cons _ hp),
    fun i f s v p rest dAt aAt h hr hv hp hd ha => vuncx_does h hr hv hp hd ha, ?_,
    fun f s v hr hv room => does_of_body (show Issues (.npush f) 0x2E0 f from rfl) rfl rfl hr hv (keepPlane_room _ _ room),
    fun f s v hr hv full => fault_of_body (show Issues (.npush f) 0x2E0 f from rfl) rfl rfl hr hv (keepPlane_full _ _ full), ?_,
    fun f s v p rest hr hv hp => does_of_body (show Issues (.nunpush f) 0x2E1 f from rfl) rfl rfl hr hv (popPlane_cons _ hp),
    fun f s v p rest hr hv hp => does_of_body (show Issues (.npop f) 0x2E2 f from rfl) rfl rfl hr hv (popPlane_cons _ hp),
    fun f s v hr hv deep => does_of_body (show Issues (.ndrop f) 0x2E3 f from rfl) rfl rfl hr hv (if_neg (Nat.not_lt.2 deep)),
    fun f s v hr hv shallow => fault_of_body (show Issues (.ndrop f) 0x2E3 f from rfl) rfl rfl hr hv (if_pos shallow),
    fun f s v hr hv => does_of_body (show Issues (.ndepth f) 0x2E6 f from rfl) rfl rfl hr hv rfl⟩
  · rintro i f s v (⟨h, hr, hv⟩ | ⟨h, hr, hv⟩) empty
    · exact fault_of_body h rfl rfl hr hv (popPlane_nil _ empty)
    · exact fault_of_body h rfl rfl hr hv (popPlane_nil _ empty)
  · simp only [List.forall_mem_cons]
    exact ⟨fun f s v hr hv empty => fault_of_body (show Issues (.nunpush f) 0x2E1 f from rfl) rfl rfl hr hv (popPlane_nil _ empty),
      fun f s v hr hv empty => fault_of_body (show Issues (.npop f) 0x2E2 f from rfl) rfl rfl hr hv (popPlane_nil _ empty), List.forall_mem_nil _⟩

/-- A clear access to planes at a multiple of 16 is made. -/
theorem planeRange_clear {s : State} {want : Want} {va : Word} {n : Nat} (k : State → Eff) (h16 : va.toNat % 16 = 0)
    (h : s.clear want 8 (units va 8 (2 * n)) = true) : planeRange s want va n k = k (s.passed want 8 (units va 8 (2 * n))) :=
  (if_neg (not_not.2 h16)).trans (State.access_clear k h)

/-- The last of n results read comes first. -/
theorem getD_reverse_range {α : Type} (g : Nat → α) (x : α) {n j : Nat} (h : j < n) : ((List.range n).map g).reverse.getD (n - 1 - j) x = g j := by
  rw [List.getD_eq_getElem _ _ (by simp; omega), List.getElem_reverse]
  simp only [List.length_map, List.length_range, List.getElem_map, List.getElem_range]
  congr 1
  omega

theorem State.modMyCore_prepend {s : State} (l : List Plane) {m : List Plane} (h : s.myCore.neg = m) :
    s.modMyCore (fun c => { c with neg := l ++ c.neg }) = s.modMyCore (fun c => { c with neg := l ++ m }) :=
  congrArg (s.setCore s.node) (by subst h; rfl)

/-- Settles O25: NSPILL and NFILL past their checks, and ERASE as an overwrite with zeros. -/
theorem spillFillAndErase : Obligations.SpillFillAndErase := by
  unfold Obligations.SpillFillAndErase
  refine ⟨fun f s v hr hv deep h16 hc => does_of_body (show Issues (.nspill f) 0x2E4 f from rfl) rfl rfl hr hv
      ((if_neg (Nat.not_lt.2 deep)).trans (planeRange_clear _ h16 hc)),
    fun f s v hr hv room h16 hc => ?_, fun i f s v h hr hv => does_of_body h rfl rfl hr hv rfl⟩
  have fills := does_of_body (show Issues (.nfill f) 0x2E5 f from rfl) rfl rfl hr hv ((if_neg (Nat.not_lt.2 room)).trans (planeRange_clear _ h16 hc))
  rw [State.modMyCore_prepend _ (v.neg_passed _ _ _)] at fills
  exact ⟨_, _, fills, rfl, by simp, fun j hj => getD_reverse_range _ 0 hj⟩

end Sys2Proof.Machine
end

section
/-! SUPPORT. What the encoding checks of an exchange of D and A leave of its operands (R29, R30, R111), and the interlock, which has nothing to do a second time (R97). -/

namespace Sys2Proof.Machine

/-! ### Which lane a cell lies on (R29, R30) -/

theorem opIndex_lt (o : BitVec 12) : opIndex o < 128 := (o.extractLsb' 0 7).isLt

theorem opDir_lt (o : BitVec 12) : opDir o < 4 := (o.extractLsb' 10 2).isLt

theorem laneOf_cellAt {dir n i : Nat} (hn : n < 128) (hi : i < 128) (hd : dir < 4) : laneOf dir n (cellAt dir n i) = some i := by
  have row (k : Nat) : (128 * i + k % 128) / 128 = i := by omega
  have col (k : Nat) : (128 * i + k % 128) % 128 = k % 128 := by omega
  obtain rfl | rfl | rfl | rfl : dir = 0 ∨ dir = 1 ∨ dir = 2 ∨ dir = 3 := by omega
  · simp [laneOf, cellAt, show (128 * n + i) / 128 = n by omega, show (128 * n + i) % 128 = i by omega]
  · simp [laneOf, cellAt, show (128 * i + n) / 128 = i by omega, show (128 * i + n) % 128 = n by omega]
  · simp [laneOf, cellAt, row, col]
  · simp [laneOf, cellAt, row, col]

/-- The second row or column of a pair is not the first. -/
theorem laneOf_next {dir n i : Nat} (hn : n + 1 < 128) (hi : i < 128) (hd : dir = 0 ∨ dir = 1) : laneOf dir n (cellAt dir (n + 1) i) = none := by
  obtain rfl | rfl := hd
  · simp [laneOf, cellAt, show (128 * (n + 1) + i) / 128 = n + 1 by omega]
  · simp [laneOf, cellAt, show (128 * i + (n + 1)) % 128 = n + 1 by omega]

/-- An operand that checks 6 and 7 pass as a destination of elements of w bits. -/
structure Checked (o : BitVec 12) (w : Nat) : Prop extends Lined o where
  pair : opPair o = (w == 64)
  even : opPair o = true → opIndex o % 2 = 0

/-- Every lane of such an operand lies in the matrix file, and its cells say which lane it is. -/
theorem Checked.operandLane {o : BitVec 12} {w i x : Nat} (h : Checked o w) (hi : i < 128) (hx : x ∈ laneCells o i) : operandLane o x = some i := by
  have hn := opIndex_lt o
  unfold Machine.operandLane
  rw [if_neg (by simp [h.file])]
  cases hp : opPair o
  · rw [laneCells_single h.file hp, List.mem_singleton] at hx
    rw [hx, laneOf_cellAt hn hi (opDir_lt o)]
  · have even := h.even hp
    rw [laneCells_pair h.file hp, List.mem_pair] at hx
    obtain rfl | rfl := hx
    · rw [laneOf_cellAt hn hi (opDir_lt o)]
    · rw [laneOf_next (by omega) hi (h.rows_or_columns hp), if_pos rfl]
      exact laneOf_cellAt (by omega) hi (opDir_lt o)

/-- A cell that two operands share lies in the same lane of both. -/
def SharedInLane (d a : BitVec 12) : Prop := ∀ j k x, j < 128 → k < 128 → x ∈ laneCells d j → x ∈ laneCells a k → j = k

theorem SharedInLane.symm {d a : BitVec 12} (h : SharedInLane d a) : SharedInLane a d := fun j k x hj hk hd ha => (h k j x hk hj ha hd).symm

/-- The check of R111. -/
theorem sharedInLane_of_sharesAcross {d a : BitVec 12} {w : Nat} (hd : Checked d w) (ha : Checked a w) (h : sharesAcross d a = false) : SharedInLane d a := by
  intro j k x hj hk hxd hxa
  by_contra other
  refine Bool.eq_false_iff.1 h ?_
  simp only [sharesAcross, List.any_eq_true, List.mem_range, fileCells, List.mem_filter]
  refine ⟨j, hj, x, ⟨hxd, ?_⟩, ?_⟩
  · rw [hd.operandLane hj hxd]; rfl
  · rw [ha.operandLane hk hxa]; exact bne_iff_ne.2 (Ne.symm other)

/-- A pair of rows and a pair of columns cross in four cells, which lie in two lanes of each. -/
theorem SharedInLane.not_crossing {o p : BitVec 12} {w : Nat} (h : SharedInLane o p) (ho : Checked o w) (hp : Checked p w) (hop : opPair o = true)
    (hpp : opPair p = true) (rows : opDir o = 0) (cols : opDir p = 1) : False := by
  have room := opIndex_lt p
  have even := hp.even hpp
  have shared (k : Nat) (hk : k = opIndex p ∨ k = opIndex p + 1) : k = opIndex o := by
    refine h k (opIndex o) (128 * opIndex o + k) (by omega) (opIndex_lt o) ?_ ?_
    · simp [laneCells_pair ho.file hop, rows, cellAt]
    · rw [laneCells_pair hp.file hpp, cols, List.mem_pair]
      exact hk.imp (congrArg _) (congrArg _)
  have first := shared _ (.inl rfl)
  have second := shared _ (.inr rfl)
  omega

theorem SharedInLane.dir_eq {d a : BitVec 12} {w : Nat} (h : SharedInLane d a) (hd : Checked d w) (ha : Checked a w) (hdp : opPair d = true) (hap : opPair a = true) :
    opDir d = opDir a := by
  obtain d0 | d1 := hd.rows_or_columns hdp <;> obtain a0 | a1 := ha.rows_or_columns hap
  · rw [d0, a0]
  · exact (h.not_crossing hd ha hdp hap d0 a1).elim
  · exact (h.symm.not_crossing ha hd hap hdp a0 d1).elim
  · rw [d1, a1]

/-- Lanes that share a cell share all their cells. -/
theorem SharedInLane.laneCells_eq {d a : BitVec 12} {w j x : Nat} (h : SharedInLane d a) (hd : Checked d w) (ha : Checked a w)
    (hxd : x ∈ laneCells d j) (hxa : x ∈ laneCells a j) : laneCells d j = laneCells a j := by
  have alike : opPair d = opPair a := hd.pair.trans ha.pair.symm
  cases hp : opPair a
  · rw [laneCells_single hd.file (alike.trans hp), List.mem_singleton] at hxd
    rw [laneCells_single ha.file hp, List.mem_singleton] at hxa
    rw [laneCells_single hd.file (alike.trans hp), laneCells_single ha.file hp, ← hxd, ← hxa]
  · have hdp := alike.trans hp
    have dir := h.dir_eq hd ha hdp hp
    have deven := hd.even hdp
    have aeven := ha.even hp
    have same : opIndex d = opIndex a := by
      rw [laneCells_pair hd.file hdp, dir, List.mem_pair] at hxd
      rw [laneCells_pair ha.file hp, List.mem_pair] at hxa
      obtain h0 | h1 := ha.rows_or_columns hp
      · simp only [h0, cellAt] at hxd hxa
        omega
      · simp only [h1, cellAt] at hxd hxa
        omega
    rw [laneCells_pair hd.file hdp, laneCells_pair ha.file hp, dir, same]

theorem intWidth_cases (q : Nat) : intWidth q = 8 ∨ intWidth q = 16 ∨ intWidth q = 32 ∨ intWidth q = 64 := by
  have low : q % 4 < 4 := Nat.mod_lt _ (by omega)
  unfold intWidth
  generalize q % 4 = r at low
  interval_cases r <;> simp

/-- Operands that pass the checks can be exchanged. -/
theorem Exchangeable.of_checked {d a : BitVec 12} {q n : Nat} (hd : Checked d (intWidth q)) (ha : Checked a (intWidth q)) (h : sharesAcross d a = false) (hn : n ≤ 128) :
    Exchangeable d a (intWidth q) n := by
  have shared := sharedInLane_of_sharesAcross hd ha h
  have fits {o : BitVec 12} (ho : Checked o (intWidth q)) : opPair o = true ∨ intWidth q ≤ 32 := by
    rw [ho.pair, beq_iff_eq]
    have := intWidth_cases q
    omega
  refine ⟨hd.toLined, ha.toLined, by have := intWidth_cases q; omega, fits hd, fits ha, hn, fun j k hj hk => ?_⟩
  by_cases meet : ∃ x ∈ laneCells d j, x ∈ laneCells a k
  · obtain ⟨x, hxd, hxa⟩ := meet
    obtain rfl := shared j k x (hj.trans_le hn) (hk.trans_le hn) hxd hxa
    exact .inr ⟨rfl, shared.laneCells_eq hd ha hxd hxa⟩
  · exact .inl (fun x hxd hxa => meet ⟨x, hxd, hxa⟩)

/-! ### The encoding checks of VMAXK -/

theorem checked_of_fields {i : OpInfo} {f : Fields} {o : BitVec 12} (hi : i.flt = false) (h : fieldIllegal i .dst o f = false) (ho : oddPair .dst o = false) :
    Checked o (intWidth f.q.toNat) := by
  unfold fieldIllegal Kind.dst at h
  unfold oddPair Kind.dst at ho
  dsimp only at h ho
  split at h
  next bcast => simp at h
  next file =>
    simp only [wantsPair, hi, Bool.false_eq_true, if_false, Bool.or_eq_false_iff, Bool.and_eq_false_iff, decide_eq_false_iff_not, bne_eq_false_iff_eq] at h
    obtain ⟨⟨⟨-, dir⟩, -⟩, pair⟩ := h
    refine ⟨⟨by simpa using file, fun hp => ?_⟩, pair, fun hp => ?_⟩
    · obtain none | low := dir
      · simp [hp] at none
      · omega
    · simp only [hp, Bool.true_and] at ho
      have low : opIndex o % 2 = o.toNat % 2 := by
        simp only [opIndex, BitVec.extractLsb'_toNat, Nat.shiftRight_zero]
        omega
      have bit : o.toNat.testBit 0 = false := ho
      rw [Nat.testBit_zero, decide_eq_false_iff_not] at bit
      omega

/-- A type that a mask of the low k codes allows. -/
theorem lt_of_testBit_mask {m q k : Nat} (hm : m < 2 ^ k) (h : m.testBit q = true) : q < k := by
  by_contra high
  rw [Nat.testBit_lt_two_pow (hm.trans_le (Nat.pow_le_pow_right (by omega) (by omega : k ≤ q)))] at h
  cases h

/-- What VMAXK's checks leave: CP, a signed type, and operands that can be exchanged. -/
theorem vmaxk_checks {f : Fields} {n : Nat} {q : SeqId} {priv : Bool} (h : encodingFault 0x2C0 f n q priv = none) :
    q = .cp ∧ f.q.toNat < 4 ∧ ∀ m ≤ 128, Exchangeable f.d f.a (intWidth f.q.toNat) m := by
  have info : opInfo 0x2C0 = some (vec 0x0F .zero .dst .dst .zero 0 2) := rfl
  have runs : (vec 0x0F .zero .dst .dst .zero 0 2).runs.allows n q = true := by
    by_contra no
    rw [encodingFault_runs info (by simpa using no)] at h
    cases h
  have legal : illegalStatic 0x2C0 (vec 0x0F .zero .dst .dst .zero 0 2) f = false := by
    by_contra no
    rw [encodingFault_illegal info runs (.inl (by simpa using no))] at h
    cases h
  obtain ⟨bad, odd⟩ := operands_of_encodingFault_none info h
  refine ⟨?_, ?_, fun m hm => ?_⟩
  · unfold Runs.allows at runs
    split at runs
    · cases runs
    · cases q
      case cp => rfl
      all_goals cases runs
  · simp only [illegalStatic, Bool.or_eq_false_iff] at legal
    obtain ⟨⟨⟨⟨mask, -⟩, -⟩, -⟩, -⟩ := legal
    exact lt_of_testBit_mask (m := 0x0F) (by decide) (by simpa [vec] using mask)
  · have fields : badField 0x2C0 (vec 0x0F .zero .dst .dst .zero 0 2) f = none ∧ classOperand 0x2C0 f = none := by
      unfold badOperand at bad
      split at bad
      · cases bad
      · cases bad
      · exact ⟨‹_›, bad⟩
    obtain ⟨field, operand⟩ := fields
    have apart : sharesAcross f.d f.a = false := by simpa [classOperand] using operand
    unfold badField at field
    unfold oddIndex at odd
    split_ifs at field with fd fa
    split_ifs at odd with od oa
    exact .of_checked (checked_of_fields rfl (by simpa [judgedD, vec] using fd) (by simpa [vec] using od))
      (checked_of_fields rfl (by simpa [vec] using fa) (by simpa [vec] using oa)) apart hm

/-! ### The interlock (R97) -/

/-- A result in flight of the current sequencer, restored ones first, is for a cell that these uses name. -/
def State.meetsFlight (s : State) (uses : List Res) : Bool :=
  ((if s.me = .cp then s.myCore.snap else []) ++ (s.myCore.seqs.get s.me).flights).any (fun fl => fl.lands.any (fun l =>
    l.lanes.any (fun p => (laneCells l.field p.1).any (fun k => uses.any (fun r => resHas r (2000 + k))))))

theorem State.interlock_eq (s : State) (uses : List Res) : s.interlock uses = if s.meetsFlight uses then s.modMyCore Core.settle else s := rfl

theorem State.meetsFlight_congr {s t : State} (hm : t.me = s.me) (hs : t.myCore.snap = s.myCore.snap) (hf : t.mySeq.flights = s.mySeq.flights) (uses : List Res) :
    t.meetsFlight uses = s.meetsFlight uses := by
  have flights : (t.myCore.seqs.get t.me).flights = (s.myCore.seqs.get s.me).flights := hf
  unfold State.meetsFlight
  rw [hm, hs, ← hm, flights, hm]

/-- Results that land at once touch the matrix file. -/
theorem Core.settle_frame (c : Core) : c.settle.neg = c.neg ∧ c.settle.sys = c.sys ∧ c.settle.seqs.cp.sys = c.seqs.cp.sys := by
  have lands : c.onlyCells ((c.snap ++ c.seqs.cp.flights).foldl (fun c f => f.lands.foldl Core.land c) c) :=
    Core.onlyCells_fold _ _ (fun d f => Core.onlyCells_fold _ _ Core.land_onlyCells d) c
  unfold Core.settle
  dsimp only
  rw [lands]
  exact ⟨rfl, rfl, rfl⟩

/-- And leave none in flight. -/
theorem Core.settle_lands (c : Core) {x : Flight} (h : x ∈ c.settle.snap ++ c.settle.seqs.cp.flights) : x.lands = [] := by
  have none {l : List Flight} (h : x ∈ l.map (fun f => { f with lands := [] })) : x.lands = [] := by
    obtain ⟨f, -, rfl⟩ := List.mem_map.1 h
    rfl
  exact (List.mem_append.1 h).elim none none

/-- From s to v results in flight may have landed in the matrix file of a core whose CP has the turn; what these uses name has. -/
structure Settled (uses : List Res) (s v : State) : Prop where
  cur    : v.cur = s.cur
  hold   : v.hold = s.hold
  neg    : v.myCore.neg = s.myCore.neg
  erasec : v.myCore.sysreg 0x041 = s.myCore.sysreg 0x041
  sys    : v.mySeq.sys = s.mySeq.sys
  clear  : v.meetsFlight uses = false

theorem State.interlock_settled {s : State} (h : s.me = .cp) (uses : List Res) : Settled uses s (s.interlock uses) := by
  rw [State.interlock_eq]
  cases hm : s.meetsFlight uses
  case false => exact ⟨rfl, rfl, rfl, rfl, rfl, hm⟩
  case true =>
    have core : (s.modMyCore Core.settle).myCore = s.myCore.settle := State.core_modCore_same _ _ _
    have me : (s.modMyCore Core.settle).me = .cp := h
    obtain ⟨neg, sys, seq⟩ := s.myCore.settle_frame
    refine ⟨rfl, rfl, (congrArg Core.neg core).trans neg, ?_, ?_, ?_⟩
    · change (s.modMyCore Core.settle).myCore.sysreg 0x041 = _
      unfold Core.sysreg
      rw [core, sys]
    · change ((s.modMyCore Core.settle).myCore.seqs.get (s.modMyCore Core.settle).me).sys = (s.myCore.seqs.get s.me).sys
      rw [core, me, h]
      exact seq
    · change (s.modMyCore Core.settle).meetsFlight uses = false
      unfold State.meetsFlight
      rw [me, core, if_pos rfl, List.any_eq_false]
      intro x hx
      rw [s.myCore.settle_lands hx]
      simp

/-- Where no result in flight meets these uses, an instruction reads the state as it is. -/
theorem State.interlock_clear {s : State} {uses : List Res} (h : s.meetsFlight uses = false) : s.interlock uses = s := by
  rw [State.interlock_eq, h]
  rfl

/-- VMAXK and VUNCX of the same operands read and write the same state (R99). -/
theorem uses_vuncx_eq_vmaxk {s t : State} {f g : Fields} (hd : g.d = f.d) (ha : g.a = f.a) (h : t.mySeq.sys = s.mySeq.sys) : t.uses 0x2D0 g = s.uses 0x2C0 f := by
  have vlen : t.mySeq.vlen = s.mySeq.vlen := by unfold Seq.vlen Seq.sysreg; rw [h]
  rw [State.uses_eq t 0x2D0 g (vec 0xFF .zero .dst .dst .zero 1 2) rfl (.inl (by decide)) (by decide) (by decide),
    State.uses_eq s 0x2C0 f (vec 0x0F .zero .dst .dst .zero 0 2) rfl (.inl (by decide)) (by decide) (by decide)]
  simp [usesOf, lanesOfD, lanesOfA, fieldRes, vec, hd, ha, vlen]

end Sys2Proof.Machine
end

section
/-! PROOFS. VUNCX undoes VMAXK (R119, R121). -/

namespace Sys2Proof.Machine

/-! ### The bits of a plane (R119) -/

/-- Bits summed with their weights are the bits of the sum. -/
theorem sum_of_bits (b : Nat → Bool) (n : Nat) :
    (List.range n).foldl (fun m i => m + bitNat (b i) * 2 ^ i) 0 < 2 ^ n ∧
    ∀ j, ((List.range n).foldl (fun m i => m + bitNat (b i) * 2 ^ i) 0).testBit j = (decide (j < n) && b j) := by
  induction n with
  | zero => simp
  | succ n ih =>
    obtain ⟨small, bits⟩ := ih
    rw [List.range_succ, List.foldl_append, List.foldl_cons, List.foldl_nil]
    generalize (List.range n).foldl (fun m i => m + bitNat (b i) * 2 ^ i) 0 = m at small bits
    refine ⟨?_, fun j => ?_⟩
    · cases b n <;> simp only [bitNat] <;> grind
    · rw [Nat.add_comm, Nat.mul_comm, Nat.testBit_two_pow_mul_add _ small, bits]
      split
      next low => simp [low, Nat.lt_succ_of_lt low]
      next high =>
        obtain rfl | beyond := (Nat.not_lt.1 high).eq_or_lt
        · cases b n <;> simp [bitNat]
        · have zero : (bitNat (b n)).testBit (j - n) = false :=
            Nat.testBit_lt_two_pow (lt_of_lt_of_le (by cases b n <;> simp [bitNat]) (Nat.pow_le_pow_right (by omega) (show 1 ≤ j - n by omega)))
          simp [zero, show ¬ j < n + 1 by omega]

theorem getLsbD_planeOf (b : Nat → Bool) {n j : Nat} (hn : n ≤ 128) (hj : j < n) : (planeOf (List.range n) b).getLsbD j = b j := by
  rw [planeOf, BitVec.getLsbD_ofNat, (sum_of_bits b n).2 j]
  simp [hj, hj.trans_le hn]

theorem planeOf_congr {l : List Nat} {b b' : Nat → Bool} (h : ∀ j ∈ l, b j = b' j) : planeOf l b = planeOf l b' :=
  congrArg (BitVec.ofNat 128) (List.foldl_ext _ _ _ (fun _ j hj => by rw [h j hj]))

/-! ### The operands as VUNCX restores them (R121) -/

section
variable {d a : BitVec 12} {w n j : Nat} {takes : Nat → Bool} {v t : State} (able : Exchangeable d a w n) (h : Exchanged d a w n takes v.myCore t.myCore)
  (hj : j < n)
include able h hj

theorem Exchanged.srcLane_dst : t.srcLane d w j = if takes j then v.srcLane a w j else v.srcLane d w j := by
  rw [State.srcLane_file able.dst.file, State.srcLane_file able.dst.file, State.srcLane_file able.src.file, h.low_dst hj able.wide]

theorem Exchanged.srcLane_src : t.srcLane a w j = if takes j then v.srcLane d w j else v.srcLane a w j := by
  rw [State.srcLane_file able.src.file, State.srcLane_file able.src.file, State.srcLane_file able.dst.file, h.low_src hj able.wide]

omit h in
/-- Lanes that meet are the same cells. -/
theorem Exchangeable.srcLane_of_meets (hm : laneMeets d a j = true) : v.srcLane a w j = v.srcLane d w j := by
  rw [State.srcLane_file able.src.file, State.srcLane_file able.dst.file,
    Core.laneWord_of_laneCells able.dst.file able.src.file (able.cells_of_meets hj hm)]

theorem Exchanged.restored_dst : (if takes j && !laneMeets d a j then t.srcLane a w j else t.srcLane d w j) = v.srcLane d w j := by
  rw [h.srcLane_dst able hj, h.srcLane_src able hj]
  cases ht : takes j
  · simp
  · cases hm : laneMeets d a j
    · simp
    · simp [able.srcLane_of_meets hj hm]

theorem Exchanged.restored_src : (if takes j && !laneMeets d a j then t.srcLane d w j else t.srcLane a w j) = v.srcLane a w j := by
  rw [h.srcLane_dst able hj, h.srcLane_src able hj]
  cases ht : takes j
  · simp
  · cases hm : laneMeets d a j
    · simp
    · simp [able.srcLane_of_meets hj hm]

end

theorem Exchanged.congr_takes {d a : BitVec 12} {w n : Nat} {takes takes' : Nat → Bool} {c c' : Core} (h : Exchanged d a w n takes c c')
    (same : ∀ j, j < n → takes' j = takes j) : Exchanged d a w n takes' c c' :=
  ⟨fun j hj o ho => by rw [same j hj]; exact h.lanes j hj o ho, h.frame⟩

/-! ### The keep operation and its inverse -/

/-- Lane j takes part in VMAXK: y > x (Table 5.4). -/
def maxSwaps (v : State) (f : Fields) (j : Nat) : Bool :=
  decide (toInt (intWidth f.q.toNat) (v.srcLane f.d (intWidth f.q.toNat) j) < toInt (intWidth f.q.toNat) (v.srcLane f.a (intWidth f.q.toNat) j))

/-- The plane that VMAXK keeps. -/
def maxPlane (v : State) (f : Fields) : Plane := planeOf v.lanes (maxSwaps v f)

/-- Where nothing is kept in flight, no result waits for a place. -/
theorem State.crowded_of_hold {s : State} (h : s.hold = false) (f : Fields) {d : Done} (hx : d.extra = []) : s.crowded f d = false := by
  simp [State.crowded, State.held, h, hx]

/-- The state that the exchange of an instruction leaves that read v and changed nothing of the matrix file. -/
theorem Landed.exchanged {v x t : State} {f : Fields} {n : Nat} {takes : Nat → Bool} (h : Landed (exchange v f takes) x t)
    (able : Exchangeable f.d f.a (wOf f) n) (hn : v.mySeq.vlen = n) (hx : x.myCore.cells = v.myCore.cells) :
    Exchanged f.d f.a (wOf f) n takes v.myCore t.myCore :=
  (exchange_exchanges able hn takes).congr (h.cells.trans (Core.lands_cells_congr hx _))

section
variable {i : Instr} {c : Code} {f : Fields} {s t : State} {d : Done} (h : Does i c f s d) (hh : s.hold = false) (hx : d.extra = [])
include h hh hx

theorem Does.exec_eq : exec i s = .next (s.commit c f d) := h.1 (State.crowded_of_hold hh f hx)

/-- An instruction whose results land as it issues leaves them landed. -/
theorem Does.landed (hc : d.st.cur = s.cur) (he : d.engine = false) (hs : d.stores = []) (ht : exec i s = .next t) : Landed d.lands d.st t := by
  have next : s.commit c f d = t := Host.Outcome.next.inj ((h.exec_eq hh hx).symm.trans ht)
  exact next ▸ s.commit_lands c f hc hh he hx hs

end

theorem vmaxk_does {f : Fields} {s v : State} (hr : s.ready 0x2C0 f = true) (hv : s.view 0x2C0 f = v) (room : v.myCore.neg.length < 4096) :
    Does (.vmaxk f) 0x2C0 f s { st := v.modMyCore (fun k => k.pushPlane (maxPlane v f)), lands := exchange v f (maxSwaps v f) } :=
  does_of_body (show Issues (.vmaxk f) 0x2C0 f from rfl) rfl rfl hr hv (keepPlane_room _ _ room)

/-- Lane j of D as VUNCX restores it by plane p. -/
def undoneD (t : State) (g : Fields) (p : Plane) (j : Nat) : Nat :=
  if p.getLsbD j && !laneMeets g.d g.a j then t.srcLane g.a (intWidth g.q.toNat) j else t.srcLane g.d (intWidth g.q.toNat) j

/-- Lane j of A as VUNCX restores it by plane p. -/
def undoneA (t : State) (g : Fields) (p : Plane) (j : Nat) : Nat :=
  if p.getLsbD j && !laneMeets g.d g.a j then t.srcLane g.d (intWidth g.q.toNat) j else t.srcLane g.a (intWidth g.q.toNat) j

/-- VUNCX of a signed type, kind MAX, pops the plane on top and undoes what it says; where that is the plane that VMAXK would keep of the restored operands nothing is charged (R121). -/
theorem vuncx_leaves {g : Fields} {t : State} {p : Plane} {rest : List Plane} (hh : t.hold = false) (hr : t.ready 0x2D0 g = true) (hv : t.view 0x2D0 g = t)
    (hp : t.myCore.neg = p :: rest) (hx : g.x = 0) (hq : g.q.toNat < 4)
    (same : planeOf t.lanes (fun j => decide (toInt (intWidth g.q.toNat) (undoneD t g p j) < toInt (intWidth g.q.toNat) (undoneA t g p j))) = p) :
    ∃ u, exec (.vuncx g) t = .next u ∧ Landed (exchange t g (fun j => p.getLsbD j)) (t.modMyCore (fun k => { k with neg := rest })) u := by
  have undoes := vuncx_does (show Issues (.vuncx g) 0x2D0 g from rfl) hr hv hp (dAt := undoneD t g p) (aAt := undoneA t g p) rfl rfl
  have max : g.x.getLsbD 0 = false := by rw [hx]; rfl
  have free : popNat (p ^^^ p).toNat = 0 := by rw [BitVec.xor_self]; simp [popNat, bitNat]
  simp only [max, Bool.false_eq_true, if_false, readInt, if_neg (Nat.not_le.2 hq), same, free] at undoes
  exact ⟨_, undoes.exec_eq hh rfl, undoes.landed hh rfl rfl rfl rfl (undoes.exec_eq hh rfl)⟩

/-! ### One after the other -/

theorem State.myCore_pushPlane (v : State) (p : Plane) : (v.modMyCore (fun k => k.pushPlane p)).myCore = v.myCore.pushPlane p := State.core_modCore_same _ _ _

theorem State.mySeq_pushPlane (v : State) (p : Plane) : (v.modMyCore (fun k => k.pushPlane p)).mySeq = v.mySeq := by
  change (v.modMyCore (fun k => k.pushPlane p)).myCore.seqs.get v.me = v.myCore.seqs.get v.me
  rw [State.myCore_pushPlane]
  rfl

section
variable {f g : Fields} {s v t : State} (settled : Settled (s.uses 0x2C0 f) s v)
  (kept : Landed (exchange v f (maxSwaps v f)) (v.modMyCore (fun k => k.pushPlane (maxPlane v f))) t)
include kept

theorem sys_after_vmaxk : t.mySeq.sys = v.mySeq.sys := kept.sys.trans (congrArg Seq.sys (v.mySeq_pushPlane _))

theorem exchanged_after_vmaxk (able : Exchangeable f.d f.a (wOf f) v.mySeq.vlen) : Exchanged f.d f.a (wOf f) v.mySeq.vlen (maxSwaps v f) v.myCore t.myCore :=
  kept.exchanged able rfl (congrArg Core.cells (v.myCore_pushPlane _) :)

theorem neg_after_vmaxk : t.myCore.neg = maxPlane v f :: v.myCore.neg := kept.neg.trans (congrArg Core.neg (v.myCore_pushPlane _))

include settled

/-- VUNCX of the same operands finds nothing in flight that it reads or writes. -/
theorem view_after_vmaxk (hd : g.d = f.d) (ha : g.a = f.a) : t.view 0x2D0 g = t := by
  refine State.interlock_clear ?_
  rw [uses_vuncx_eq_vmaxk hd ha ((sys_after_vmaxk kept).trans settled.sys), ← settled.clear]
  exact State.meetsFlight_congr (s := v) (congrArg Prod.snd kept.cur) (kept.snap.trans (congrArg Core.snap (v.myCore_pushPlane _) :))
    (kept.flights.trans (congrArg Seq.flights (v.mySeq_pushPlane _))) _

end

/-- Settles O23: the second exchange is on the lanes of the first, and the plane that VUNCX rebuilds is the one that it pops. -/
theorem vuncxUndoesVmaxk : Obligations.VuncxUndoesVmaxk := by
  unfold Obligations.VuncxUndoesVmaxk
  intro f g s t hh hr room hn ht hr' hd ha hq hx
  have fault : encodingFault 0x2C0 f s.node s.me (s.privileged s.node) = none := by
    simp only [State.ready, Bool.and_eq_true, Option.isNone_iff_eq_none] at hr
    exact hr.1.1.1
  obtain ⟨cp, signed, exchangeable⟩ := vmaxk_checks fault
  have settled := State.interlock_settled cp (s.uses 0x2C0 f)
  obtain ⟨v, hv⟩ : ∃ v, s.view 0x2C0 f = v := ⟨_, rfl⟩
  rw [show s.interlock (s.uses 0x2C0 f) = v from hv] at settled
  rw [hv]
  have vlen : v.mySeq.vlen = s.mySeq.vlen := by unfold Seq.vlen Seq.sysreg; rw [settled.sys]
  have able := exchangeable v.mySeq.vlen (vlen ▸ hn)
  have kept := (vmaxk_does hr hv (settled.neg ▸ room)).landed hh rfl settled.cur rfl rfl ht
  have lanes : t.mySeq.vlen = v.mySeq.vlen := by unfold Seq.vlen Seq.sysreg; rw [sys_after_vmaxk kept]
  have bits (j : Nat) (hj : j < v.mySeq.vlen) : (maxPlane v f).getLsbD j = maxSwaps v f j := getLsbD_planeOf _ able.room hj
  have first : Exchanged f.d f.a (wOf f) v.mySeq.vlen (fun j => (maxPlane v f).getLsbD j) v.myCore t.myCore :=
    (exchanged_after_vmaxk kept able).congr_takes bits
  have same : planeOf t.lanes (fun j => decide (toInt (intWidth g.q.toNat) (undoneD t g (maxPlane v f) j) < toInt (intWidth g.q.toNat) (undoneA t g (maxPlane v f) j))) =
      maxPlane v f := by
    rw [State.lanes, lanes]
    refine planeOf_congr (fun j hj => ?_)
    have hj := List.mem_range.1 hj
    unfold undoneD undoneA maxSwaps
    rw [hd, ha, hq, first.restored_dst able hj, first.restored_src able hj]
  obtain ⟨u, hu, undone⟩ := vuncx_leaves (kept.hold.trans (settled.hold.trans hh)) hr' (view_after_vmaxk settled kept hd ha)
    (neg_after_vmaxk kept) hx (hq ▸ signed) same
  have popped : (t.modMyCore (fun k => { k with neg := v.myCore.neg })).myCore = { t.myCore with neg := v.myCore.neg } := State.core_modCore_same _ _ _
  have second : Exchanged f.d f.a (wOf f) v.mySeq.vlen (fun j => (maxPlane v f).getLsbD j) t.myCore u.myCore := by
    have done := undone.exchanged (n := v.mySeq.vlen) (by rw [wOf, hd, ha, hq]; exact able) lanes (congrArg Core.cells popped :)
    rwa [wOf, hd, ha, hq] at done
  refine ⟨u, hu, fun k => first.twice able.dst.file able.src.file able.wide second k, ?_, ?_⟩
  · exact (undone.neg.trans (congrArg Core.neg popped)).trans settled.neg
  · calc u.myCore.sysreg 0x041
      _ = t.myCore.sysreg 0x041 := undone.erasec.trans (congrArg (·.sysreg 0x041) popped)
      _ = v.myCore.sysreg 0x041 := kept.erasec.trans (congrArg (·.sysreg 0x041) (v.myCore_pushPlane _))
      _ = s.myCore.sysreg 0x041 := settled.erasec

end Sys2Proof.Machine
end

section
/-! SUPPORT. Rounding to an integer as the rules write it (R138), and the model's rounding of a count of units. -/

namespace Sys2Proof.Machine

/-! ### Signs, magnitudes and powers of two -/

/-- x under a sign. -/
def signed {α : Type} [Neg α] (neg : Bool) (x : α) : α := if neg then -x else x

theorem signed_mul (neg : Bool) (x y : ℚ) : signed neg (x * y) = signed neg x * y := by
  cases neg <;> simp [signed]

theorem signed_div (neg : Bool) (x y : ℚ) : signed neg (x / y) = signed neg x / y := by
  rw [div_eq_mul_inv, signed_mul, ← div_eq_mul_inv]

@[simp] theorem signed_cast (neg : Bool) (k : ℤ) : ((signed neg k : ℤ) : ℚ) = signed neg (k : ℚ) := by
  cases neg <;> simp [signed]

theorem signed_inj {neg : Bool} {x y : ℚ} : signed neg x = signed neg y ↔ x = y := by
  cases neg <;> simp [signed]

theorem signed_signed (p q : Bool) (x : ℚ) : signed p (signed q x) = signed (p != q) x := by
  cases p <;> cases q <;> simp [signed]

@[simp] theorem signed_zero (neg : Bool) : signed neg (0 : ℚ) = 0 := by
  cases neg <;> simp [signed]

@[simp] theorem abs_signed (neg : Bool) (x : ℚ) : |signed neg x| = |x| := by
  cases neg <;> simp [signed]

/-- A number is its magnitude under its sign. -/
theorem signed_abs (x : ℚ) : signed (decide (x < 0)) |x| = x := by
  by_cases h : x < 0
  · simp [signed, h, abs_of_neg h]
  · simp [signed, h, abs_of_nonneg (not_lt.1 h)]

/-- The sign of a number that is not zero. -/
theorem decide_signed_neg (neg : Bool) {x : ℚ} (h : 0 < x) : decide (signed neg x < 0) = neg := by
  cases neg <;> simp [signed, h, h.le]

theorem twoTo_eq (e : ℤ) : twoTo e = 2 ^ e := by
  unfold twoTo
  split_ifs with h
  · lift e to ℕ using h
    simp
  · obtain ⟨n, rfl⟩ : ∃ n : ℕ, e = -n := ⟨(-e).toNat, by omega⟩
    simp

theorem magnitude_eq (x : ℚ) : magnitude x = |x| := by
  unfold magnitude
  split_ifs with h
  · exact (abs_of_neg h).symm
  · exact (abs_of_nonneg (not_lt.1 h)).symm

theorem number_fin (neg : Bool) (m : ℕ) (e : ℤ) : (Fp.fin neg m e).number = signed neg ((m : ℚ) * 2 ^ e) := by
  rw [signed_mul, ← twoTo_eq]
  rfl

theorem two_zpow_pos (e : ℤ) : (0 : ℚ) < 2 ^ e := zpow_pos two_pos e

/-- A power of two of a natural exponent, as a factor of another. -/
theorem natCast_two_pow_mul (n : ℕ) (e : ℤ) : ((2 ^ n : ℕ) : ℚ) * 2 ^ e = 2 ^ (n + e) := by
  rw [zpow_add₀ two_ne_zero, zpow_natCast]
  push_cast
  rfl

theorem two_zpow_le {a b : ℤ} : (2 : ℚ) ^ a ≤ 2 ^ b ↔ a ≤ b := zpow_le_zpow_iff_right₀ one_lt_two

theorem two_zpow_lt {a b : ℤ} : (2 : ℚ) ^ a < 2 ^ b ↔ a < b := zpow_lt_zpow_iff_right₀ one_lt_two

/-! ### Bits of a number -/

theorem lt_two_pow_numBits (m : ℕ) : m < 2 ^ numBits m := by
  unfold numBits
  split_ifs with h
  · simp [h]
  · exact Nat.lt_log2_self

theorem two_pow_numBits_le {m : ℕ} (h : m ≠ 0) : 2 ^ (numBits m - 1) ≤ m := by
  rw [numBits, if_neg h]
  exact Nat.log2_self_le h

theorem numBits_pos {m : ℕ} (h : m ≠ 0) : 1 ≤ numBits m := by
  rw [numBits, if_neg h]
  omega

/-- A number of at least n + 1 bits. -/
theorem lt_numBits {m n : ℕ} (h : 2 ^ n ≤ m) : n < numBits m :=
  (Nat.pow_lt_pow_iff_right one_lt_two).1 (h.trans_lt (lt_two_pow_numBits m))

/-- A number of at most n bits. -/
theorem numBits_le {m n : ℕ} (h : m < 2 ^ n) : numBits m ≤ n := by
  rcases eq_or_ne m 0 with rfl | hm
  · simp [numBits]
  · have := (Nat.pow_lt_pow_iff_right one_lt_two).1 ((two_pow_numBits_le hm).trans_lt h)
    omega

/-! ### Rounding a magnitude to an integer (R138) -/

/-- The mode takes the integer above the floor of x, a magnitude of this sign. -/
def roundsUp (rm : ℕ) (neg : Bool) (x : ℚ) : Bool :=
  match rm with
  | 0 => decide (1 / 2 < x - ⌊x⌋₊) || (decide (x - ⌊x⌋₊ = 1 / 2) && ⌊x⌋₊ % 2 == 1)
  | 1 => false
  | 2 => neg && decide (x ≠ ⌊x⌋₊)
  | _ => !neg && decide (x ≠ ⌊x⌋₊)

/-- The magnitude of what a number of this sign and magnitude x rounds to. -/
def roundNat (rm : ℕ) (neg : Bool) (x : ℚ) : ℕ := if roundsUp rm neg x then ⌊x⌋₊ + 1 else ⌊x⌋₊

theorem roundsUp_natCast (rm : ℕ) (neg : Bool) (n : ℕ) : roundsUp rm neg n = false := by
  unfold roundsUp
  split <;> simp

@[simp] theorem roundNat_natCast (rm : ℕ) (neg : Bool) (n : ℕ) : roundNat rm neg n = n := by
  simp [roundNat, roundsUp_natCast]

/-- Only an integer rounds to itself. -/
theorem roundNat_eq_self_iff {rm : ℕ} {neg : Bool} {x : ℚ} : (roundNat rm neg x : ℚ) = x ↔ x = ⌊x⌋₊ := by
  constructor
  · intro h
    rw [← h, Nat.floor_natCast]
  · intro h
    rw [h, roundNat_natCast]

theorem roundNat_le {rm : ℕ} {neg : Bool} {x : ℚ} {n : ℕ} (h0 : 0 ≤ x) (h : x ≤ n) : roundNat rm neg x ≤ n := by
  rcases h.eq_or_lt with rfl | h
  · rw [roundNat_natCast]
  · have : ⌊x⌋₊ < n := (Nat.floor_lt' (by rintro rfl; exact absurd h0 (not_le.2 (by exact_mod_cast h)))).2 h
    unfold roundNat
    split_ifs <;> omega

theorem le_roundNat {rm : ℕ} {neg : Bool} {x : ℚ} {n : ℕ} (h : (n : ℚ) ≤ x) : n ≤ roundNat rm neg x := by
  have := Nat.le_floor h
  unfold roundNat
  split_ifs <;> omega

theorem roundsTo_self (rm : ℕ) (k : ℤ) : RoundsTo rm k k := by
  unfold RoundsTo
  split
  · refine ⟨by linarith, by linarith, fun h => ?_⟩
    rcases h with h | h <;> linarith
  all_goals simp

/-- Rounding to nearest is the same on both sides of zero. -/
theorem RoundsTo.signed_nearest {x : ℚ} {k : ℤ} (h : RoundsTo 0 x k) (neg : Bool) : RoundsTo 0 (signed neg x) (signed neg k) := by
  obtain ⟨low, high, tie⟩ := h
  cases neg
  · exact ⟨low, high, tie⟩
  · refine ⟨?_, ?_, fun h => ?_⟩
    · simp only [signed, if_true]; push_cast; linarith
    · simp only [signed, if_true]; push_cast; linarith
    · have even := tie (h.symm.imp (fun h => ?_) (fun h => ?_))
      · simp only [signed, if_true]; omega
      all_goals simp only [signed, if_true] at h; push_cast at h; linarith

theorem roundsUp_nearest {neg : Bool} {x : ℚ} : roundsUp 0 neg x = true ↔ 1 / 2 < x - ⌊x⌋₊ ∨ (x - ⌊x⌋₊ = 1 / 2 ∧ ⌊x⌋₊ % 2 = 1) := by
  simp only [roundsUp, Bool.or_eq_true, decide_eq_true_eq, Bool.and_eq_true, beq_iff_eq]

theorem roundsTo_nearest_roundNat (neg : Bool) {x : ℚ} (h : 0 ≤ x) : RoundsTo 0 x (roundNat 0 neg x) := by
  have low := Nat.floor_le h
  have high := Nat.lt_floor_add_one x
  have above := roundsUp_nearest (neg := neg) (x := x)
  unfold roundNat
  generalize ⌊x⌋₊ = n at *
  split_ifs with up
  · obtain above | ⟨tie, odd⟩ := above.1 up
    · refine ⟨by push_cast; linarith, by push_cast; linarith, fun h => ?_⟩
      push_cast at h
      rcases h with h | h <;> linarith
    · exact ⟨by push_cast; linarith, by push_cast; linarith, fun _ => by omega⟩
  · rw [above, not_or, not_lt, not_and] at up
    obtain ⟨below, even⟩ := up
    refine ⟨by push_cast; linarith, by push_cast; linarith, fun h => ?_⟩
    push_cast at h
    have := even (by rcases h with h | h <;> linarith)
    omega

/-- roundNat is the rounding of R138. -/
theorem roundsTo_roundNat (rm : ℕ) (neg : Bool) {x : ℚ} (h : 0 ≤ x) : RoundsTo rm (signed neg x) (signed neg (roundNat rm neg x : ℤ)) := by
  by_cases whole : x = ⌊x⌋₊
  · rw [whole, roundNat_natCast]
    convert roundsTo_self rm (signed neg (⌊x⌋₊ : ℤ)) using 1
    simp
  have low := (Nat.floor_le h).lt_of_ne' whole
  have high := Nat.lt_floor_add_one x
  match rm with
  | 0 => exact (roundsTo_nearest_roundNat neg h).signed_nearest neg
  | 1 =>
    cases neg
    · simp [RoundsTo, roundNat, roundsUp, signed, h, low.le, high]
    · have : ¬ (0 ≤ -x) := by
        have : (0 : ℚ) ≤ ⌊x⌋₊ := by positivity
        linarith
      simp [RoundsTo, roundNat, roundsUp, signed, this, -Left.nonneg_neg_iff]
      constructor <;> linarith
  | 2 => cases neg <;> simp [RoundsTo, roundNat, roundsUp, signed, whole] <;> constructor <;> linarith
  | n + 3 => cases neg <;> simp [RoundsTo, roundNat, roundsUp, signed, whole] <;> constructor <;> linarith

/-! ### The model's counts of a unit -/

/-- A count of 2^e with its sticky bit stands for x, a magnitude (Ex). -/
structure Stands (m : ℕ) (e : ℤ) (sticky : Bool) (x : ℚ) : Prop where
  low   : m * 2 ^ e ≤ x
  high  : x < (m + 1) * 2 ^ e
  exact : sticky = false ↔ x = m * 2 ^ e

theorem stands_exact (m : ℕ) (e : ℤ) : Stands m e false (m * 2 ^ e) where
  low := le_rfl
  high := by
    have := two_zpow_pos e
    linarith
  exact := by simp

theorem Stands.nonneg {m : ℕ} {e : ℤ} {sticky : Bool} {x : ℚ} (h : Stands m e sticky x) : 0 ≤ x :=
  le_trans (mul_nonneg m.cast_nonneg (two_zpow_pos e).le) h.low

/-- y lies at hi + (rem and a little more) / 2^d, the little more being there where sticky says so. -/
structure Splits (y : ℚ) (hi rem half : ℕ) (sticky : Bool) : Prop where
  floor : ⌊y⌋₊ = hi
  above : 1 / 2 < y - hi ↔ half < rem ∨ (rem = half ∧ sticky = true)
  tie   : y - hi = 1 / 2 ↔ rem = half ∧ sticky = false
  whole : y = hi ↔ rem = 0 ∧ sticky = false

theorem Splits.inexact {y : ℚ} {hi rem half : ℕ} {sticky : Bool} (h : Splits y hi rem half sticky) : (rem != 0 || sticky) = decide (y ≠ hi) := by
  rw [Bool.eq_iff_iff, decide_eq_true_eq, Ne, h.whole]
  cases sticky <;> simp

theorem Splits.nearest {y : ℚ} {hi rem half : ℕ} {sticky : Bool} (h : Splits y hi rem half sticky) (neg : Bool) :
    (decide (half < rem) || (rem == half && (sticky || hi % 2 == 1))) = roundsUp 0 neg y := by
  rw [Bool.eq_iff_iff, roundsUp_nearest, h.floor, h.above, h.tie]
  cases sticky <;> simp

/-- A place between two integers by its distance θ from a count of halves. -/
theorem splits_of_offset {y θ : ℚ} {hi rem half : ℕ} {sticky : Bool} (pos : 0 < half) (small : rem < 2 * half) (place : (y - hi) * (2 * half) = rem + θ)
    (low : 0 ≤ θ) (high : θ < 1) (exact : sticky = false ↔ θ = 0) : Splits y hi rem half sticky := by
  have posQ : (0 : ℚ) < 2 * half := by positivity
  have smallQ : (rem : ℚ) + 1 ≤ 2 * half := by exact_mod_cast small
  have nonneg : (0 : ℚ) ≤ rem := rem.cast_nonneg
  have moved : sticky = true ↔ θ ≠ 0 := by rw [← not_iff_not, Bool.not_eq_true, exact, not_not]
  have base : 0 ≤ y - hi := by
    by_contra neg
    have := mul_neg_of_neg_of_pos (not_le.1 neg) posQ
    linarith
  refine ⟨?_, ?_, ?_, ?_⟩
  · refine (Nat.floor_eq_iff (by have := hi.cast_nonneg (α := ℚ); linarith)).2 ⟨by linarith, ?_⟩
    have : y - hi < 1 := lt_of_mul_lt_mul_right (by linarith) posQ.le
    linarith
  · rw [moved, ← mul_lt_mul_iff_of_pos_right posQ, place, show 1 / 2 * (2 * half : ℚ) = half by ring]
    rcases lt_trichotomy rem half with below | rfl | above
    · have : (rem : ℚ) + 1 ≤ half := by exact_mod_cast below
      simp [below.not_gt, below.ne]
      linarith
    · simp [lt_iff_le_and_ne, low]
    · have : (half : ℚ) < rem := by exact_mod_cast above
      simp [above]
      linarith
  · rw [exact, ← mul_left_inj' posQ.ne', place, show 1 / 2 * (2 * half : ℚ) = half by ring]
    rcases lt_trichotomy rem half with below | rfl | above
    · have : (rem : ℚ) + 1 ≤ half := by exact_mod_cast below
      simp [below.ne]
      linarith
    · simp
    · have : (half : ℚ) < rem := by exact_mod_cast above
      simp [above.ne']
      linarith
  · rw [exact, ← sub_eq_zero, ← mul_left_inj' posQ.ne', place, zero_mul, add_eq_zero_iff_of_nonneg nonneg low, Nat.cast_eq_zero]

/-- The bits below the unit say where the number lies between two counts of it. -/
theorem Stands.splits {m : ℕ} {sticky : Bool} {y : ℚ} {d : ℕ} (hd : 0 < d) (h : Stands m (-d) sticky y) :
    Splits y (m >>> d) (m % 2 ^ d) (2 ^ (d - 1)) sticky := by
  have pow : 2 ^ d = 2 * 2 ^ (d - 1) := by rw [← pow_succ', Nat.sub_add_cancel hd]
  have unit : (2 : ℚ) ^ (-(d : ℤ)) * (2 * (2 ^ (d - 1) : ℕ)) = 1 := by
    rw [zpow_neg, zpow_natCast]
    field_simp
    exact_mod_cast pow.symm
  have posQ : (0 : ℚ) < 2 * (2 ^ (d - 1) : ℕ) := by positivity
  have scale {z : ℚ} (k : ℚ) : z = k * 2 ^ (-(d : ℤ)) ↔ z * (2 * (2 ^ (d - 1) : ℕ)) = k := by
    rw [← mul_left_inj' posQ.ne', mul_assoc, unit, mul_one]
  have split : (m : ℚ) = 2 * (2 ^ (d - 1) : ℕ) * (m >>> d : ℕ) + (m % 2 ^ d : ℕ) := by
    rw [Nat.shiftRight_eq_div_pow]
    exact_mod_cast (Nat.div_add_mod m (2 ^ d)).symm.trans (congrArg (· * (m / 2 ^ d) + m % 2 ^ d) pow)
  refine splits_of_offset (θ := y * (2 * (2 ^ (d - 1) : ℕ)) - m) (by positivity) (pow ▸ Nat.mod_lt _ (by positivity)) ?_ ?_ ?_ ?_
  · linear_combination split
  · have := mul_le_mul_of_nonneg_right h.low posQ.le
    rw [mul_assoc, unit] at this
    linarith
  · have := mul_lt_mul_of_pos_right h.high posQ
    rw [mul_assoc, unit] at this
    linarith
  · rw [h.exact, scale, sub_eq_zero]

/-- A number far below the unit, as the model splits it. -/
theorem Stands.splits_far {m : ℕ} {sticky : Bool} {y : ℚ} {d k : ℕ} (hd : numBits m + 2 = d) (hk : d ≤ k) (h : Stands m (-k) sticky y) :
    Splits y (m >>> d) (m % 2 ^ d) (2 ^ (d - 1)) sticky := by
  have bits := lt_two_pow_numBits m
  have fits : m < 2 ^ d := bits.trans_le (Nat.pow_le_pow_right two_pos (by omega))
  have below : m < 2 ^ (d - 1) := bits.trans_le (Nat.pow_le_pow_right two_pos (by omega))
  have pos := two_zpow_pos (-(k : ℤ))
  have quarter : y < 1 / 4 := calc
    y < (m + 1) * 2 ^ (-(k : ℤ)) := h.high
    _ ≤ (2 ^ numBits m : ℕ) * 2 ^ (-(k : ℤ)) := by gcongr; exact_mod_cast bits
    _ = 2 ^ ((numBits m : ℤ) - k) := by rw [natCast_two_pow_mul]; rfl
    _ ≤ 2 ^ (-2 : ℤ) := two_zpow_le.2 (by omega)
    _ = 1 / 4 := by norm_num
  rw [Nat.shiftRight_eq_div_pow, Nat.div_eq_of_lt fits, Nat.mod_eq_of_lt fits]
  refine ⟨Nat.floor_eq_zero.2 (by linarith), ?_, ?_, ?_⟩
  · simp [below.ne, below.not_gt]
    linarith
  · simp [below.ne]
    linarith
  · have : y = 0 ↔ m = 0 ∧ sticky = false := by
      constructor
      · rintro rfl
        have : (m : ℚ) * 2 ^ (-(k : ℤ)) = 0 := le_antisymm h.low (by positivity)
        rw [mul_eq_zero, or_iff_left pos.ne', Nat.cast_eq_zero] at this
        exact ⟨this, h.exact.2 (by simp [this])⟩
      · rintro ⟨rfl, exact⟩
        simpa using h.exact.1 exact
    simpa using this

/-- The model's rounding of a count of units of 2^q, which R138 states: the number in units is x / 2^q. -/
theorem roundAt_eq {m : ℕ} {e q : ℤ} {sticky : Bool} {x : ℚ} (rm : ℕ) (neg : Bool) (h : Stands m e sticky x) (fine : sticky = true → e < q) :
    roundAt rm neg m e sticky q = (roundNat rm neg (x / 2 ^ q), decide (x / 2 ^ q ≠ ⌊x / 2 ^ q⌋₊)) := by
  unfold roundAt
  split_ifs with coarse
  · have exact : sticky = false := by
      by_contra st
      have := fine (by simpa using st)
      omega
    have count : x / 2 ^ q = ((m <<< (e - q).toNat : ℕ) : ℚ) := by
      rw [h.exact.1 exact, mul_div_assoc, ← zpow_sub₀ two_ne_zero, Nat.shiftLeft_eq, ← Int.toNat_of_nonneg (show 0 ≤ e - q by omega), zpow_natCast]
      push_cast
      rfl
    rw [count, roundNat_natCast, Nat.floor_natCast, exact]
    simp
  · obtain ⟨k, hk⟩ : ∃ k : ℕ, q - e = k := ⟨(q - e).toNat, by omega⟩
    have units : Stands m (-k) sticky (x / 2 ^ q) := by
      have pos := two_zpow_pos q
      have unit : (2 : ℚ) ^ (-(k : ℤ)) = 2 ^ e / 2 ^ q := by rw [← zpow_sub₀ two_ne_zero]; congr 1; omega
      exact ⟨by rw [unit, ← mul_div_assoc]; exact div_le_div_of_nonneg_right h.low pos.le,
        by rw [unit, ← mul_div_assoc]; exact div_lt_div_of_pos_right h.high pos,
        by rw [unit, ← mul_div_assoc, div_left_inj' pos.ne']; exact h.exact⟩
    have place : Splits (x / 2 ^ q) (m >>> min k (numBits m + 2)) (m % 2 ^ min k (numBits m + 2)) (2 ^ (min k (numBits m + 2) - 1)) sticky := by
      rcases le_total k (numBits m + 2) with near | far
      · rw [min_eq_left near]
        exact units.splits (by omega)
      · rw [min_eq_right far]
        exact units.splits_far rfl far
    rw [hk, Int.toNat_natCast]
    match rm with
    | 0 => simp only [place.inexact, place.nearest neg, roundNat, place.floor]
    | 1 => simp only [place.inexact, roundNat, roundsUp, place.floor]
    | 2 => simp only [place.inexact, roundNat, roundsUp, place.floor]
    | n + 3 => simp only [place.inexact, roundNat, roundsUp, place.floor]

end Sys2Proof.Machine
end

section
/-! SUPPORT. The formats of Table 6.1: what a pattern holds, and the one rounding of a number to a format (R135, R138 to R141). -/

namespace Sys2Proof.Machine

/-! ### Formats and their patterns (Table 6.1) -/

/-- The widths of a format leave room for its special patterns; its fraction is no wider than FP64's. -/
structure Fmt.Regular (t : Fmt) : Prop where
  exponent : 2 ≤ t.ew
  fraction : 1 ≤ t.fw
  narrow   : t.fw ≤ 52

theorem fmtOf_regular (q : ℕ) : (fmtOf q).Regular := by
  unfold fmtOf
  split <;> exact ⟨by decide, by decide, by decide⟩

theorem regular_of_mem {t : Fmt} (h : t ∈ [Fmt.f64, Fmt.f32, Fmt.f16, Fmt.bf16, Fmt.e4m3, Fmt.e5m2]) : t.Regular := by
  simp only [List.mem_cons, List.not_mem_nil, or_false] at h
  rcases h with rfl | rfl | rfl | rfl | rfl | rfl <;> exact ⟨by decide, by decide, by decide⟩

/-- The exponent of the unit of the subnormal numbers. -/
def Fmt.low (t : Fmt) : ℤ := t.emin - t.fw

/-- The largest significand of the largest binade, in its unit: E4M3 gives one up to its NaN. -/
def Fmt.maxSig (t : Fmt) : ℕ := if t.inf then 2 ^ (t.fw + 1) - 1 else 2 ^ (t.fw + 1) - 2

/-- How many binades up from the subnormal unit the largest one's unit lies. -/
def Fmt.maxUnit (t : Fmt) : ℕ := if t.inf then 2 * t.bias - 1 else 2 * t.bias

/-- n units up from the subnormal one, the significand m has a pattern of its own. -/
structure Fmt.Fits (t : Fmt) (n m : ℕ) : Prop where
  normal : n = 0 ∨ 2 ^ t.fw ≤ m
  width  : m < 2 ^ (t.fw + 1)
  finite : n * 2 ^ t.fw + m ≤ t.maxMag

section
variable {t : Fmt} (ht : t.Regular)
include ht

theorem Fmt.Regular.bias_pos : 1 ≤ t.bias := by
  have : 2 ^ 1 ≤ 2 ^ (t.ew - 1) := Nat.pow_le_pow_right two_pos (by have := ht.exponent; omega)
  unfold Fmt.bias
  omega

theorem Fmt.Regular.two_pow_ew : 2 ^ t.ew = 2 * t.bias + 2 := by
  have h := ht.bias_pos
  have : 2 ^ t.ew = 2 * 2 ^ (t.ew - 1) := by rw [← pow_succ', Nat.sub_add_cancel (by have := ht.exponent; omega)]
  unfold Fmt.bias at *
  omega

theorem Fmt.Regular.two_pow_fw : 2 ≤ 2 ^ t.fw := Nat.pow_le_pow_right two_pos ht.fraction (n := 2) 

theorem Fmt.Regular.maxMag_eq : t.maxMag = t.maxUnit * 2 ^ t.fw + t.maxSig := by
  have h := ht.bias_pos
  have hf := ht.two_pow_fw
  unfold Fmt.maxMag Fmt.maxUnit Fmt.maxSig
  rw [pow_add, ht.two_pow_ew, pow_succ]
  obtain ⟨b, hb⟩ := Nat.exists_eq_add_of_le h
  generalize 2 ^ t.fw = p at *
  split_ifs
  · rw [hb, show 2 * (1 + b) + 2 - 1 = 2 * b + 3 by omega, show 2 * (1 + b) - 1 = 2 * b + 1 by omega, ← Nat.add_sub_assoc (by omega)]
    congr 1
    ring
  · rw [← Nat.add_sub_assoc (by omega)]
    congr 1
    ring

theorem Fmt.Regular.maxMag_lt : t.maxMag < 2 ^ (t.ew + t.fw) := by
  have hf := ht.two_pow_fw
  have he := ht.two_pow_ew
  unfold Fmt.maxMag
  rw [pow_add]
  have : 2 ≤ 2 ^ t.ew * 2 ^ t.fw := by nlinarith
  split_ifs
  · have : (2 ^ t.ew - 1) * 2 ^ t.fw ≤ 2 ^ t.ew * 2 ^ t.fw := Nat.mul_le_mul_right _ (Nat.sub_le _ _)
    omega
  · omega

theorem Fmt.Regular.largest_eq : t.largest = t.maxSig * 2 ^ (t.low + t.maxUnit) := by
  have hb := ht.bias_pos
  have hf := ht.two_pow_fw
  unfold Fmt.largest Fmt.maxSig Fmt.maxUnit Fmt.low Fmt.emin
  simp only [twoTo_eq]
  split_ifs
  · rw [Nat.cast_sub (by rw [pow_succ]; omega), show (1 - (t.bias : ℤ) - t.fw + ((2 * t.bias - 1 : ℕ) : ℤ)) = (t.bias : ℤ) + -(t.fw : ℤ) by omega, zpow_add₀ two_ne_zero]
    push_cast
    rw [pow_succ, zpow_neg, zpow_natCast]
    field_simp
  · rw [Nat.cast_sub (by rw [pow_succ]; omega), show (1 - (t.bias : ℤ) - t.fw + ((2 * t.bias : ℕ) : ℤ)) = ((t.bias : ℤ) + 1) + -(t.fw : ℤ) by push_cast; ring,
      zpow_add₀ two_ne_zero (t.bias + 1 : ℤ), zpow_sub₀ two_ne_zero]
    push_cast
    rw [pow_succ, zpow_neg, zpow_natCast]
    field_simp

end

theorem Fmt.sgn_eq (t : Fmt) (neg : Bool) : t.sgn neg = bitNat neg * (2 ^ t.ew * 2 ^ t.fw) := by
  rw [← pow_add]
  cases neg <;> simp [Fmt.sgn, Fmt.signBit, bitNat]

/-- The fields of a pattern (Table 6.1). -/
theorem Fmt.fields (t : Fmt) (neg : Bool) {e f : ℕ} (he : e < 2 ^ t.ew) (hf : f < 2 ^ t.fw) :
    ((t.sgn neg + (e * 2 ^ t.fw + f)) / t.signBit % 2 == 1) = neg ∧ (t.sgn neg + (e * 2 ^ t.fw + f)) / 2 ^ t.fw % 2 ^ t.ew = e ∧
      (t.sgn neg + (e * 2 ^ t.fw + f)) % 2 ^ t.fw = f := by
  have split : t.sgn neg + (e * 2 ^ t.fw + f) = (bitNat neg * 2 ^ t.ew + e) * 2 ^ t.fw + f := by rw [t.sgn_eq]; ring
  have high : ((bitNat neg * 2 ^ t.ew + e) * 2 ^ t.fw + f) / 2 ^ t.fw = bitNat neg * 2 ^ t.ew + e := by
    rw [add_comm, Nat.add_mul_div_right _ _ (Nat.two_pow_pos _), Nat.div_eq_of_lt hf, Nat.zero_add]
  refine ⟨?_, ?_, ?_⟩
  · rw [split, Fmt.signBit, pow_add, mul_comm (2 ^ t.ew), ← Nat.div_div_eq_div_mul, high, add_comm, Nat.add_mul_div_right _ _ (Nat.two_pow_pos _),
      Nat.div_eq_of_lt he, Nat.zero_add]
    cases neg <;> rfl
  · rw [split, high, add_comm, Nat.add_mul_mod_self_right, Nat.mod_eq_of_lt he]
  · rw [split, add_comm, Nat.add_mul_mod_self_right, Nat.mod_eq_of_lt hf]

/-- A pattern is its sign, its exponent and its fraction. -/
theorem Fmt.exists_fields (t : Fmt) {v : ℕ} (hv : v < 2 ^ t.width) :
    ∃ neg e f, e < 2 ^ t.ew ∧ f < 2 ^ t.fw ∧ v = t.sgn neg + (e * 2 ^ t.fw + f) := by
  have width : 2 ^ t.width = 2 * (2 ^ t.ew * 2 ^ t.fw) := by rw [← pow_add, ← pow_succ']; rfl
  refine ⟨decide (v / 2 ^ t.fw / 2 ^ t.ew = 1), v / 2 ^ t.fw % 2 ^ t.ew, v % 2 ^ t.fw, Nat.mod_lt _ (Nat.two_pow_pos _), Nat.mod_lt _ (Nat.two_pow_pos _), ?_⟩
  have top : v / 2 ^ t.fw / 2 ^ t.ew < 2 := by
    rw [Nat.div_div_eq_div_mul, Nat.div_lt_iff_lt_mul (by positivity), mul_comm (2 ^ t.fw), ← width]
    exact hv
  have bit : bitNat (decide (v / 2 ^ t.fw / 2 ^ t.ew = 1)) = v / 2 ^ t.fw / 2 ^ t.ew := by
    rcases Nat.le_one_iff_eq_zero_or_eq_one.1 (Nat.le_of_lt_succ top) with h | h <;> simp [h, bitNat]
  rw [t.sgn_eq, bit]
  calc v
    _ = 2 ^ t.fw * (v / 2 ^ t.fw) + v % 2 ^ t.fw := (Nat.div_add_mod _ _).symm
    _ = 2 ^ t.fw * (2 ^ t.ew * (v / 2 ^ t.fw / 2 ^ t.ew) + v / 2 ^ t.fw % 2 ^ t.ew) + v % 2 ^ t.fw := by rw [Nat.div_add_mod (v / 2 ^ t.fw)]
    _ = _ := by ring

/-- What a pattern is, by its fields (R135, R136). -/
theorem Fmt.value_fields (t : Fmt) (neg : Bool) {e f : ℕ} (he : e < 2 ^ t.ew) (hf : f < 2 ^ t.fw) :
    t.value (t.sgn neg + (e * 2 ^ t.fw + f)) =
      if e = 2 ^ t.ew - 1 ∧ t.inf then (if f = 0 then .inf neg else .nan (decide (f < 2 ^ (t.fw - 1))))
      else if e = 2 ^ t.ew - 1 ∧ f = 2 ^ t.fw - 1 then .nan false
      else if e = 0 then .fin neg f t.low
      else .fin neg (2 ^ t.fw + f) ((e : ℤ) - t.bias - t.fw) := by
  obtain ⟨sign, exponent, fraction⟩ := t.fields neg he hf
  unfold Fmt.value
  simp only [sign, exponent, fraction]
  rfl

theorem Fmt.sgn_add_lt (t : Fmt) (neg : Bool) {m : ℕ} (h : m < 2 ^ (t.ew + t.fw)) : t.sgn neg + m < 2 ^ t.width := by
  have width : 2 ^ t.width = 2 * 2 ^ (t.ew + t.fw) := pow_succ' 2 _
  rw [width]
  unfold Fmt.sgn Fmt.signBit
  split_ifs <;> omega

section
variable {t : Fmt} (ht : t.Regular)
include ht

theorem Fmt.Regular.value_fits (neg : Bool) {n m : ℕ} (h : t.Fits n m) : t.value (t.sgn neg + (n * 2 ^ t.fw + m)) = .fin neg m (t.low + n) := by
  obtain ⟨normal, width, finite⟩ := h
  have he := ht.two_pow_ew
  have hb := ht.bias_pos
  have hp := ht.two_pow_fw
  by_cases sub : m < 2 ^ t.fw
  · obtain rfl : n = 0 := by omega
    rw [t.value_fields neg (by omega) sub, if_neg (by omega), if_neg (by omega), if_pos rfl]
    simp
  · obtain ⟨f, rfl⟩ := Nat.exists_eq_add_of_le (not_lt.1 sub)
    rw [pow_succ] at width
    have shift : n * 2 ^ t.fw + (2 ^ t.fw + f) = (n + 1) * 2 ^ t.fw + f := by ring
    have bound := ht.maxMag_lt
    rw [pow_add] at bound
    have exp : n + 1 < 2 ^ t.ew := by
      by_contra big
      have := Nat.mul_le_mul_right (2 ^ t.fw) (not_lt.1 big)
      omega
    have notInf : ¬ (n + 1 = 2 ^ t.ew - 1 ∧ t.inf) := by
      rintro ⟨top, inf⟩
      rw [shift, top, Fmt.maxMag, if_pos inf] at finite
      have : 0 < (2 ^ t.ew - 1) * 2 ^ t.fw := by apply Nat.mul_pos <;> omega
      omega
    have notNan : ¬ (n + 1 = 2 ^ t.ew - 1 ∧ f = 2 ^ t.fw - 1) := by
      rintro ⟨top, all⟩
      have noInf : ¬ (t.inf = true) := fun inf => notInf ⟨top, inf⟩
      rw [shift, top, Fmt.maxMag, if_neg noInf, pow_add, Nat.sub_mul] at finite
      have := Nat.mul_le_mul_right (2 ^ t.fw) (show 1 ≤ 2 ^ t.ew by omega)
      omega
    rw [shift, t.value_fields neg exp (by omega), if_neg notInf, if_neg notNan, if_neg (by omega)]
    congr 1
    unfold Fmt.low Fmt.emin
    push_cast
    ring

/-- A pattern that is neither an infinity nor a NaN is at most the largest finite one. -/
theorem Fmt.Regular.finite_of_fields {e f : ℕ} (he : e < 2 ^ t.ew) (hf : f < 2 ^ t.fw) (special : ¬ (e = 2 ^ t.ew - 1 ∧ t.inf = true))
    (nan : ¬ (e = 2 ^ t.ew - 1 ∧ f = 2 ^ t.fw - 1)) : e * 2 ^ t.fw + f ≤ t.maxMag := by
  have two := ht.two_pow_ew
  have hb := ht.bias_pos
  unfold Fmt.maxMag
  split_ifs with inf
  · have below : e + 1 ≤ 2 ^ t.ew - 1 := by
      have : e ≠ 2 ^ t.ew - 1 := fun h => special ⟨h, inf⟩
      omega
    have := Nat.mul_le_mul_right (2 ^ t.fw) below
    rw [Nat.add_mul] at this
    omega
  · rw [pow_add]
    rcases Nat.lt_or_ge (e + 1) (2 ^ t.ew) with below | top
    · have := Nat.mul_le_mul_right (2 ^ t.fw) (show e + 2 ≤ 2 ^ t.ew by omega)
      rw [Nat.add_mul] at this
      omega
    · have last : f ≠ 2 ^ t.fw - 1 := fun h => nan ⟨by omega, h⟩
      have := Nat.mul_le_mul_right (2 ^ t.fw) (show e + 1 ≤ 2 ^ t.ew by omega)
      rw [Nat.add_mul] at this
      omega

/-- A pattern that is no NaN is an infinity, or a significand in its unit. -/
theorem Fmt.Regular.value_cases {v : ℕ} (hv : v < 2 ^ t.width) (hn : (t.value v).isNan = false) :
    (∃ neg, t.inf = true ∧ v = t.infinity neg ∧ t.value v = .inf neg) ∨
    (∃ neg n m, t.Fits n m ∧ v = t.sgn neg + (n * 2 ^ t.fw + m) ∧ t.value v = .fin neg m (t.low + n)) := by
  obtain ⟨neg, e, f, he, hf, rfl⟩ := t.exists_fields hv
  rw [t.value_fields neg he hf] at hn
  by_cases special : e = 2 ^ t.ew - 1 ∧ t.inf = true
  · rw [if_pos special] at hn
    have zero : f = 0 := by
      by_contra nz
      rw [if_neg nz] at hn
      cases hn
    refine .inl ⟨neg, special.2, ?_, ?_⟩
    · rw [Fmt.infinity, if_pos special.2, special.1, zero, Nat.add_zero]
    · rw [t.value_fields neg he hf, if_pos special, if_pos zero]
  rw [if_neg special] at hn
  by_cases nan : e = 2 ^ t.ew - 1 ∧ f = 2 ^ t.fw - 1
  · rw [if_pos nan] at hn
    cases hn
  have finite := ht.finite_of_fields he hf special nan
  refine .inr ?_
  obtain ⟨n, m, hm, same⟩ : ∃ n m, t.Fits n m ∧ e * 2 ^ t.fw + f = n * 2 ^ t.fw + m := by
    rcases Nat.eq_zero_or_pos e with rfl | pos
    · exact ⟨0, f, ⟨.inl rfl, by rw [pow_succ]; omega, finite⟩, rfl⟩
    · obtain ⟨n, rfl⟩ := Nat.exists_eq_add_of_le' pos
      have shift : (n + 1) * 2 ^ t.fw + f = n * 2 ^ t.fw + (2 ^ t.fw + f) := by ring
      exact ⟨n, 2 ^ t.fw + f, ⟨.inr (by omega), by rw [pow_succ]; omega, shift ▸ finite⟩, shift⟩
  rw [same]
  exact ⟨neg, n, m, hm, rfl, ht.value_fits neg hm⟩

theorem Fmt.Regular.value_sgn (neg : Bool) : t.value (t.sgn neg) = .fin neg 0 t.low := by
  have fits : t.Fits 0 0 := ⟨.inl rfl, Nat.two_pow_pos _, by simp⟩
  simpa using ht.value_fits neg fits

theorem Fmt.Regular.pattern_lt (neg : Bool) {m : ℕ} (h : m ≤ t.maxMag) : t.sgn neg + m < 2 ^ t.width :=
  t.sgn_add_lt neg (h.trans_lt ht.maxMag_lt)

theorem Fmt.Regular.nan_lt : t.nan < 2 ^ (t.ew + t.fw) := by
  have two := ht.two_pow_ew
  have half : 2 ^ (t.fw - 1) < 2 ^ t.fw := Nat.pow_lt_pow_right one_lt_two (by have := ht.fraction; omega)
  unfold Fmt.nan
  rw [pow_add]
  split_ifs
  · have := Nat.mul_le_mul_right (2 ^ t.fw) (show 2 ^ t.ew - 1 + 1 ≤ 2 ^ t.ew by omega)
    rw [Nat.succ_mul] at this
    omega
  · exact Nat.sub_lt (by positivity) one_pos

theorem Fmt.Regular.infinity_lt (neg : Bool) : t.infinity neg < 2 ^ t.width := by
  unfold Fmt.infinity
  split_ifs
  · refine t.sgn_add_lt neg ?_
    rw [pow_add]
    have := ht.two_pow_ew
    exact Nat.mul_lt_mul_of_pos_right (by omega) (Nat.two_pow_pos _)
  · exact ht.nan_lt.trans (Nat.pow_lt_pow_right one_lt_two (Nat.lt_succ_self _))

/-- The pattern of a count of units holds it; a count of a whole binade is the first of the next one. -/
theorem Fmt.Regular.holds_count (neg : Bool) {n m : ℕ} (normal : n = 0 ∨ 2 ^ t.fw ≤ m) (width : m ≤ 2 ^ (t.fw + 1)) (finite : n * 2 ^ t.fw + m ≤ t.maxMag) :
    t.Holds (t.sgn neg + (n * 2 ^ t.fw + m)) neg (signed neg (m * 2 ^ (t.low + n))) := by
  refine ⟨ht.pattern_lt neg finite, ?_⟩
  rcases width.lt_or_eq with lt | rfl
  · exact ⟨m, _, ht.value_fits neg ⟨normal, lt, finite⟩, number_fin _ _ _⟩
  · have shift : n * 2 ^ t.fw + 2 ^ (t.fw + 1) = (n + 1) * 2 ^ t.fw + 2 ^ t.fw := by rw [pow_succ]; ring
    have next : t.Fits (n + 1) (2 ^ t.fw) := ⟨.inr le_rfl, Nat.pow_lt_pow_right one_lt_two (Nat.lt_succ_self _), shift ▸ finite⟩
    rw [shift]
    refine ⟨_, _, ht.value_fits neg next, ?_⟩
    rw [number_fin, natCast_two_pow_mul, natCast_two_pow_mul]
    congr 2
    push_cast
    ring

end

/-! ### Operands (R135, R141) -/

/-- The sign of a finite operand is its pattern's. -/
theorem operand_sign {t : Fmt} {ftz p : Bool} {v m : ℕ} {e : ℤ} (h : t.operand ftz v = .fin p m e) : (v / t.signBit % 2 == 1) = p := by
  unfold Fmt.operand Fmt.value at h
  simp only at h
  split_ifs at h <;> injection h

/-- The significand of an operand. -/
theorem operand_lt {t : Fmt} {ftz p : Bool} {v m : ℕ} {e : ℤ} (h : t.operand ftz v = .fin p m e) : m < 2 ^ (t.fw + 1) := by
  have fraction := Nat.mod_lt v (Nat.two_pow_pos t.fw)
  rw [pow_succ]
  unfold Fmt.operand Fmt.value at h
  simp only at h
  split_ifs at h <;> injection h <;> omega

theorem operand_lt_two_pow_80 {t : Fmt} (ht : t.Regular) {ftz p : Bool} {v m : ℕ} {e : ℤ} (h : t.operand ftz v = .fin p m e) : m < 2 ^ 80 :=
  (operand_lt h).trans_le (Nat.pow_le_pow_right two_pos (by have := ht.narrow; omega))

end Sys2Proof.Machine
end

section
/-! SUPPORT. The one rounding of a number to a format (R138 to R141, Table 6.1). -/

namespace Sys2Proof.Machine

/-- The leading exponent of a count and of what it stands for. -/
theorem Stands.leading {m : ℕ} {e : ℤ} {sticky : Bool} {x : ℚ} (h : Stands m e sticky x) (hm : m ≠ 0) :
    2 ^ (e + (numBits m : ℤ) - 1) ≤ x ∧ x < 2 ^ (e + (numBits m : ℤ)) := by
  have pos := numBits_pos hm
  constructor
  · calc (2 : ℚ) ^ (e + (numBits m : ℤ) - 1)
      _ = (2 ^ (numBits m - 1) : ℕ) * 2 ^ e := by rw [natCast_two_pow_mul]; congr 1; omega
      _ ≤ m * 2 ^ e := by gcongr; exact_mod_cast two_pow_numBits_le hm
      _ ≤ x := h.low
  · calc x
      _ < (m + 1) * 2 ^ e := h.high
      _ ≤ (2 ^ numBits m : ℕ) * 2 ^ e := by gcongr; exact_mod_cast lt_two_pow_numBits m
      _ = 2 ^ (e + (numBits m : ℤ)) := by rw [natCast_two_pow_mul, add_comm]

theorem Stands.pos {m : ℕ} {e : ℤ} {sticky : Bool} {x : ℚ} (h : Stands m e sticky x) (hm : m ≠ 0) : 0 < x :=
  (two_zpow_pos _).trans_le (h.leading hm).1

/-- A significand of the full precision, or the first of the next binade, in its unit. -/
structure Fmt.Leads (t : Fmt) (r : ℕ) : Prop where
  low  : 2 ^ t.fw ≤ r
  high : r ≤ 2 ^ (t.fw + 1)

theorem Fmt.leads_roundNat (t : Fmt) (rm : ℕ) (neg : Bool) {lead : ℤ} {x : ℚ} (low : 2 ^ lead ≤ x) (high : x < 2 ^ (lead + 1)) :
    t.Leads (roundNat rm neg (x / 2 ^ (lead - t.fw))) := by
  have pos := two_zpow_pos (lead - t.fw)
  refine ⟨le_roundNat ?_, roundNat_le (div_nonneg ((two_zpow_pos lead).le.trans low) pos.le) ?_⟩
  · rwa [le_div_iff₀ pos, natCast_two_pow_mul, add_sub_cancel]
  · rw [div_le_iff₀ pos, natCast_two_pow_mul, Nat.cast_succ, add_right_comm, add_sub_cancel]
    exact high.le

theorem Fmt.Regular.maxSig_bounds {t : Fmt} (ht : t.Regular) : 2 ^ t.fw ≤ t.maxSig ∧ t.maxSig < 2 ^ (t.fw + 1) := by
  have two := ht.two_pow_fw
  unfold Fmt.maxSig
  rw [pow_succ]
  split_ifs <;> omega

/-- The smallest normal value is finite. -/
theorem Fmt.Regular.emin_le_largest {t : Fmt} (ht : t.Regular) : 2 ^ t.emin ≤ t.largest := calc
  (2 : ℚ) ^ t.emin = (2 ^ t.fw : ℕ) * 2 ^ t.low := by rw [natCast_two_pow_mul, Fmt.low, add_sub_cancel]
  _ ≤ t.maxSig * 2 ^ (t.low + t.maxUnit) :=
    mul_le_mul (by exact_mod_cast ht.maxSig_bounds.1) (two_zpow_le.2 (by omega)) (two_zpow_pos _).le (by positivity)
  _ = t.largest := ht.largest_eq.symm

section
variable {t : Fmt} (ht : t.Regular) {lead : ℤ} {r : ℕ} (h : t.Leads r)
include h

/-- The model's test of the binade says whether the rounded number lies below the smallest normal one (R140). -/
theorem Fmt.Leads.tiny_iff : (if r = 2 ^ (t.fw + 1) then lead + 1 else lead) < t.emin ↔ (r : ℚ) * 2 ^ (lead - t.fw) < 2 ^ t.emin := by
  split_ifs with whole
  · rw [whole, natCast_two_pow_mul, two_zpow_lt]
    push_cast
    omega
  · constructor
    · intro below
      calc (r : ℚ) * 2 ^ (lead - t.fw)
        _ < (2 ^ (t.fw + 1) : ℕ) * 2 ^ (lead - t.fw) :=
          mul_lt_mul_of_pos_right (by exact_mod_cast h.high.lt_of_ne whole) (two_zpow_pos _)
        _ = 2 ^ (lead + 1) := by rw [natCast_two_pow_mul]; congr 1; push_cast; ring
        _ ≤ 2 ^ t.emin := two_zpow_le.2 below
    · intro below
      rw [← two_zpow_lt (a := lead)]
      calc (2 : ℚ) ^ lead
        _ = (2 ^ t.fw : ℕ) * 2 ^ (lead - t.fw) := by rw [natCast_two_pow_mul]; congr 1; ring
        _ ≤ r * 2 ^ (lead - t.fw) := by gcongr; exact_mod_cast h.low
        _ < 2 ^ t.emin := below

include ht

/-- The model's test of the binade and the significand says whether the rounded number lies above the largest finite one (R139). -/
theorem Fmt.Leads.tooBig_iff : (t.low + t.maxUnit < lead - t.fw ∨ (lead - t.fw = t.low + t.maxUnit ∧ t.maxSig < r)) ↔
    t.largest < (r : ℚ) * 2 ^ (lead - t.fw) := by
  have two := ht.two_pow_fw
  have sig := ht.maxSig_bounds
  have pos := two_zpow_pos (t.low + t.maxUnit)
  rw [ht.largest_eq]
  rcases lt_trichotomy (lead - t.fw) (t.low + t.maxUnit) with below | same | above
  · refine iff_of_false (by omega) (not_lt.2 ?_)
    calc (r : ℚ) * 2 ^ (lead - t.fw)
      _ ≤ (2 ^ (t.fw + 1) : ℕ) * 2 ^ (lead - t.fw) := by gcongr; exact_mod_cast h.high
      _ = (2 ^ t.fw : ℕ) * 2 ^ (lead - t.fw + 1) := by rw [natCast_two_pow_mul, natCast_two_pow_mul]; congr 1; push_cast; ring
      _ ≤ t.maxSig * 2 ^ (t.low + t.maxUnit) :=
        mul_le_mul (by exact_mod_cast sig.1) (two_zpow_le.2 (by omega)) (two_zpow_pos _).le (by positivity)
  · rw [same, mul_lt_mul_iff_of_pos_right pos, Nat.cast_lt]
    simp
  · refine iff_of_true (.inl above) ?_
    calc (t.maxSig : ℚ) * 2 ^ (t.low + t.maxUnit)
      _ < (2 ^ (t.fw + 1) : ℕ) * 2 ^ (t.low + t.maxUnit) := by gcongr; exact_mod_cast sig.2
      _ = (2 ^ t.fw : ℕ) * 2 ^ (t.low + t.maxUnit + 1) := by rw [natCast_two_pow_mul, natCast_two_pow_mul]; congr 1; push_cast; ring
      _ ≤ r * 2 ^ (lead - t.fw) :=
        mul_le_mul (by exact_mod_cast h.low) (two_zpow_le.2 (by omega)) (two_zpow_pos _).le (by positivity)

/-- The pattern of a significand that is neither tiny nor too big holds it. -/
theorem Fmt.Leads.holds (neg : Bool) (normal : 2 ^ t.emin ≤ (r : ℚ) * 2 ^ (lead - t.fw)) (fits : (r : ℚ) * 2 ^ (lead - t.fw) ≤ t.largest) :
    t.Holds (t.sgn neg + ((lead - t.emin) * (2 ^ t.fw : ℕ) + (r : ℤ)).toNat) neg (signed neg ((r : ℚ) * 2 ^ (lead - t.fw))) := by
  have notTiny := h.tiny_iff.not.2 (not_lt.2 normal)
  have notBig := not_or.1 ((h.tooBig_iff ht (lead := lead)).not.2 (not_lt.2 fits))
  have two := ht.two_pow_fw
  have max := ht.maxMag_eq
  have pow : 2 ^ (t.fw + 1) = 2 ^ t.fw + 2 ^ t.fw := by rw [pow_succ]; ring
  have low : t.low = t.emin - t.fw := rfl
  have sig : 2 ^ t.fw ≤ t.maxSig ∧ 2 ^ t.fw + 2 ^ t.fw ≤ t.maxSig + 2 := by
    unfold Fmt.maxSig
    split_ifs <;> omega
  by_cases first : lead < t.emin
  · rw [pow] at notTiny
    have whole : r = 2 ^ t.fw + 2 ^ t.fw := by
      by_contra other
      rw [if_neg other] at notTiny
      exact notTiny first
    rw [if_pos whole] at notTiny
    have pattern : ((lead - t.emin) * (2 ^ t.fw : ℕ) + (r : ℤ)).toNat = 0 * 2 ^ t.fw + 2 ^ t.fw := by
      rw [show lead - t.emin = -1 by omega, whole]
      omega
    have value : (r : ℚ) * 2 ^ (lead - t.fw) = (2 ^ t.fw : ℕ) * 2 ^ (t.low + (0 : ℕ)) := by
      rw [whole, ← pow, natCast_two_pow_mul, natCast_two_pow_mul]
      congr 1
      omega
    rw [pattern, value]
    exact ht.holds_count neg (.inl rfl) (by omega) (by omega)
  · obtain ⟨n, hn⟩ : ∃ n : ℕ, lead - t.emin = n := ⟨(lead - t.emin).toNat, by omega⟩
    have pattern : ((lead - t.emin) * (2 ^ t.fw : ℕ) + (r : ℤ)).toNat = n * 2 ^ t.fw + r := by
      rw [hn]
      exact_mod_cast Int.toNat_natCast (n * 2 ^ t.fw + r)
    rw [pattern, show lead - t.fw = t.low + n by omega]
    refine ht.holds_count neg (.inr h.low) h.high ?_
    have high := h.high
    rcases (show n ≤ t.maxUnit by omega).lt_or_eq with below | same
    · have := Nat.mul_le_mul_right (2 ^ t.fw) (Nat.succ_le_of_lt below)
      rw [Nat.succ_mul] at this
      omega
    · have : r ≤ t.maxSig := by
        by_contra above
        exact notBig.2 ⟨by omega, by omega⟩
      rw [same]
      omega

end

theorem overflow_eq_overflowed {rm : ℕ} (h : rm < 4) (t : Fmt) (neg : Bool) : t.overflow rm neg = t.overflowed rm neg := by
  unfold Fmt.overflow Fmt.overflowed
  interval_cases rm <;> cases neg <;> simp

/-- A magnitude below the smallest normal one, as a count of the subnormal unit (R140). -/
theorem Fmt.Regular.holds_tiny {t : Fmt} (ht : t.Regular) (rm : ℕ) (neg : Bool) {x : ℚ} (nonneg : 0 ≤ x) (below : x ≤ 2 ^ t.emin) :
    t.Holds (t.sgn neg + roundNat rm neg (x / 2 ^ t.low)) neg (signed neg ((roundNat rm neg (x / 2 ^ t.low) : ℚ) * 2 ^ t.low)) := by
  have pos := two_zpow_pos t.low
  have count : roundNat rm neg (x / 2 ^ t.low) ≤ 2 ^ t.fw := by
    refine roundNat_le (div_nonneg nonneg pos.le) ?_
    rwa [div_le_iff₀ pos, natCast_two_pow_mul, Fmt.low, add_sub_cancel]
  have sig := ht.maxSig_bounds
  have := ht.maxMag_eq
  have holds := ht.holds_count neg (n := 0) (.inl rfl) (count.trans (Nat.pow_le_pow_right two_pos (Nat.le_succ _))) (by omega)
  rwa [Nat.zero_mul, Nat.zero_add, Nat.cast_zero, add_zero] at holds

/-- The model's rounding by cases, as Table 6.1 and R138 to R141 part them. -/
theorem Fmt.Regular.roundNum_eq {t : Fmt} (ht : t.Regular) (env : FpEnv) (sat neg : Bool) {m : ℕ} {e lead : ℤ} {sticky : Bool} {x y : ℚ} {r : ℕ}
    (h : Stands m e sticky x) (hm : m ≠ 0) (wide : sticky = true → t.fw + 1 < numBits m) (hl : e + (numBits m : ℤ) - 1 = lead)
    (hr : roundNat env.rm neg (x / 2 ^ (lead - t.fw)) = r) (hy : (r : ℚ) * 2 ^ (lead - t.fw) = y) :
    t.roundNum env sat neg m e sticky =
      if t.largest < y then ⟨if sat then t.sgn neg + t.maxMag else t.overflow env.rm neg, flOF ||| flNX⟩
      else if y < 2 ^ t.emin then
        if env.ftz then ⟨t.sgn neg, flUF ||| flNX⟩
        else ⟨t.sgn neg + roundNat env.rm neg (x / 2 ^ t.low), if x / 2 ^ t.low = ⌊x / 2 ^ t.low⌋₊ then 0 else flUF ||| flNX⟩
      else ⟨t.sgn neg + ((lead - t.emin) * (2 ^ t.fw : ℕ) + (r : ℤ)).toNat, if y = x then 0 else flNX⟩ := by
  have bounds := h.leading hm
  have leads : t.Leads r := hr ▸ t.leads_roundNat env.rm neg (hl ▸ bounds.1) (by rw [← hl, sub_add_cancel]; exact bounds.2)
  have first := roundAt_eq (q := lead - t.fw) env.rm neg h (fun st => by have := wide st; omega)
  have top : ((2 ^ t.ew : ℕ) : ℤ) - (if t.inf then 2 else 1) - t.bias - t.fw = t.low + t.maxUnit := by
    have := ht.bias_pos
    rw [ht.two_pow_ew]
    unfold Fmt.low Fmt.maxUnit Fmt.emin
    split_ifs <;> omega
  have tooBig : (decide (t.low + t.maxUnit < lead - t.fw) || (decide (lead - t.fw = t.low + t.maxUnit) && decide (t.maxSig < r))) = true ↔ t.largest < y := by
    rw [← hy, ← leads.tooBig_iff ht]
    simp
  have tiny := leads.tiny_iff (lead := lead)
  rw [hy] at tiny
  unfold Fmt.roundNum
  simp only [hl, first, hr, top, tiny]
  rw [show (if t.inf = true then 2 ^ (t.fw + 1) - 1 else 2 ^ (t.fw + 1) - 2) = t.maxSig from rfl]
  simp only [tooBig]
  refine if_congr Iff.rfl rfl ?_
  by_cases small : y < 2 ^ t.emin
  · rw [if_pos small, if_pos small]
    have below : lead < t.emin := by
      have := tiny.2 small
      split_ifs at this <;> omega
    have second := roundAt_eq (q := t.low) env.rm neg h (fun st => by have := wide st; unfold Fmt.low; omega)
    rw [← Fmt.low, second]
    simp
  · rw [if_neg small, if_neg small]
    have unit : lead - t.fw + t.fw + t.bias - 1 = lead - t.emin := by unfold Fmt.emin; omega
    rw [unit]
    have : x / 2 ^ (lead - t.fw) = ⌊x / 2 ^ (lead - t.fw)⌋₊ ↔ y = x := by
      rw [← roundNat_eq_self_iff (rm := env.rm) (neg := neg), hr, eq_div_iff (two_zpow_pos _).ne', hy]
    simp [this]

/-- Every number that is not zero is rounded once (R138 to R141). -/
theorem Fmt.Regular.rounded {t : Fmt} (ht : t.Regular) (env : FpEnv) (hrm : env.rm < 4) (neg : Bool) {m : ℕ} {e : ℤ} {sticky : Bool} {x : ℚ}
    (h : Stands m e sticky x) (hm : m ≠ 0) (wide : sticky = true → t.fw + 1 < numBits m) :
    t.Rounded env (signed neg x) (t.roundNum env false neg m e sticky) := by
  obtain ⟨lead, hl⟩ : ∃ lead, e + (numBits m : ℤ) - 1 = lead := ⟨_, rfl⟩
  obtain ⟨r, hr⟩ : ∃ r, roundNat env.rm neg (x / 2 ^ (lead - t.fw)) = r := ⟨_, rfl⟩
  obtain ⟨y, hy⟩ : ∃ y : ℚ, (r : ℚ) * 2 ^ (lead - t.fw) = y := ⟨_, rfl⟩
  have pos := h.pos hm
  have bounds := h.leading hm
  have leads : t.Leads r := hr ▸ t.leads_roundNat env.rm neg (hl ▸ bounds.1) (by rw [← hl, sub_add_cancel]; exact bounds.2)
  have pos_y : 0 ≤ y := by rw [← hy]; exact mul_nonneg r.cast_nonneg (two_zpow_pos _).le
  have below (small : y < 2 ^ t.emin) : x < 2 ^ t.emin := by
    have := leads.tiny_iff.2 (hy ▸ small)
    refine bounds.2.trans_le (two_zpow_le.2 ?_)
    split_ifs at this <;> omega
  rw [ht.roundNum_eq env false neg h hm wide hl hr hy]
  refine ⟨lead, signed neg r, signed neg y, ?_, ?_, ?_, ?_, ?_⟩
  · rw [twoTo_eq, magnitude_eq, abs_signed, abs_of_pos pos, ← hl]
    exact bounds.1
  · rw [twoTo_eq, magnitude_eq, abs_signed, abs_of_pos pos, ← hl, sub_add_cancel]
    exact bounds.2
  · rw [twoTo_eq, ← signed_div, ← hr]
    exact roundsTo_roundNat _ _ (div_nonneg pos.le (two_zpow_pos _).le)
  · rw [twoTo_eq, ← hy, signed_mul, signed_cast, Int.cast_natCast]
  · simp only [magnitude_eq, abs_signed, abs_of_nonneg pos_y, decide_signed_neg neg pos, signed_inj, twoTo_eq]
    refine ⟨fun big => ?_, fun small flush => ?_, fun small keep => ?_, fun normal fits => ?_⟩
    · rw [if_pos big, overflow_eq_overflowed hrm]
      rfl
    · rw [if_neg (not_lt.2 (small.le.trans ht.emin_le_largest)), if_pos small, if_pos flush]
    · rw [if_neg (not_lt.2 (small.le.trans ht.emin_le_largest)), if_pos small, if_neg (by simp [keep])]
      refine ⟨signed neg (roundNat env.rm neg (x / 2 ^ t.low)), _, ?_, rfl, ?_, ?_⟩
      · rw [← signed_div]
        exact roundsTo_roundNat _ _ (div_nonneg pos.le (two_zpow_pos _).le)
      · rw [signed_cast, Int.cast_natCast, ← signed_mul]
        exact ht.holds_tiny env.rm neg pos.le (below small).le
      · refine if_congr ?_ rfl rfl
        rw [signed_cast, Int.cast_natCast, ← signed_mul, signed_inj, ← roundNat_eq_self_iff (rm := env.rm) (neg := neg), eq_div_iff (two_zpow_pos _).ne']
        rfl
    · rw [if_neg (not_lt.2 fits), if_neg (not_lt.2 normal)]
      exact ⟨hy ▸ leads.holds ht neg (hy ▸ normal) (hy ▸ fits), rfl⟩

/-- What a pattern holds lies within the largest finite value. -/
theorem Fmt.Regular.fits_le_largest {t : Fmt} (ht : t.Regular) {n m : ℕ} (h : t.Fits n m) : (m : ℚ) * 2 ^ (t.low + n) ≤ t.largest := by
  obtain ⟨normal, width, finite⟩ := h
  have sig := ht.maxSig_bounds
  rw [pow_succ] at sig width
  rw [ht.maxMag_eq] at finite
  rw [ht.largest_eq]
  rcases lt_trichotomy n t.maxUnit with below | rfl | above
  · calc (m : ℚ) * 2 ^ (t.low + n)
      _ ≤ (2 ^ (t.fw + 1) : ℕ) * 2 ^ (t.low + n) := by gcongr; rw [pow_succ]; omega
      _ = (2 ^ t.fw : ℕ) * 2 ^ (t.low + n + 1) := by rw [natCast_two_pow_mul, natCast_two_pow_mul]; congr 1; push_cast; ring
      _ ≤ t.maxSig * 2 ^ (t.low + t.maxUnit) :=
        mul_le_mul (by exact_mod_cast sig.1) (two_zpow_le.2 (by omega)) (two_zpow_pos _).le (by positivity)
  · gcongr
    omega
  · have := Nat.mul_le_mul_right (2 ^ t.fw) (Nat.succ_le_of_lt above)
    rw [Nat.succ_mul] at this
    omega

/-- The normal significands are those of the numbers from the smallest normal one up. -/
theorem Fmt.Fits.tiny_iff {t : Fmt} {n m : ℕ} (h : t.Fits n m) : (m : ℚ) * 2 ^ (t.low + n) < 2 ^ t.emin ↔ m < 2 ^ t.fw := by
  have unit : (2 : ℚ) ^ t.emin = (2 ^ t.fw : ℕ) * 2 ^ t.low := by rw [natCast_two_pow_mul, Fmt.low, add_sub_cancel]
  rw [unit]
  rcases Nat.lt_or_ge m (2 ^ t.fw) with sub | normal
  · obtain rfl : n = 0 := by have := h.normal; omega
    rw [Nat.cast_zero, add_zero, mul_lt_mul_iff_of_pos_right (two_zpow_pos _), Nat.cast_lt]
  · refine iff_of_false (not_lt.2 ?_) (not_lt.2 normal)
    exact mul_le_mul (by exact_mod_cast normal) (two_zpow_le.2 (by omega)) (two_zpow_pos _).le (by positivity)

/-- A significand in its unit, which the format holds, is delivered as it is, whatever the mode (R138, R140). -/
theorem Fmt.Regular.roundNum_fits {t : Fmt} (ht : t.Regular) (rm : ℕ) (sat neg : Bool) {n m : ℕ} (h : t.Fits n m) (hm : m ≠ 0) :
    t.roundNum ⟨rm, false⟩ sat neg m (t.low + n) false = ⟨t.sgn neg + (n * 2 ^ t.fw + m), 0⟩ := by
  obtain ⟨lead, hl⟩ : ∃ lead, t.low + n + (numBits m : ℤ) - 1 = lead := ⟨_, rfl⟩
  have stands := stands_exact m (t.low + n)
  have bits : numBits m ≤ t.fw + 1 := numBits_le h.width
  have count {q : ℤ} (k : ℕ) (hq : q + k = t.low + n) : (m : ℚ) * 2 ^ (t.low + n) / 2 ^ q = ((m * 2 ^ k : ℕ) : ℚ) := by
    rw [div_eq_iff (two_zpow_pos _).ne', ← hq]
    push_cast
    rw [zpow_add₀ two_ne_zero, zpow_natCast]
    ring
  obtain ⟨k, hk⟩ : ∃ k : ℕ, t.fw + 1 = numBits m + k := Nat.exists_eq_add_of_le bits
  have exact := count (q := lead - t.fw) k (by omega)
  have value : ((m * 2 ^ k : ℕ) : ℚ) * 2 ^ (lead - t.fw) = m * 2 ^ (t.low + n) := by
    rw [← exact, div_mul_cancel₀ _ (two_zpow_pos _).ne']
  rw [ht.roundNum_eq ⟨rm, false⟩ sat neg stands hm (by simp) hl (by rw [exact, roundNat_natCast]) value,
    if_neg (not_lt.2 (ht.fits_le_largest h))]
  simp only [h.tiny_iff, if_true, Bool.false_eq_true, if_false]
  rcases Nat.lt_or_ge m (2 ^ t.fw) with sub | normal
  · obtain rfl : n = 0 := by have := h.normal; omega
    rw [if_pos sub, count 0 (by omega), pow_zero, Nat.mul_one, roundNat_natCast, Nat.floor_natCast, if_pos rfl, Nat.zero_mul, Nat.zero_add]
  · have full := lt_numBits normal
    obtain rfl : k = 0 := by omega
    have place : lead - t.emin = n := by
      have : t.low = t.emin - t.fw := rfl
      omega
    rw [if_neg (not_lt.2 normal), place, pow_zero, Nat.mul_one]
    congr 2

/-- What a number rounds to is a pattern of the format. -/
theorem Fmt.Rounded.bits_lt {t : Fmt} (ht : t.Regular) {env : FpEnv} {x : ℚ} {o : FpOut} (h : t.Rounded env x o) : o.bits < 2 ^ t.width := by
  obtain ⟨lead, k, y, -, -, -, -, above, flushed, tiny, normal⟩ := h
  rcases lt_or_ge t.largest (magnitude y) with big | fits
  · rw [above big, Fmt.overflowed]
    split_ifs
    · exact ht.infinity_lt _
    · exact ht.pattern_lt _ le_rfl
  rcases lt_or_ge (magnitude y) (twoTo t.emin) with small | large
  · cases flush : env.ftz
    · obtain ⟨j, z, -, -, holds, -⟩ := tiny small flush
      exact holds.1
    · rw [flushed small flush]
      exact ht.pattern_lt _ (Nat.zero_le _)
  · exact (normal large fits).1.1

end Sys2Proof.Machine
end

section
/-! PROOFS. Representable values and the special cases of floating point (R136, R138 to R141, R158, R159, Table 6.1). -/

namespace Sys2Proof.Machine

/-- Settles O29: a value that a pattern holds has its significand and unit, which are delivered as they are; any other number is rounded by the cases of R138 to R141. -/
theorem representableValuesRoundToThemselves : Obligations.RepresentableValuesRoundToThemselves := by
  unfold Obligations.RepresentableValuesRoundToThemselves
  intro t mem
  have ht := regular_of_mem mem
  refine ⟨fun rm v hv finite => ?_, fun env neg m e hrm hm => ?_⟩
  · obtain ⟨neg, inf, pattern, value⟩ | ⟨neg, n, m, fits, pattern, value⟩ := ht.value_cases hv finite
    · rw [value, Fp.exact, Fmt.round, Fmt.deliver, if_pos inf, ← pattern]
    · rw [value, Fp.exact, Fmt.round]
      split_ifs with zero
      · have : n = 0 := fits.normal.resolve_right (by rw [zero]; exact not_le.2 (Nat.two_pow_pos _))
        rw [Fmt.deliver, pattern, zero, this, Nat.zero_mul, Nat.add_zero]
      · rw [Fmt.deliver, ht.roundNum_fits rm false neg fits zero, ← pattern]
  · rw [number_fin]
    exact ht.rounded env hrm neg (stands_exact m e) hm (by simp)

/-! ### NaNs, infinities and zeros -/

theorem Fp.isNan_iff {x : Fp} : x.isNan = true ↔ ∃ s, x = .nan s := by
  cases x <;> simp [Fp.isNan]

theorem Fp.isInf_iff {x : Fp} : x.isInf = true ↔ ∃ s, x = .inf s := by
  cases x <;> simp [Fp.isInf]

theorem Fp.isZero_iff {x : Fp} : x.isZero = true ↔ ∃ p e, x = .fin p 0 e := by
  cases x <;> simp [Fp.isZero]

theorem Fp.sigFlag_of_not_nan {x : Fp} (h : x.isNan = false) : x.sigFlag = 0 := by
  cases x with
  | nan s => cases h
  | inf s => rfl
  | fin s m e => rfl

theorem exAdd_of_nan (rm : ℕ) {x y : Fp} (h : x.isNan = true ∨ y.isNan = true) : exAdd rm x y = (.nan, 0) := by
  obtain ⟨s, rfl⟩ | ⟨s, rfl⟩ := h.imp Fp.isNan_iff.1 Fp.isNan_iff.1
  · rfl
  · cases x <;> rfl

theorem exMul_of_nan {x y : Fp} (h : x.isNan = true ∨ y.isNan = true) : exMul x y = (.nan false, 0) := by
  obtain ⟨s, rfl⟩ | ⟨s, rfl⟩ := h.imp Fp.isNan_iff.1 Fp.isNan_iff.1
  · rfl
  · cases x <;> rfl

theorem exDiv_of_nan {x y : Fp} (h : x.isNan = true ∨ y.isNan = true) : exDiv x y = (.nan, 0) := by
  obtain ⟨s, rfl⟩ | ⟨s, rfl⟩ := h.imp Fp.isNan_iff.1 Fp.isNan_iff.1
  · rfl
  · cases x <;> rfl

theorem Fp.isNan_negate (x : Fp) : x.negate.isNan = x.isNan := by
  cases x <;> rfl

/-- Zero times infinity, in either order, is invalid (R159). -/
theorem exMul_zero_inf {x y : Fp} (h : (x.isZero = true ∧ y.isInf = true) ∨ (x.isInf = true ∧ y.isZero = true)) : exMul x y = (.nan false, flNV) := by
  rcases h with ⟨zero, inf⟩ | ⟨inf, zero⟩
  all_goals
    obtain ⟨p, e, rfl⟩ := Fp.isZero_iff.1 zero
    obtain ⟨s, rfl⟩ := Fp.isInf_iff.1 inf
    rfl

theorem Fp.isNan_of_isZero {x : Fp} (h : x.isZero = true) : x.isNan = false := by
  obtain ⟨p, e, rfl⟩ := Fp.isZero_iff.1 h
  rfl

theorem Fp.isNan_of_isInf {x : Fp} (h : x.isInf = true) : x.isNan = false := by
  obtain ⟨s, rfl⟩ := Fp.isInf_iff.1 h
  rfl

/-- A result that is a NaN is canonical, with NV for a signalling operand and for an invalid operation (R136, R158, R159). -/
theorem fpRounded_nan (t : Fmt) (env : FpEnv) (fl : ℕ) (x y : Fp) : fpRounded t env (.nan, fl) [x, y] = ⟨t.nan, fl ||| x.sigFlag ||| y.sigFlag⟩ := by
  simp [fpRounded, Fmt.round, Fmt.deliver, FpOut.plus]

theorem fpRounded_invalid (t : Fmt) (env : FpEnv) {x y : Fp} (hx : x.isNan = false) (hy : y.isNan = false) :
    fpRounded t env (.nan, flNV) [x, y] = ⟨t.nan, 16⟩ := by
  rw [fpRounded_nan, Fp.sigFlag_of_not_nan hx, Fp.sigFlag_of_not_nan hy]
  rfl

/-- Settles O30: what each operation answers for a NaN, for operands that make it invalid, and for a division by zero. -/
theorem floatSpecialCases : Obligations.FloatSpecialCases := by
  unfold Obligations.FloatSpecialCases
  intro t mem env a b x y hx hy
  have inf : t.inf = true := by
    simp only [List.mem_cons, List.not_mem_nil, or_false] at mem
    rcases mem with rfl | rfl | rfl | rfl <;> rfl
  have add : fpAdd t env a b = fpRounded t env (exAdd env.rm x y) [x, y] := by rw [← hx, ← hy]; rfl
  have sub : fpSub t env a b = fpRounded t env (exAdd env.rm x y.negate) [x, y] := by rw [← hx, ← hy]; rfl
  have mul : fpMul t env a b = fpRounded t env ((exMul x y).1.exact, (exMul x y).2) [x, y] := by rw [← hx, ← hy]; rfl
  have div : fpDiv t env a b = fpRounded t env (exDiv x y) [x, y] := by rw [← hx, ← hy]; rfl
  refine ⟨fun nan => ?_, fun m n hm hn => ?_, fun h => ?_, fun hx hy => ?_, fun m k e n e2 hm hk hn => ?_⟩
  · simp only [List.forall_mem_cons, add, sub, mul, div]
    rw [exAdd_of_nan _ nan, exAdd_of_nan _ (y.isNan_negate.symm ▸ nan), exMul_of_nan nan, exDiv_of_nan nan]
    simp [fpRounded_nan, Fp.exact]
  · subst hm hn
    refine ⟨?_, fun unlike => ?_, fun like => ?_⟩
    · rw [div]
      exact fpRounded_invalid t env rfl rfl
    · rw [add, exAdd, if_neg unlike]
      exact fpRounded_invalid t env rfl rfl
    · subst like
      rw [sub, Fp.negate, Fp.withSign, exAdd, if_neg (by cases m <;> decide)]
      exact fpRounded_invalid t env rfl rfl
  · rw [mul, exMul_zero_inf h]
    rcases h with ⟨zero, inf⟩ | ⟨inf, zero⟩
    · exact fpRounded_invalid t env (Fp.isNan_of_isZero zero) (Fp.isNan_of_isInf inf)
    · exact fpRounded_invalid t env (Fp.isNan_of_isInf inf) (Fp.isNan_of_isZero zero)
  · obtain ⟨p, e, rfl⟩ := Fp.isZero_iff.1 hx
    obtain ⟨q, g, rfl⟩ := Fp.isZero_iff.1 hy
    rw [div]
    exact fpRounded_invalid t env rfl rfl
  · subst hm hn
    rw [div, exDiv, if_neg (fun h => hk h.1), if_pos rfl, fpRounded, Fmt.round, Fmt.deliver, if_pos inf]
    simp [FpOut.plus, Fp.sigFlag, flDZ]

end Sys2Proof.Machine
end

section
/-! PROOFS. What a floating-point or a conversion instruction does with its lane results and their flags (R142 to R145, R147 to R154). -/

namespace Sys2Proof.Machine

/-- Flags that join FPSTAT leave VLEN. -/
theorem State.vlen_addFlags (v : State) (fl : ℕ) : (v.addFlags fl).mySeq.vlen = v.mySeq.vlen := by
  unfold State.addFlags
  split_ifs
  · rfl
  · rw [State.mySeq_modMe, Seq.vlen, Seq.sysreg_setSys_other _ _ _ _ (by decide), Seq.vlen]

section
variable {i j : Instr} {c : Code} {f : Fields} {s v : State} {body : State → Eff} (h : Issues i c f) (hj : coreOf c f = some j)
  (he : exec j s = issued c f body s) (hr : s.ready c f = true) (hv : s.view c f = v)
include h hj he hr hv

/-- An instruction whose lanes raise flags and then are written (R143, R144). -/
theorem fpDoes_of_withFlags {w : ℕ} {meets : ℕ → Bool} {l : List FpEvent} {vals : List (ℕ × ℕ)} {k : State → Eff} (hb : body v = v.withFlags l k)
    (hk : k (v.addFlags (allFlags l)) = .done ((v.addFlags (allFlags l)).writeLanes f.e f.d w meets vals)) : FpDoes i c f s v w meets l vals := by
  constructor
  · intro quiet
    exact does_of_body h hj he hr hv (by rw [hb, State.withFlags, if_neg (not_not.2 quiet), hk])
  · intro trapped
    exact fault_of_body h hj he hr hv (by rw [hb, State.withFlags, if_pos trapped])

/-- An instruction that computes its lanes one by one (R105, R143, R144). -/
theorem fpDoes_of_fpResult {w : ℕ} {srcs : List (BitVec 12)} {lane : ℕ → FpOut} {outs : List (ℕ × FpOut)} (hb : body v = fpResult v f w srcs lane)
    (ho : outs = v.lanes.map (fun n => (n, lane n))) :
    FpDoes i c f s v w (overlapsIn f.d srcs) (outs.map (fun p => (p.1, p.2.fl))) (outs.map (fun p => (p.1, p.2.bits))) := by
  subst ho
  unfold fpResult at hb
  exact fpDoes_of_withFlags h hj he hr hv hb rfl

end

/-- The one scale of VSCL goes to every active lane (R147, R151). -/
theorem vscl_does {f : Fields} {s v : State} {vals : List (ℕ × Fp)} {o : FpOut} (hr : s.ready 0x530 f = true) (hv : s.view 0x530 f = v)
    (hvals : vals = v.lanes.map (fun j => (j, Fmt.f32.operand v.fpEnv.ftz (v.srcLane f.a 32 j))))
    (ho : o = blockScale (dstCode f) (f.x.getLsbD 9) v.fpEnv.ftz (vals.map (fun p => p.2))) :
    FpDoes (.vscl f) 0x530 f s v 32 (reduceMeets f.d f.a v.mySeq.vlen) ((0, o.fl) :: vals.map (fun p => (p.1, p.2.sigFlag)))
      (v.lanes.map (fun j => (j, o.bits))) := by
  subst hvals ho
  refine fpDoes_of_withFlags (show Issues (.vscl f) 0x530 f from rfl) rfl rfl hr hv rfl ?_
  simp only [State.lanes, State.vlen_addFlags]

end Sys2Proof.Machine
end

section
/-! SUPPORT. Exact results and their delivery in a type (R138 to R141, R145, Table 6.6). -/

namespace Sys2Proof.Machine

/-! ### Exact results -/

/-- An exact result is the number v; where that is zero, of this sign. What lies between two counts has more bits than any type keeps. -/
inductive Ex.Denotes : Ex → Bool → ℚ → Prop
  | zero (neg : Bool) : Ex.Denotes (.zero neg) neg 0
  | num {s neg : Bool} {m : ℕ} {e : ℤ} {sticky : Bool} {z : ℚ} (stands : Stands m e sticky z) (nonzero : m ≠ 0)
      (wide : sticky = true → 72 ≤ numBits m) : Ex.Denotes (.num s m e sticky) neg (signed s z)

theorem Fp.exact_denotes (neg : Bool) (m : ℕ) (e : ℤ) : (Fp.fin neg m e).exact.Denotes neg (Fp.fin neg m e).number := by
  rw [number_fin, Fp.exact]
  split_ifs with h
  · rw [h, Nat.cast_zero, zero_mul, signed_zero]
    exact .zero neg
  · exact .num (stands_exact m e) h (by simp)

theorem number_eq_zero {neg : Bool} {m : ℕ} {e : ℤ} : (Fp.fin neg m e).number = 0 ↔ m = 0 := by
  rw [number_fin, ← signed_zero neg, signed_inj, mul_eq_zero, or_iff_left (two_zpow_pos e).ne', Nat.cast_eq_zero]

theorem number_negated (q : Bool) (n : ℕ) (g : ℤ) : (Fp.fin (!q) n g).number = -(Fp.fin q n g).number := by
  rw [number_fin, number_fin]
  cases q <;> simp [signed]

/-- The product of two finite values is exact (Table 7.2). -/
theorem exMul_number (p q : Bool) (m n : ℕ) (e g : ℤ) :
    exMul (.fin p m e) (.fin q n g) = (.fin (p != q) (m * n) (e + g), 0) ∧
      (Fp.fin (p != q) (m * n) (e + g)).number = (Fp.fin p m e).number * (Fp.fin q n g).number := by
  refine ⟨rfl, ?_⟩
  simp only [number_fin]
  rw [← signed_mul, mul_comm _ (signed q _), ← signed_mul, signed_signed, bne_comm, zpow_add₀ two_ne_zero]
  push_cast
  congr 1
  ring

/-- The quotient of two numbers, with the remainder as its sticky bit. -/
theorem stands_quotient {m n : ℕ} (hn : n ≠ 0) (e g : ℤ) :
    Stands ((m <<< 160) / n) (e - g - 160) ((m <<< 160) % n != 0) ((m : ℚ) * (2 : ℚ) ^ e / ((n : ℚ) * (2 : ℚ) ^ g)) := by
  have posN : (0 : ℚ) < n := by exact_mod_cast Nat.pos_of_ne_zero hn
  have unit : (0 : ℚ) < 2 ^ (e - g - 160) := two_zpow_pos _
  have value : (m : ℚ) * (2 : ℚ) ^ e / ((n : ℚ) * (2 : ℚ) ^ g) = ((m <<< 160 : ℕ) : ℚ) / n * 2 ^ (e - g - 160) := by
    rw [Nat.shiftLeft_eq, zpow_sub₀ two_ne_zero, zpow_sub₀ two_ne_zero]
    push_cast
    field_simp
  have split := Nat.div_add_mod (m <<< 160) n
  have below := Nat.mod_lt (m <<< 160) (Nat.pos_of_ne_zero hn)
  rw [value]
  generalize m <<< 160 = k at *
  have splitQ : (k : ℚ) = n * (k / n : ℕ) + (k % n : ℕ) := by exact_mod_cast split.symm
  have belowQ : ((k % n : ℕ) : ℚ) < n := by exact_mod_cast below
  refine ⟨?_, ?_, ?_⟩
  · gcongr
    exact Nat.cast_div_le
  · rw [mul_lt_mul_iff_of_pos_right unit, div_lt_iff₀ posN]
    linarith
  · rw [mul_left_inj' unit.ne', div_eq_iff posN.ne', mul_comm _ (n : ℚ), splitQ]
    simp

/-- The guard bits of a quotient. -/
theorem numBits_quotient {m n : ℕ} (hm : m ≠ 0) (hn : n < 2 ^ 80) (pos : n ≠ 0) : (m <<< 160) / n ≠ 0 ∧ 72 ≤ numBits ((m <<< 160) / n) := by
  have large : 2 ^ 80 ≤ (m <<< 160) / n := by
    rw [Nat.le_div_iff_mul_le (Nat.pos_of_ne_zero pos), Nat.shiftLeft_eq]
    calc 2 ^ 80 * n
      _ ≤ 2 ^ 80 * 2 ^ 80 := Nat.mul_le_mul_left _ hn.le
      _ = 1 * 2 ^ 160 := by norm_num
      _ ≤ m * 2 ^ 160 := Nat.mul_le_mul_right _ (Nat.pos_of_ne_zero hm)
  exact ⟨by have := Nat.two_pow_pos 80; omega, by have := lt_numBits large; omega⟩

/-- The quotient by a number that is not zero (Table 7.2). -/
theorem exDiv_denotes (p q : Bool) (m : ℕ) (e : ℤ) {n : ℕ} (g : ℤ) (hn : n ≠ 0) (small : n < 2 ^ 80) :
    (exDiv (.fin p m e) (.fin q n g)).1.Denotes (p != q) ((Fp.fin p m e).number / (Fp.fin q n g).number) := by
  rw [exDiv, if_neg (fun h => hn h.2), if_neg hn]
  have value : (Fp.fin p m e).number / (Fp.fin q n g).number = signed (p != q) ((m : ℚ) * (2 : ℚ) ^ e / ((n : ℚ) * (2 : ℚ) ^ g)) := by
    rw [number_fin, number_fin, ← signed_signed, signed_div]
    cases p <;> cases q <;> simp [signed, div_neg, neg_div]
  rw [value]
  split_ifs with zero
  · rw [zero, Nat.cast_zero, zero_mul, zero_div, signed_zero]
    exact .zero _
  · obtain ⟨nonzero, wide⟩ := numBits_quotient zero small hn
    exact .num (stands_quotient hn e g) nonzero (fun _ => wide)

/-- A sum of counts, in the smaller unit. -/
theorem alignedSum_value (p q : Bool) (m n : ℕ) (e g : ℤ) :
    ((alignedSum p m e q n g).1 : ℚ) * 2 ^ (alignedSum p m e q n g).2 = (Fp.fin p m e).number + (Fp.fin q n g).number := by
  have shift (k : ℕ) (d : ℤ) (h : min e g ≤ d) : ((k <<< (d - min e g).toNat : ℕ) : ℚ) * 2 ^ min e g = k * 2 ^ d := by
    rw [Nat.shiftLeft_eq]
    push_cast
    rw [mul_assoc, ← zpow_natCast, ← zpow_add₀ two_ne_zero]
    congr 2
    omega
  rw [number_fin, number_fin, ← shift m e (min_le_left _ _), ← shift n g (min_le_right _ _), alignedSum]
  cases p <;> cases q <;> simp only [signed, Bool.false_eq_true, if_true, if_false, Int.cast_add, Int.cast_neg, Int.cast_natCast, add_mul, neg_mul]

/-- The sum of two finite values; of unlike signs it is +0, or −0 under RDN, where it is zero (Table 7.2). -/
theorem exAdd_denotes (rm : ℕ) (p q : Bool) (m n : ℕ) (e g : ℤ) :
    (exAdd rm (.fin p m e) (.fin q n g)).1.Denotes (if p = q then p else rm == 2) ((Fp.fin p m e).number + (Fp.fin q n g).number) := by
  have zero (p : Bool) (e : ℤ) : (Fp.fin p 0 e).number = 0 := number_eq_zero.2 rfl
  by_cases left : m = 0
  · by_cases right : n = 0
    · rw [exAdd, if_pos ⟨left, right⟩, left, right, zero, zero, add_zero]
      exact .zero _
    · rw [exAdd, if_neg (fun h => right h.2), if_pos left, left, zero, zero_add, number_fin]
      exact .num (stands_exact n g) right (by simp)
  by_cases right : n = 0
  · rw [exAdd, if_neg (fun h => left h.1), if_neg left, if_pos right, right, zero, add_zero, number_fin]
    exact .num (stands_exact m e) left (by simp)
  rw [exAdd, if_neg (fun h => left h.1), if_neg left, if_neg right]
  by_cases cancels : (alignedSum p m e q n g).1 = 0
  · simp only [cancels, if_true]
    rw [← alignedSum_value, cancels, Int.cast_zero, zero_mul]
    have unlike : p ≠ q := by
      rintro rfl
      have sum := alignedSum_value p p m n e g
      rw [cancels, Int.cast_zero, zero_mul, number_fin, number_fin] at sum
      have : (0 : ℚ) < m * 2 ^ e := mul_pos (by exact_mod_cast Nat.pos_of_ne_zero left) (two_zpow_pos e)
      have : (0 : ℚ) < n * 2 ^ g := mul_pos (by exact_mod_cast Nat.pos_of_ne_zero right) (two_zpow_pos g)
      cases p <;> simp only [signed, Bool.false_eq_true, if_true, if_false] at sum <;> linarith
    rw [if_neg unlike]
    exact .zero _
  · rw [← alignedSum_value]
    simp only [cancels, if_false]
    generalize alignedSum p m e q n g = z at *
    have value : (z.1 : ℚ) * 2 ^ z.2 = signed (decide (z.1 < 0)) ((z.1.natAbs : ℚ) * 2 ^ z.2) := by
      rw [signed_mul, Nat.cast_natAbs, Int.cast_abs]
      simpa using congrArg (· * (2 : ℚ) ^ z.2) (signed_abs (z.1 : ℚ)).symm
    rw [value]
    exact .num (stands_exact _ _) (Int.natAbs_ne_zero.2 cancels) (by simp)

/-! ### Delivery in a floating-point type (R139, R145) -/

theorem saturates_eq (dst : ℕ) (ovf : Bool) : saturates dst ovf = decide (ovf = false ∧ (dst = 12 ∨ dst = 13)) := by
  rw [Bool.eq_iff_iff]
  simp [saturates]

/-- Saturation changes what an overflow delivers, and nothing else (R145). -/
theorem Fmt.Regular.satRounded {t : Fmt} (ht : t.Regular) (env : FpEnv) (hrm : env.rm < 4) (sat neg : Bool) {m : ℕ} {e : ℤ} {sticky : Bool} {x : ℚ}
    (h : Stands m e sticky x) (hm : m ≠ 0) (wide : sticky = true → t.fw + 1 < numBits m) :
    t.SatRounded env sat (signed neg x) (t.roundNum env sat neg m e sticky) := by
  refine ⟨_, ht.rounded env hrm neg h hm wide, ?_⟩
  rw [decide_signed_neg neg (h.pos hm), ht.roundNum_eq env sat neg h hm wide rfl rfl rfl, ht.roundNum_eq env false neg h hm wide rfl rfl rfl]
  by_cases big : t.largest < (roundNat env.rm neg (x / 2 ^ (e + (numBits m : ℤ) - 1 - t.fw)) : ℚ) * 2 ^ (e + (numBits m : ℤ) - 1 - t.fw)
  · simp only [if_pos big]
    cases sat <;> simp [flOF, flNX]
  · simp only [if_neg big]
    refine (if_neg (fun h => h.2 ?_)).symm
    split_ifs <;> simp [flOF, flNX, flUF]

theorem Ex.Denotes.deliver_zero {x : Ex} {neg : Bool} (h : x.Denotes neg 0) (t : Fmt) (env : FpEnv) (sat : Bool) : t.deliver env sat x = ⟨t.sgn neg, 0⟩ := by
  generalize hv : (0 : ℚ) = v at h
  cases h with
  | zero => rfl
  | num stands nonzero =>
    rw [← signed_zero, signed_inj] at hv
    exact absurd hv (stands.pos nonzero).ne

theorem Ex.Denotes.deliver_rounded {x : Ex} {neg : Bool} {v : ℚ} (h : x.Denotes neg v) (hv : v ≠ 0) {t : Fmt} (ht : t.Regular) (env : FpEnv) (hrm : env.rm < 4)
    (sat : Bool) : t.SatRounded env sat v (t.deliver env sat x) := by
  cases h with
  | zero => exact absurd rfl hv
  | num stands nonzero wide =>
    exact ht.satRounded env hrm sat _ stands nonzero (fun st => by have := wide st; have := ht.narrow; omega)

/-- What is delivered is a pattern of the format. -/
theorem Fmt.Regular.deliver_lt {t : Fmt} (ht : t.Regular) (env : FpEnv) (hrm : env.rm < 4) (sat : Bool) (x : Fp) : (t.deliver env sat x.exact).bits < 2 ^ t.width := by
  have nan : t.nan < 2 ^ t.width := ht.nan_lt.trans (Nat.pow_lt_pow_right one_lt_two (Nat.lt_succ_self _))
  cases x with
  | nan s => exact nan
  | inf s =>
    rw [Fp.exact, Fmt.deliver]
    split_ifs
    · exact ht.infinity_lt s
    · exact ht.pattern_lt s le_rfl
    · exact nan
  | fin s m e =>
    have denotes := Fp.exact_denotes s m e
    by_cases zero : (Fp.fin s m e).number = 0
    · rw [zero] at denotes
      rw [denotes.deliver_zero]
      exact ht.pattern_lt s (Nat.zero_le _)
    · obtain ⟨r, rounded, delivered⟩ := denotes.deliver_rounded zero ht env hrm sat
      rw [delivered]
      split_ifs
      · exact ht.pattern_lt _ le_rfl
      · exact rounded.bits_lt ht

/-- A number that is not zero, rounded without saturation. -/
theorem Ex.Denotes.round_rounded {x : Ex} {neg : Bool} {v : ℚ} (h : x.Denotes neg v) (hv : v ≠ 0) {t : Fmt} (ht : t.Regular) (env : FpEnv) (hrm : env.rm < 4) :
    t.Rounded env v (t.round env x) := by
  obtain ⟨r, rounded, delivered⟩ := h.deliver_rounded hv ht env hrm false
  rw [if_neg (by simp)] at delivered
  exact (show t.round env x = r from delivered) ▸ rounded

/-! ### Delivery in an integer type (Table 6.6) -/

theorem intWidth_le (q : ℕ) : intWidth q ≤ 64 := by
  have : 2 ^ (q % 4) ≤ 2 ^ 3 := Nat.pow_le_pow_right two_pos (by omega)
  unfold intWidth
  omega

/-- The range of an integer type holds zero, and lies well within 2^70. -/
theorem int_range (q : ℕ) : -2 ^ 70 < intMin q (intWidth q) ∧ intMin q (intWidth q) ≤ 0 ∧ 0 ≤ intMax q (intWidth q) ∧ intMax q (intWidth q) < 2 ^ 70 := by
  have wide : 2 ^ intWidth q ≤ 2 ^ 64 := Nat.pow_le_pow_right two_pos (intWidth_le q)
  have half : 2 ^ (intWidth q - 1) ≤ 2 ^ 64 := Nat.pow_le_pow_right two_pos (by have := intWidth_le q; omega)
  have := Nat.two_pow_pos (intWidth q)
  have := Nat.two_pow_pos (intWidth q - 1)
  unfold intMin intMax
  split_ifs <;> omega

/-- An integer held in the range of a type, to the nearer end with NV, else with these flags (Table 6.6). -/
def heldIn (q : ℕ) (k : ℤ) (fl : ℕ) : FpOut :=
  if k < intMin q (intWidth q) then ⟨wrap (intWidth q) (intMin q (intWidth q)), flNV⟩
  else if intMax q (intWidth q) < k then ⟨wrap (intWidth q) (intMax q (intWidth q)), flNV⟩
  else ⟨wrap (intWidth q) k, fl⟩

/-- A number in an integer type: its rounded magnitude under its sign, held in the range. -/
theorem toIntType_num (q rm : ℕ) (neg : Bool) {m : ℕ} {e : ℤ} {sticky : Bool} {z : ℚ} (h : Stands m e sticky z) (hm : m ≠ 0)
    (wide : sticky = true → 72 ≤ numBits m) :
    toIntType q (intWidth q) rm (.num neg m e sticky) = heldIn q (signed neg (roundNat rm neg z : ℤ)) (if ((signed neg (roundNat rm neg z : ℤ) : ℤ) : ℚ) = signed neg z then 0 else flNX) := by
  obtain ⟨lower, upto, from0, upper⟩ := int_range q
  have bits := h.leading hm
  unfold toIntType heldIn
  by_cases big : 70 < e + (numBits m : ℤ)
  · have large : (2 : ℤ) ^ 70 ≤ (roundNat rm neg z : ℤ) := by
      have : ((2 ^ 70 : ℕ) : ℚ) ≤ z := by
        have := (two_zpow_le.2 (show ((70 : ℕ) : ℤ) ≤ e + (numBits m : ℤ) - 1 by omega)).trans bits.1
        rw [zpow_natCast] at this
        exact_mod_cast this
      exact_mod_cast le_roundNat this
    simp only [if_pos big]
    cases neg
    · simp only [signed, Bool.false_eq_true, if_false]
      rw [if_neg (by omega), if_pos (by omega)]
    · simp only [signed, if_true]
      rw [if_pos (by omega)]
  · have unit := roundAt_eq (q := 0) rm neg h (fun st => by have := wide st; omega)
    rw [zpow_zero, div_one] at unit
    have same : ((signed neg (roundNat rm neg z : ℤ) : ℤ) : ℚ) = signed neg z ↔ z = ⌊z⌋₊ := by
      rw [signed_cast, signed_inj, Int.cast_natCast, roundNat_eq_self_iff]
    simp only [if_neg big, roundInt, unit, same, ne_eq, decide_not, Bool.not_eq_true', decide_eq_false_iff_not, ite_not]
    rfl

/-- A number delivered in a type (R145, Table 6.6). -/
theorem Ex.Denotes.delivered {x : Ex} {neg : Bool} {v : ℚ} (h : x.Denotes neg v) (dst : ℕ) (env : FpEnv) (hrm : env.rm < 4) (ovf : Bool) :
    DeliveredIn dst env ovf v neg (deliverType dst env ovf x) := by
  refine ⟨fun float => ⟨?_, fun hv => ?_⟩, fun int => ?_⟩
  · rintro rfl
    rw [deliverType, if_neg (by omega), h.deliver_zero]
  · rw [deliverType, if_neg (by omega), ← saturates_eq]
    exact h.deliver_rounded hv (fmtOf_regular _) env hrm _
  · rw [deliverType, if_pos int]
    cases h with
    | zero =>
      refine ⟨0, by exact_mod_cast roundsTo_self env.rm 0, ?_⟩
      obtain ⟨-, low, high, -⟩ := int_range dst
      rw [if_neg (by omega), if_neg (by omega), if_pos (by simp)]
      simp [toIntType, wrap]
    | num stands nonzero wide =>
      refine ⟨_, roundsTo_roundNat env.rm _ stands.nonneg, ?_⟩
      exact toIntType_num dst env.rm _ stands nonzero wide

end Sys2Proof.Machine
end

section
/-! PROOFS. The lanes of VCVT, VQNT, VDQNT and VSPLIT (R145, R148 to R150, R153, Table 6.6). -/

namespace Sys2Proof.Machine

theorem FpOut.plus_zero (o : FpOut) : o.plus 0 = o := by
  simp [FpOut.plus]

/-! ### Sources (R145) -/

theorem sourceOf_float {src : ℕ} (h : 8 ≤ src) (ftz : Bool) (a : ℕ) : sourceOf src ftz a = (fmtOf (src - 8)).operand ftz a :=
  if_neg (by omega)

/-- An integer source as Table 6.6 reads it. -/
theorem readInt_eq (src w v : ℕ) : readInt src w v = if src < 4 ∧ 2 ^ (w - 1) ≤ v then (v : ℤ) - 2 ^ w else (v : ℤ) := by
  unfold readInt toInt
  by_cases unsigned : 4 ≤ src
  · rw [if_pos unsigned, if_neg (by omega)]
  · rw [if_neg unsigned]
    exact if_congr (by omega) rfl rfl

theorem sourceOf_int {src : ℕ} (h : src < 8) (ftz : Bool) (a : ℕ) :
    sourceOf src ftz a = .fin (decide (readInt src (intWidth src) a < 0)) (readInt src (intWidth src) a).natAbs 0 :=
  if_pos h

theorem number_of_int (z : ℤ) : (Fp.fin (decide (z < 0)) z.natAbs 0).number = (z : ℚ) := by
  rw [number_fin, zpow_zero, mul_one, Nat.cast_natAbs, Int.cast_abs]
  simpa using signed_abs (z : ℚ)

/-- An integer in an integer type is saturated (Table 6.6). -/
theorem heldIn_bits (q : ℕ) (k : ℤ) (fl : ℕ) :
    (heldIn q k fl).bits = wrap (intWidth q) (max (intMin q (intWidth q)) (min (intMax q (intWidth q)) k)) := by
  obtain ⟨-, low, high, -⟩ := int_range q
  unfold heldIn
  split_ifs with below above
  · rw [min_eq_right (by omega), max_eq_left (by omega)]
  · rw [min_eq_left (by omega), max_eq_right (by omega)]
  · rw [min_eq_right (by omega), max_eq_right (by omega)]

theorem toIntType_int_bits (q rm : ℕ) (z : ℤ) :
    (toIntType q (intWidth q) rm (Fp.fin (decide (z < 0)) z.natAbs 0).exact).bits =
      wrap (intWidth q) (max (intMin q (intWidth q)) (min (intMax q (intWidth q)) z)) := by
  obtain ⟨-, low, high, -⟩ := int_range q
  rw [Fp.exact]
  split_ifs with zero
  · rw [Int.natAbs_eq_zero.1 zero, min_eq_right high, max_eq_right low]
    simp [toIntType, wrap]
  · have whole := stands_exact z.natAbs 0
    rw [zpow_zero, mul_one] at whole
    have signed_natAbs : signed (decide (z < 0)) (z.natAbs : ℤ) = z := by
      unfold signed
      by_cases neg : z < 0
      · rw [decide_eq_true neg, if_pos rfl]
        omega
      · rw [decide_eq_false neg, if_neg (by decide)]
        omega
    rw [toIntType_num q rm _ whole zero (by simp), heldIn_bits, roundNat_natCast, signed_natAbs]

/-! ### NaNs and infinities delivered in a type (Table 6.6) -/

theorem deliverType_nan (dst : ℕ) (env : FpEnv) (ovf : Bool) : deliverType dst env ovf .nan = if dst < 8 then ⟨0, 16⟩ else ⟨(fmtOf (dst - 8)).nan, 0⟩ := rfl

/-- Of the formats only E4M3 has no infinity. -/
theorem fmtOf_inf : ∀ q < 6, q ≠ 4 → (fmtOf q).inf = true := by decide

theorem deliverType_inf {dst : ℕ} (h : dst < 14) (env : FpEnv) (ovf neg : Bool) : deliverType dst env ovf (.inf neg) = infinityIn dst ovf neg := by
  unfold deliverType infinityIn
  by_cases int : dst < 8
  · rw [if_pos int, if_pos int, toIntType]
  rw [if_neg int, if_neg int]
  by_cases e4m3 : dst = 12
  · subst e4m3
    cases ovf <;> rfl
  · rw [if_neg e4m3, Fmt.deliver, if_pos (fmtOf_inf _ (by omega) (by omega))]

/-! ### VCVT (R148) -/

section
variable {src dst : ℕ} (env : FpEnv) (ovf : Bool) (v : ℕ)

theorem convLane_float (h : 8 ≤ src) {x : Fp} (hx : (fmtOf (src - 8)).operand env.ftz v = x) :
    convLane src dst env ovf v = (deliverType dst env ovf x.exact).plus x.sigFlag := by
  unfold convLane
  simp only [sourceOf_float h, hx]
  exact if_neg (by omega)

theorem convLane_nan (h : 8 ≤ src) {x : Fp} (hx : (fmtOf (src - 8)).operand env.ftz v = x) (nan : x.isNan = true) :
    convLane src dst env ovf v = if dst < 8 then ⟨0, 16⟩ else ⟨(fmtOf (dst - 8)).nan, x.sigFlag⟩ := by
  rw [convLane_float env ovf v h hx]
  obtain ⟨s, rfl⟩ := Fp.isNan_iff.1 nan
  rw [Fp.exact, deliverType_nan]
  split_ifs
  · cases s <;> rfl
  · simp [FpOut.plus]

theorem convLane_inf (h : 8 ≤ src) (hd : dst < 14) {p : Bool} (hx : (fmtOf (src - 8)).operand env.ftz v = .inf p) :
    convLane src dst env ovf v = infinityIn dst ovf p := by
  rw [convLane_float env ovf v h hx, Fp.exact, deliverType_inf hd]
  exact FpOut.plus_zero _

theorem convLane_number (h : 8 ≤ src) (hrm : env.rm < 4) {p : Bool} {m : ℕ} {e : ℤ} (hx : (fmtOf (src - 8)).operand env.ftz v = .fin p m e) :
    DeliveredIn dst env ovf (Fp.fin p m e).number p (convLane src dst env ovf v) := by
  rw [convLane_float env ovf v h hx, Fp.sigFlag_of_not_nan rfl, FpOut.plus_zero]
  exact (Fp.exact_denotes p m e).delivered dst env hrm ovf

theorem convLane_int (h : src < 8) (hd : 8 ≤ dst) (hrm : env.rm < 4) :
    DeliveredIn dst env ovf (readInt src (intWidth src) v : ℚ) (decide (readInt src (intWidth src) v < 0)) (convLane src dst env ovf v) := by
  have lane : convLane src dst env ovf v = deliverType dst env ovf (sourceOf src env.ftz v).exact := by
    unfold convLane
    simp only
    rw [if_neg (by omega), sourceOf_int h]
    exact FpOut.plus_zero _
  rw [lane, sourceOf_int h, ← number_of_int]
  exact (Fp.exact_denotes _ _ _).delivered dst env hrm ovf

theorem convLane_int_int (h : src < 8) (hd : dst < 8) : convLane src dst env ovf v =
    ⟨wrap (intWidth dst) (max (intMin dst (intWidth dst)) (min (intMax dst (intWidth dst)) (readInt src (intWidth src) v))), 0⟩ := by
  unfold convLane
  simp only
  rw [if_pos ⟨h, hd⟩, sourceOf_int h, deliverType, if_pos hd, ← toIntType_int_bits dst env.rm]
  rfl

end

/-! ### VQNT (R149) -/

section
variable {dst : ℕ} (env : FpEnv) (ovf : Bool) {a sc : ℕ} {x y : Fp} (hx : Fmt.f32.operand env.ftz a = x) (hy : Fmt.f32.operand env.ftz sc = y)
include hx hy

theorem quantLane_bad (small : sc < 2 ^ 32) (h : y.isNan = true ∨ y.isInf = true ∨ y.isZero = true ∨ 2 ^ 31 ≤ sc) :
    quantLane dst env ovf a sc = ⟨nanOfType dst, 16⟩ := by
  unfold quantLane
  simp only [hx, hy]
  refine if_pos ?_
  simp only [Bool.or_eq_true, beq_iff_eq]
  rcases h with h | h | h | h
  · exact .inl (.inl (.inl h))
  · exact .inl (.inl (.inr h))
  · exact .inl (.inr h)
  · exact .inr (by omega)

theorem quantLane_good {n : ℕ} {g : ℤ} (hfin : y = .fin false n g) (hn : n ≠ 0) : quantLane dst env ovf a sc =
    if x.isNan then ⟨nanOfType dst, x.sigFlag⟩ else deliverType dst env ovf (exDiv x y).1 := by
  have sign := operand_sign (hy.trans hfin)
  unfold quantLane
  simp only [hx, hy]
  refine if_neg ?_
  subst hfin
  rw [show Fmt.f32.signBit = 2 ^ 31 from rfl] at sign
  simp [Fp.isNan, Fp.isInf, Fp.isZero, hn]
  simpa using sign

end

/-! ### VDQNT (R150) -/

theorem dequantLane_eq {src dst : ℕ} (env : FpEnv) {a sc : ℕ} {x y : Fp} (hx : sourceOf src env.ftz a = x) (hy : Fmt.f32.operand env.ftz sc = y) :
    dequantLane src dst env a sc = ((fmtOf (dst - 8)).round env (exMul x y).1.exact).plus ((exMul x y).2 ||| x.sigFlag ||| y.sigFlag) := by
  subst hx hy
  rfl

section
variable {src dst : ℕ} (env : FpEnv) {a sc : ℕ} {x y : Fp} (hx : sourceOf src env.ftz a = x) (hy : Fmt.f32.operand env.ftz sc = y)
include hx hy

theorem dequantLane_nan (h : x.isNan = true ∨ y.isNan = true) : dequantLane src dst env a sc = ⟨(fmtOf (dst - 8)).nan, x.sigFlag ||| y.sigFlag⟩ := by
  rw [dequantLane_eq env hx hy, exMul_of_nan h]
  simp [Fp.exact, Fmt.round, Fmt.deliver, FpOut.plus]

theorem dequantLane_invalid (h : (x.isZero = true ∧ y.isInf = true) ∨ (x.isInf = true ∧ y.isZero = true)) :
    dequantLane src dst env a sc = ⟨(fmtOf (dst - 8)).nan, 16⟩ := by
  have quiet : x.sigFlag = 0 ∧ y.sigFlag = 0 := by
    rcases h with ⟨zero, inf⟩ | ⟨inf, zero⟩
    · exact ⟨Fp.sigFlag_of_not_nan (Fp.isNan_of_isZero zero), Fp.sigFlag_of_not_nan (Fp.isNan_of_isInf inf)⟩
    · exact ⟨Fp.sigFlag_of_not_nan (Fp.isNan_of_isInf inf), Fp.sigFlag_of_not_nan (Fp.isNan_of_isZero zero)⟩
  rw [dequantLane_eq env hx hy, exMul_zero_inf h, quiet.1, quiet.2]
  simp [Fp.exact, Fmt.round, Fmt.deliver, FpOut.plus, flNV]

/-- An infinity times a number that is not zero, or times an infinity (Table 7.2). -/
theorem dequantLane_inf (hd : (fmtOf (dst - 8)).inf = true) (nx : x.isNan = false) (ny : y.isNan = false) (zx : x.isZero = false) (zy : y.isZero = false)
    (h : x.isInf = true ∨ y.isInf = true) : dequantLane src dst env a sc = ⟨(fmtOf (dst - 8)).infinity (x.neg != y.neg), 0⟩ := by
  have product : exMul x y = (.inf (x.neg != y.neg), 0) := by
    cases x with
    | nan s => cases nx
    | inf s =>
      cases y with
      | nan r => cases ny
      | inf r => rfl
      | fin r n g => exact if_neg (by simpa [Fp.isZero] using zy)
    | fin s m e =>
      cases y with
      | nan r => cases ny
      | inf r => exact if_neg (by simpa [Fp.isZero] using zx)
      | fin r n g => rcases h with h | h <;> cases h
  rw [dequantLane_eq env hx hy, product, Fp.sigFlag_of_not_nan nx, Fp.sigFlag_of_not_nan ny, Fp.exact, Fmt.round, Fmt.deliver, if_pos hd]
  simp [FpOut.plus]

theorem dequantLane_number (hd : 8 ≤ dst) (hrm : env.rm < 4) {p q : Bool} {m n : ℕ} {e g : ℤ} (hfx : x = .fin p m e) (hfy : y = .fin q n g) :
    DeliveredIn dst env true ((Fp.fin p m e).number * (Fp.fin q n g).number) (p != q) (dequantLane src dst env a sc) := by
  subst hfx hfy
  obtain ⟨product, value⟩ := exMul_number p q m n e g
  have delivered := (Fp.exact_denotes (p != q) (m * n) (e + g)).delivered dst env hrm true
  rw [deliverType, if_neg (by omega), saturates_eq] at delivered
  rw [dequantLane_eq env hx hy, product, ← value]
  simpa [Fmt.round, FpOut.plus, Fp.sigFlag] using delivered

end

/-! ### VSPLIT (R153) -/

/-- The heads of VSPLIT have 16 bits at most. -/
theorem head_width : ∀ dst ∈ [9, 10, 12], (fmtOf (dst - 8)).width ≤ 16 := by decide

theorem head_float {dst : ℕ} (hd : dst ∈ [9, 10, 12]) : 8 ≤ dst ∧ dst < 14 := by
  simp only [List.mem_cons, List.not_mem_nil, or_false] at hd
  omega

section
variable {dst : ℕ} (hd : dst ∈ [9, 10, 12]) (env : FpEnv) {a : ℕ} {x : Fp} (hx : Fmt.f32.operand env.ftz a = x)
include hd hx

/-- A NaN is canonical in head and rest (R153). -/
theorem splitLane_nan (nan : x.isNan = true) {h tail : ℕ} {o : FpOut} (ho : splitLane dst env a = o) (low : o.bits % 2 ^ 32 = h) (high : o.bits / 2 ^ 32 = tail) :
    h = (convLane 8 dst env false a).bits ∧ tail = 0x7FC00000 ∧ o.fl = x.sigFlag := by
  have word : o = ⟨0x7FC00000 * 2 ^ 32 + (fmtOf (dst - 8)).nan, x.sigFlag⟩ := by
    rw [← ho, splitLane]
    simp only [hx, nan, if_true]
  have small : (fmtOf (dst - 8)).nan < 2 ^ 32 :=
    (fmtOf_regular _).nan_lt.trans_le (Nat.pow_le_pow_right two_pos ((Nat.le_succ _).trans ((head_width dst hd).trans (by decide))))
  have float : ¬ dst < 8 := not_lt.2 (head_float hd).1
  have head : (convLane 8 dst env false a).bits = (fmtOf (dst - 8)).nan := by rw [convLane_nan env false a le_rfl hx nan, if_neg float]
  subst low high word
  rw [head]
  refine ⟨?_, ?_, rfl⟩ <;> simp only <;> omega

variable (hrm : env.rm < 4)
include hrm

/-- VSPLIT of a lane that is no NaN: the head that VCVT delivers; above it the exact rest rounded, or nothing where lane and head are infinities. -/
theorem splitLane_eq (nan : x.isNan = false) {h : ℕ} (hh : (convLane 8 dst env false a).bits = h) :
    h < 2 ^ 32 ∧ ((x.isInf && ((fmtOf (dst - 8)).value h).isInf) = true → splitLane dst env a = ⟨h, 0⟩) ∧
      ((x.isInf && ((fmtOf (dst - 8)).value h).isInf) = false → ∀ l, Fmt.f32.round env (exAdd env.rm x ((fmtOf (dst - 8)).value h).negate).1 = l →
        splitLane dst env a = ⟨l.bits * 2 ^ 32 + h, l.fl⟩) := by
  have float : ¬ dst < 8 := not_lt.2 (head_float hd).1
  have head : ((fmtOf (dst - 8)).deliver env (saturates dst false) x.exact).bits = h := by
    rw [← hh, convLane_float env false a le_rfl hx, deliverType, if_neg float]
    rfl
  refine ⟨?_, fun inf => ?_, fun fin l hl => ?_⟩
  · rw [← head]
    exact ((fmtOf_regular _).deliver_lt env hrm _ x).trans_le (Nat.pow_le_pow_right two_pos ((head_width dst hd).trans (by decide)))
  · unfold splitLane
    simp only [hx, nan, head, inf, Bool.false_eq_true, if_false, if_true]
  · unfold splitLane
    simp only [hx, nan, head, fin, hl, Bool.false_eq_true, if_false]

/-- The parts of a lane of VSPLIT, as its word holds them. -/
theorem splitLane_parts (nan : x.isNan = false) {h tail : ℕ} {o : FpOut} (ho : splitLane dst env a = o) (low : o.bits % 2 ^ 32 = h) (high : o.bits / 2 ^ 32 = tail) :
    h = (convLane 8 dst env false a).bits ∧ ((x.isInf && ((fmtOf (dst - 8)).value h).isInf) = true → tail = 0 ∧ o.fl = 0) ∧
      ((x.isInf && ((fmtOf (dst - 8)).value h).isInf) = false →
        Fmt.f32.round env (exAdd env.rm x ((fmtOf (dst - 8)).value h).negate).1 = ⟨tail, o.fl⟩) := by
  obtain ⟨g, hg⟩ : ∃ g, (convLane 8 dst env false a).bits = g := ⟨_, rfl⟩
  obtain ⟨small, inf, fin⟩ := splitLane_eq hd env hx hrm nan hg
  rw [ho] at inf fin
  subst low high
  cases both : x.isInf && ((fmtOf (dst - 8)).value g).isInf
  · have word := fin both _ rfl
    have head : o.bits % 2 ^ 32 = g := by rw [word]; exact (Nat.mul_add_mod_self_right _ _ _).trans (Nat.mod_eq_of_lt small)
    have rest : o.bits / 2 ^ 32 = (Fmt.f32.round env (exAdd env.rm x ((fmtOf (dst - 8)).value g).negate).1).bits := by rw [word]; simp only; omega
    rw [head, both, hg, rest]
    refine ⟨rfl, fun h => absurd h (by decide), fun _ => ?_⟩
    rw [word]
  · have word := inf both
    have head : o.bits % 2 ^ 32 = g := by rw [word]; exact Nat.mod_eq_of_lt small
    rw [head, both, hg, word]
    exact ⟨rfl, fun _ => ⟨Nat.div_eq_of_lt small, rfl⟩, fun h => absurd h (by decide)⟩

/-- An infinity is its own head, with nothing left; in E4M3, where the head is the largest finite value, the rest is that infinity (R153). -/
theorem splitLane_inf {p : Bool} (inf : x = .inf p) {h tail : ℕ} {o : FpOut} (ho : splitLane dst env a = o) (low : o.bits % 2 ^ 32 = h) (high : o.bits / 2 ^ 32 = tail) :
    (dst ≠ 12 → tail = 0 ∧ o.fl = 0) ∧ (dst = 12 → tail = Fmt.f32.infinity p ∧ o.fl = 0) := by
  subst inf
  obtain ⟨head, both, rest⟩ := splitLane_parts hd env hx hrm rfl ho low high
  rw [convLane_inf env false a le_rfl (head_float hd).2 hx] at head
  subst head
  simp only [List.mem_cons, List.not_mem_nil, or_false] at hd
  rcases hd with rfl | rfl | rfl
  · exact ⟨fun _ => both (by cases p <;> decide), fun h => absurd h (by decide)⟩
  · exact ⟨fun _ => both (by cases p <;> decide), fun h => absurd h (by decide)⟩
  · refine ⟨fun h => absurd rfl h, fun _ => ?_⟩
    have value : (fmtOf (12 - 8)).value (infinityIn 12 false p).bits = .fin p 14 5 := by cases p <;> decide
    have delivered := rest (by rw [value]; rfl)
    rw [value] at delivered
    injection delivered with bits fl
    exact ⟨bits.symm, fl.symm⟩

/-- The rest of a number after its head: the infinity that the head takes too much, or the exact difference rounded once (R153). -/
theorem splitLane_number {p : Bool} {m : ℕ} {e : ℤ} (fin : x = .fin p m e) {h tail : ℕ} {o : FpOut} (ho : splitLane dst env a = o) (low : o.bits % 2 ^ 32 = h)
    (high : o.bits / 2 ^ 32 = tail) :
    (∀ q, (fmtOf (dst - 8)).value h = .inf q → tail = Fmt.f32.infinity (!q) ∧ o.fl = 0) ∧
      (∀ q n g d, (fmtOf (dst - 8)).value h = .fin q n g → d = (Fp.fin p m e).number - (Fp.fin q n g).number →
        (d ≠ 0 → Fmt.f32.Rounded env d ⟨tail, o.fl⟩) ∧ (d = 0 → tail = Fmt.f32.sgn (env.rm == 2) ∧ o.fl = 0)) := by
  subst fin
  obtain ⟨head, -, rest⟩ := splitLane_parts hd env hx hrm rfl ho low high
  have delivered := rest rfl
  refine ⟨fun q value => ?_, fun q n g d value hd' => ?_⟩
  · rw [value] at delivered
    injection delivered with bits fl
    exact ⟨bits.symm, fl.symm⟩
  · rw [value] at delivered
    have denotes := exAdd_denotes env.rm p (!q) m n e g
    rw [number_negated, ← sub_eq_add_neg, ← hd'] at denotes
    refine ⟨fun nonzero => ?_, fun zero => ?_⟩
    · rw [← delivered]
      exact denotes.round_rounded nonzero (fmtOf_regular 0) env hrm
    · have unlike : p ≠ !q := by
        rintro rfl
        have opposite : (Fp.fin (!q) m e).number + (Fp.fin (!q) n g).number = 0 := by
          rw [number_negated q n g, ← sub_eq_add_neg, ← hd', zero]
        have none : (Fp.fin (!q) m e).number = 0 := by
          rw [number_fin, number_fin] at opposite
          have left : (0 : ℚ) ≤ m * 2 ^ e := mul_nonneg m.cast_nonneg (two_zpow_pos e).le
          have right : (0 : ℚ) ≤ n * 2 ^ g := mul_nonneg n.cast_nonneg (two_zpow_pos g).le
          have : (m : ℚ) * 2 ^ e = 0 := by
            cases q <;> simp only [signed, Bool.not_true, Bool.not_false, Bool.false_eq_true, if_true, if_false] at opposite <;> linarith
          rw [number_fin, this, signed_zero]
        have zeroHead := ((convLane_number env false a le_rfl hrm hx).1 (head_float hd).1).1 none
        rw [head, zeroHead, (fmtOf_regular _).value_sgn] at value
        injection value with sign
        exact absurd sign (by cases q <;> decide)
      rw [if_neg unlike, zero] at denotes
      have exact : Fmt.f32.round env (exAdd env.rm (.fin p m e) (Fp.fin q n g).negate).1 = ⟨Fmt.f32.sgn (env.rm == 2), 0⟩ := denotes.deliver_zero _ _ _
      rw [delivered] at exact
      injection exact with bits fl
      exact ⟨bits, fl⟩

end

end Sys2Proof.Machine
end

section
/-! PROOFS. The block scale of VSCL (R151). -/

namespace Sys2Proof.Machine

/-! ### The largest magnitude -/

theorem Fp.finite_iff {x : Fp} : (x.isNan = false ∧ x.isInf = false) ↔ ∃ s m e, x = .fin s m e := by
  cases x <;> simp [Fp.isNan, Fp.isInf]

theorem magnitude_fin (s : Bool) (m : ℕ) (e : ℤ) : magnitude (Fp.fin s m e).number = m * 2 ^ e := by
  rw [magnitude_eq, number_fin, abs_signed, abs_of_nonneg (mul_nonneg m.cast_nonneg (two_zpow_pos e).le)]

/-- The order of magnitudes is that of the numbers. -/
theorem lt_withoutSign (s r : Bool) (m n : ℕ) (e g : ℤ) : ((Fp.fin s m e).withSign false).lt ((Fp.fin r n g).withSign false) = true ↔
    magnitude (Fp.fin s m e).number < magnitude (Fp.fin r n g).number := by
  have sum := alignedSum_value false true m n e g
  rw [number_fin, number_fin] at sum
  have pos := two_zpow_pos (alignedSum false m e true n g).2
  rw [magnitude_fin, magnitude_fin, Fp.withSign, Fp.withSign, Fp.lt, decide_eq_true_iff, Bool.not_false, ← sub_neg (b := (n : ℚ) * 2 ^ g),
    show (m : ℚ) * 2 ^ e - n * 2 ^ g = ((alignedSum false m e true n g).1 : ℚ) * 2 ^ (alignedSum false m e true n g).2 by
      rw [sum]; simp [signed, sub_eq_add_neg],
    ← not_le, ← not_le, mul_nonneg_iff_of_pos_right pos, Int.cast_nonneg_iff]

/-- The larger of two finite magnitudes is one of them. -/
theorem largerMag_cases {x y : Fp} (hx : ∃ s m e, x = .fin s m e) (hy : ∃ s m e, y = .fin s m e) :
    (largerMag x y = x ∧ magnitude y.number ≤ magnitude x.number) ∨ (largerMag x y = y ∧ magnitude x.number ≤ magnitude y.number) := by
  obtain ⟨s, m, e, rfl⟩ := hx
  obtain ⟨r, n, g, rfl⟩ := hy
  have order := lt_withoutSign s r m n e g
  unfold largerMag
  split_ifs with lt
  · exact .inr ⟨rfl, (order.1 lt).le⟩
  · exact .inl ⟨rfl, not_lt.1 (order.not.1 lt)⟩

/-- The fold of a block takes one of its values, which none exceeds. -/
theorem foldl_largerMag (l : List Fp) : ∀ z, (∃ s m e, z = .fin s m e) → (∀ x ∈ l, ∃ s m e, x = .fin s m e) →
    l.foldl largerMag z ∈ z :: l ∧ ∀ x ∈ z :: l, magnitude x.number ≤ magnitude (l.foldl largerMag z).number := by
  induction l with
  | nil =>
    intro z _ _
    simp
  | cons y l ih =>
    intro z hz hl
    have hy := hl y (List.mem_cons_self ..)
    have rest := fun x hx => hl x (List.mem_cons_of_mem _ hx)
    rw [List.foldl_cons]
    obtain ⟨larger, bound⟩ | ⟨larger, bound⟩ := largerMag_cases hz hy
    · obtain ⟨mem, top⟩ := ih z hz rest
      rw [larger]
      simp only [List.mem_cons, forall_eq_or_imp] at mem top ⊢
      exact ⟨mem.imp_right .inr, top.1, bound.trans top.1, top.2⟩
    · obtain ⟨mem, top⟩ := ih y hy rest
      rw [larger]
      simp only [List.mem_cons, forall_eq_or_imp] at mem top ⊢
      exact ⟨.inr mem, bound.trans top.1, top.1, top.2⟩

/-! ### Powers of two as FP32 (R151) -/

/-- The unit of FP32's subnormal numbers, and its largest finite pattern. -/
theorem f32_limits : Fmt.f32.low = -149 ∧ Fmt.f32.maxMag = 0x7F7FFFFF := by decide

theorem pow2Bits_holds {k : ℤ} (low : -149 ≤ k) (high : k ≤ 127) : Fmt.f32.Holds (pow2Bits k) false (twoTo k) := by
  have ht : Fmt.f32.Regular := fmtOf_regular 0
  obtain ⟨unit, top⟩ := f32_limits
  have unsigned (b : ℕ) : Fmt.f32.sgn false + b = b := Nat.zero_add b
  rw [twoTo_eq, pow2Bits]
  split_ifs with sub
  · obtain ⟨n, hn⟩ : ∃ n : ℕ, k + 149 = n := ⟨(k + 149).toNat, by omega⟩
    have small : 2 ^ n ≤ 2 ^ 22 := Nat.pow_le_pow_right two_pos (by omega)
    have holds := ht.holds_count false (n := 0) (m := 2 ^ n) (.inl rfl) (small.trans (by decide)) (by omega)
    rw [natCast_two_pow_mul, unsigned, Nat.zero_mul, Nat.zero_add, unit, show (n : ℤ) + (-149 + (0 : ℕ)) = k by omega] at holds
    rw [hn]
    exact holds
  · obtain ⟨n, hn⟩ : ∃ n : ℕ, k + 126 = n := ⟨(k + 126).toNat, by omega⟩
    have finite : n * 2 ^ Fmt.f32.fw + 2 ^ 23 ≤ Fmt.f32.maxMag := by
      rw [top, show Fmt.f32.fw = 23 from rfl]
      omega
    have holds := ht.holds_count false (.inr (show 2 ^ Fmt.f32.fw ≤ 2 ^ 23 from le_rfl)) (by decide) finite
    rw [natCast_two_pow_mul, unsigned, unit, show ((23 : ℕ) : ℤ) + (-149 + n) = k by omega] at holds
    rw [show (k + 127).toNat = n + 1 by omega, Nat.succ_mul]
    exact holds

/-! ### The scale (R151) -/

/-- A count of one bit stands for a power of two, which is its leading one. -/
theorem Stands.isPow2_iff {q : ℕ} {g : ℤ} {sticky : Bool} {x : ℚ} (h : Stands q g sticky x) (hq : q ≠ 0) :
    (q == 2 ^ (numBits q - 1) && !sticky) = true ↔ x = 2 ^ (g + (numBits q : ℤ) - 1) := by
  have pos := numBits_pos hq
  have leading : (2 : ℚ) ^ (g + (numBits q : ℤ) - 1) = (2 ^ (numBits q - 1) : ℕ) * 2 ^ g := by
    rw [natCast_two_pow_mul]
    congr 1
    omega
  have below : ((2 ^ (numBits q - 1) : ℕ) : ℚ) ≤ q := by exact_mod_cast two_pow_numBits_le hq
  rw [leading, Bool.and_eq_true, beq_iff_eq, Bool.not_eq_true', h.exact]
  constructor
  · rintro ⟨one, exact⟩
    rw [exact, ← one]
  · intro value
    have atMost : (q : ℚ) * 2 ^ g ≤ (2 ^ (numBits q - 1) : ℕ) * 2 ^ g := value ▸ h.low
    have same : q = 2 ^ (numBits q - 1) := by
      exact_mod_cast le_antisymm (le_of_mul_le_mul_right atMost (two_zpow_pos g)) below
    exact ⟨same, by rw [value, ← same]⟩

/-- The exponent that VSCL takes for a number whose leading one is that of 2^k. -/
def scaleExp (isPow2 : Bool) (k : ℤ) : ℤ := max (if isPow2 then k else k + 1) (-149)

/-- It is the least one from −149 on whose power is not below the number. -/
theorem scaleExp_least {x : ℚ} {k : ℤ} {isPow2 : Bool} (low : 2 ^ k ≤ x) (high : x < 2 ^ (k + 1)) (exact : isPow2 = true ↔ x = 2 ^ k) :
    x ≤ 2 ^ scaleExp isPow2 k ∧ (scaleExp isPow2 k = -149 ∨ 2 ^ (scaleExp isPow2 k - 1) < x) ∧
      ((isPow2 && decide (-149 ≤ k)) = true ↔ 2 ^ scaleExp isPow2 k = x) := by
  unfold scaleExp
  cases isPow2
  · rw [if_neg (by decide)]
    have top : x < 2 ^ max (k + 1) (-149) := high.trans_le (two_zpow_le.2 (le_max_left _ _))
    have other : x ≠ 2 ^ k := fun h => absurd (exact.2 h) (by decide)
    refine ⟨top.le, ?_, iff_of_false (by simp) top.ne'⟩
    rcases le_total (k + 1) (-149) with far | near
    · exact .inl (max_eq_right far)
    · rw [max_eq_left near, add_sub_cancel_right]
      exact .inr (low.lt_of_ne' other)
  · obtain rfl := exact.1 rfl
    rw [if_pos rfl]
    refine ⟨two_zpow_le.2 (le_max_left _ _), ?_, ?_⟩
    · rcases le_total k (-149) with far | near
      · exact .inl (max_eq_right far)
      · rw [max_eq_left near]
        exact .inr (two_zpow_lt.2 (by omega))
    · rw [zpow_right_inj₀ two_pos (by norm_num), max_eq_left_iff]
      simp

section
variable {m f : ℕ} (e : ℤ) (hm : m ≠ 0) (hf : f ≠ 0) (small : f < 2 ^ 80)
include hm hf small

/-- The scale that is no power of two: the quotient rounded up to FP32, with NX alone. -/
theorem scaleUp_rounded : ∃ w : FpOut, Fmt.f32.Rounded ⟨3, false⟩ ((m : ℚ) * (2 : ℚ) ^ e / f) w ∧ (scaleUp false m f e).bits = w.bits ∧ (scaleUp false m f e).fl = w.fl &&& 1 := by
  obtain ⟨nonzero, wide⟩ := numBits_quotient hm small hf
  have quotient := stands_quotient (m := m) hf e 0
  rw [zpow_zero, mul_one] at quotient
  exact ⟨_, (fmtOf_regular 0).rounded ⟨3, false⟩ (by decide) false quotient nonzero (fun _ => lt_of_lt_of_le (by decide) wide), rfl, rfl⟩

/-- The least power of two that FP32 holds and that is not below the quotient, with NX where it differs. -/
theorem scaleUp_pow2 (fits : (m : ℚ) * (2 : ℚ) ^ e / f < 2 ^ (127 : ℤ)) : ∃ k : ℤ, -149 ≤ k ∧ (m : ℚ) * (2 : ℚ) ^ e / f ≤ twoTo k ∧
    (k = -149 ∨ twoTo (k - 1) < (m : ℚ) * (2 : ℚ) ^ e / f) ∧ Fmt.f32.Holds (scaleUp true m f e).bits false (twoTo k) ∧
      (scaleUp true m f e).fl = if twoTo k = (m : ℚ) * (2 : ℚ) ^ e / f then 0 else 1 := by
  obtain ⟨nonzero, -⟩ := numBits_quotient hm small hf
  have quotient := stands_quotient (m := m) hf e 0
  rw [zpow_zero, mul_one] at quotient
  obtain ⟨q, hq⟩ : ∃ q, (m <<< 160) / f = q := ⟨_, rfl⟩
  obtain ⟨g, hg⟩ : ∃ g : ℤ, e - (0 : ℤ) - (160 : ℤ) = g := ⟨_, rfl⟩
  obtain ⟨k, hk⟩ : ∃ k : ℤ, g + (numBits q : ℤ) - 1 = k := ⟨_, rfl⟩
  obtain ⟨isPow2, hp⟩ : ∃ b, (q == 2 ^ (numBits q - 1) && !(m <<< 160 % f != 0)) = b := ⟨_, rfl⟩
  rw [hq] at nonzero
  rw [hq, hg] at quotient
  obtain ⟨low, high⟩ := quotient.leading nonzero
  have scale : scaleUp true m f e = ⟨pow2Bits (scaleExp isPow2 k), if (isPow2 && decide (-149 ≤ k)) = true then 0 else flNX⟩ := by
    subst hq hg hk hp
    rfl
  have exact := quotient.isPow2_iff nonzero
  rw [hp, hk] at exact
  rw [hk] at low
  rw [← sub_add_cancel (g + (numBits q : ℤ)) 1, hk] at high
  obtain ⟨above, least, same⟩ := scaleExp_least low high exact
  have top : k < 127 := two_zpow_lt.1 (low.trans_lt fits)
  have bottom : -149 ≤ scaleExp isPow2 k := le_max_right _ _
  have bound : scaleExp isPow2 k ≤ 127 := max_le (by split_ifs <;> omega) (by omega)
  rw [scale]
  refine ⟨scaleExp isPow2 k, bottom, ?_, ?_, pow2Bits_holds bottom bound, ?_⟩
  · rwa [twoTo_eq]
  · rwa [twoTo_eq]
  · refine if_congr ?_ rfl rfl
    rwa [twoTo_eq]

end

/-! ### The scale of a block (R151) -/

/-- A finite operand of FP32 lies below 2^129. -/
theorem f32_operand_lt {ftz s : Bool} {v m : ℕ} {e : ℤ} (h : Fmt.f32.operand ftz v = .fin s m e) : (m : ℚ) * 2 ^ e < 2 ^ (129 : ℤ) := by
  have sig := operand_lt h
  have exp : e ≤ 105 := by
    have field := Nat.mod_lt (v / 2 ^ Fmt.f32.fw) (Nat.two_pow_pos Fmt.f32.ew)
    rw [show 2 ^ Fmt.f32.ew = 256 from rfl] at field
    unfold Fmt.operand Fmt.value at h
    simp only [show Fmt.f32.emin = -126 by decide, show (Fmt.f32.bias : ℤ) = 127 by decide, show (Fmt.f32.fw : ℤ) = 23 from rfl, show 2 ^ Fmt.f32.ew = 256 from rfl] at h
    split_ifs at h <;> injection h <;> omega
  calc (m : ℚ) * 2 ^ e
    _ < (2 ^ (Fmt.f32.fw + 1) : ℕ) * 2 ^ e := mul_lt_mul_of_pos_right (by exact_mod_cast sig) (two_zpow_pos e)
    _ = 2 ^ ((24 : ℕ) + e) := natCast_two_pow_mul 24 e
    _ ≤ 2 ^ (129 : ℤ) := two_zpow_le.2 (by omega)

/-- The largest values of VSCL's destinations, as the model has them. -/
theorem scaleTop_eq : ∀ r ∈ ([(12, 448), (13, 57344), (10, 65504), (0, 127), (4, 255), (1, 32767), (5, 65535)] : List (ℕ × ℚ)), (scaleTop r.1 : ℚ) = r.2 := by
  simp [scaleTop]

theorem scaleTop_bounds (dst : ℕ) : 4 ≤ scaleTop dst ∧ scaleTop dst < 2 ^ 80 := by
  unfold scaleTop
  split <;> decide

section
variable {dst : ℕ} {pow2 ftz : Bool} {l : List Fp}

theorem blockScale_nan (h : ∃ x ∈ l, x.isNan = true) : blockScale dst pow2 ftz l = ⟨0x7FC00000, 0⟩ :=
  if_pos (List.any_eq_true.2 h)

theorem any_false_of_forall {p : Fp → Bool} (h : ∀ x ∈ l, p x = false) : ¬ l.any p = true := by
  simpa using h

theorem blockScale_inf (hn : ∀ x ∈ l, x.isNan = false) (h : ∃ x ∈ l, x.isInf = true) : blockScale dst pow2 ftz l = ⟨0x7F800000, 0⟩ := by
  rw [blockScale, if_neg (any_false_of_forall hn), if_pos (List.any_eq_true.2 h)]

/-- The scale of a block of finite values is that of the one that the fold takes. -/
theorem blockScale_finite (h : ∀ x ∈ l, ∃ s m e, x = .fin s m e) {s : Bool} {m : ℕ} {e : ℤ} (top : l.foldl largerMag (.fin false 0 0) = .fin s m e) :
    blockScale dst pow2 ftz l = if m = 0 then ⟨0x3F800000, 0⟩
      else if ftz = true ∧ (scaleUp pow2 m (scaleTop dst) e).bits < 0x00800000 then ⟨0x00800000, (scaleUp pow2 m (scaleTop dst) e).fl⟩
      else scaleUp pow2 m (scaleTop dst) e := by
  have nan : ¬ l.any Fp.isNan = true := any_false_of_forall (fun x hx => (Fp.finite_iff.2 (h x hx)).1)
  have inf : ¬ l.any Fp.isInf = true := any_false_of_forall (fun x hx => (Fp.finite_iff.2 (h x hx)).2)
  rw [blockScale, if_neg nan, if_neg inf, top]
  simp only [Bool.and_eq_true, decide_eq_true_eq]

end

theorem blockScale_zeros {dst : ℕ} {pow2 ftz : Bool} {l : List Fp} (h : ∀ x ∈ l, x.isZero = true) : blockScale dst pow2 ftz l = ⟨0x3F800000, 0⟩ := by
  have fin : ∀ x ∈ l, ∃ s m e, x = .fin s m e := fun x hx => by
    obtain ⟨p, e, hp⟩ := Fp.isZero_iff.1 (h x hx)
    exact ⟨p, 0, e, hp⟩
  obtain ⟨mem, -⟩ := foldl_largerMag l (.fin false 0 0) ⟨_, _, _, rfl⟩ fin
  obtain ⟨p, e, top⟩ : ∃ p e, l.foldl largerMag (.fin false 0 0) = .fin p 0 e := by
    rcases List.mem_cons.1 mem with first | rest
    · exact ⟨_, _, first⟩
    · exact Fp.isZero_iff.1 (h _ rest)
  rw [blockScale_finite fin top, if_pos rfl]

/-- The value that the fold takes has the largest magnitude of the block, where that is not zero; it is an operand. -/
theorem foldl_largerMag_eq {l : List Fp} {v : ℚ} (fin : ∀ x ∈ l, ∃ s m e, x = .fin s m e) (bound : ∀ x ∈ l, magnitude x.number ≤ v)
    (attained : ∃ x ∈ l, magnitude x.number = v) (hv : v ≠ 0) :
    ∃ s m e, l.foldl largerMag (.fin false 0 0) = .fin s m e ∧ Fp.fin s m e ∈ l ∧ m ≠ 0 ∧ (m : ℚ) * 2 ^ e = v := by
  obtain ⟨mem, top⟩ := foldl_largerMag l (.fin false 0 0) ⟨_, _, _, rfl⟩ fin
  obtain ⟨x, hx, attains⟩ := attained
  have above : v ≤ magnitude (l.foldl largerMag (.fin false 0 0)).number := attains ▸ top x (List.mem_cons_of_mem _ hx)
  have pos : 0 < v := by
    have : 0 ≤ v := by rw [← attains, magnitude_eq]; exact abs_nonneg _
    exact this.lt_of_ne' hv
  rcases List.mem_cons.1 mem with first | rest
  · rw [first, magnitude_fin, Nat.cast_zero, zero_mul] at above
    exact absurd above (not_le.2 pos)
  · obtain ⟨s, m, e, taken⟩ := fin _ rest
    have value := le_antisymm (bound _ rest) above
    rw [taken, magnitude_fin] at value
    refine ⟨s, m, e, taken, taken ▸ rest, ?_, value⟩
    rintro rfl
    rw [Nat.cast_zero, zero_mul] at value
    exact hv value.symm

/-- The scale of a block whose largest magnitude is v, over the largest value of the destination (R151). -/
theorem blockScale_largest (dst : ℕ) (pow2 ftz : Bool) {vals : List ℕ} {l : List Fp} (hl : l = vals.map (Fmt.f32.operand ftz)) {v : ℚ}
    (bound : ∀ x ∈ l, x.isNan = false ∧ x.isInf = false ∧ magnitude x.number ≤ v) (attained : ∃ x ∈ l, magnitude x.number = v) (hv : v ≠ 0) :
    ∃ u : FpOut, blockScale dst pow2 ftz l = (if ftz = true ∧ u.bits < 0x00800000 then ⟨0x00800000, u.fl⟩ else u) ∧
      (pow2 = false → ∃ w : FpOut, Fmt.f32.Rounded ⟨3, false⟩ (v / scaleTop dst) w ∧ u.bits = w.bits ∧ u.fl = w.fl &&& 1) ∧
      (pow2 = true → ∃ k : ℤ, -149 ≤ k ∧ v / scaleTop dst ≤ twoTo k ∧ (k = -149 ∨ twoTo (k - 1) < v / scaleTop dst) ∧
        Fmt.f32.Holds u.bits false (twoTo k) ∧ u.fl = if twoTo k = v / scaleTop dst then 0 else 1) := by
  obtain ⟨four, small⟩ := scaleTop_bounds dst
  have fin : ∀ x ∈ l, ∃ s m e, x = .fin s m e := fun x hx => Fp.finite_iff.1 ⟨(bound x hx).1, (bound x hx).2.1⟩
  obtain ⟨s, m, e, top, mem, nonzero, value⟩ := foldl_largerMag_eq fin (fun x hx => (bound x hx).2.2) attained hv
  have nonzeroR : scaleTop dst ≠ 0 := by omega
  have fits : (m : ℚ) * (2 : ℚ) ^ e / scaleTop dst < 2 ^ (127 : ℤ) := by
    rw [hl, List.mem_map] at mem
    obtain ⟨a, -, operand⟩ := mem
    have posR : (4 : ℚ) ≤ scaleTop dst := by exact_mod_cast four
    rw [div_lt_iff₀ (by linarith)]
    calc (m : ℚ) * 2 ^ e
      _ < 2 ^ (129 : ℤ) := f32_operand_lt operand
      _ = 2 ^ (127 : ℤ) * 4 := by norm_num
      _ ≤ 2 ^ (127 : ℤ) * scaleTop dst := by gcongr
  refine ⟨scaleUp pow2 m (scaleTop dst) e, ?_, ?_, ?_⟩
  · rw [blockScale_finite fin top, if_neg nonzero]
  · rintro rfl
    rw [← value]
    exact scaleUp_rounded e nonzero nonzeroR small
  · rintro rfl
    rw [← value]
    exact scaleUp_pow2 e nonzero nonzeroR small fits

end Sys2Proof.Machine
end

section
/-! PROOFS. The conversion class (R145 to R154, Table 6.6). -/

namespace Sys2Proof.Machine

/-- Settles O31: each instruction by the form of its body; the lanes by what a source is, a NaN, an infinity or an exact number, which is delivered in the type. -/
theorem conversionResults : Obligations.ConversionResults := by
  unfold Obligations.ConversionResults
  refine ⟨fun f s v outs hr hv ho => fpDoes_of_fpResult (show Issues (.vcvt f) 0x500 f from rfl) rfl rfl hr hv rfl ho,
    fun f s v outs hr hv ho => fpDoes_of_fpResult (show Issues (.vqnt f) 0x510 f from rfl) rfl rfl hr hv rfl ho,
    fun f s v outs hr hv ho => fpDoes_of_fpResult (show Issues (.vdqnt f) 0x520 f from rfl) rfl rfl hr hv rfl ho,
    fun f s v vals o hr hv hvals ho => vscl_does hr hv hvals ho,
    fun f s v hr hv => does_of_body (show Issues (.vpack f) 0x540 f from rfl) rfl rfl hr hv rfl,
    fun f s v hr hv => does_of_body (show Issues (.vunpk f) 0x541 f from rfl) rfl rfl hr hv rfl,
    fun f s v outs hr hv ho => fpDoes_of_fpResult (show Issues (.vsplit f) 0x550 f from rfl) rfl rfl hr hv rfl ho,
    ?vcvt, ?vqnt, ?vdqnt, fun src h _ ftz a => sourceOf_float h ftz a, ?integers, ?vscl, ?vsplit⟩
  case vcvt =>
    rintro src dst - hd env ovf v _ hrm - rfl
    refine ⟨fun float x hx => ⟨convLane_nan env ovf v float hx, fun p inf => convLane_inf env ovf v float hd (hx.trans inf),
      fun p m e fin => convLane_number env ovf v float hrm (hx.trans fin)⟩, fun int z hz => ?_⟩
    obtain rfl : z = readInt src (intWidth src) v := hz.trans (readInt_eq _ _ _).symm
    exact ⟨fun float => convLane_int env ovf v int float hrm, convLane_int_int env ovf v int⟩
  case vqnt =>
    rintro dst hd env ovf a sc x y _ _ hrm small hx hy rfl rfl
    refine ⟨quantLane_bad env ovf hx hy small, fun n g fin hn => ?_⟩
    have lane := quantLane_good (dst := dst) env ovf hx hy fin hn
    refine ⟨fun nan => ?_, fun p inf => ?_, fun p m e number => ?_⟩
    · rw [lane, if_pos nan]
      rfl
    · subst inf fin
      rw [lane, ← deliverType_inf hd env ovf p]
      cases p <;> rfl
    · subst number fin
      have denotes := exDiv_denotes p false m e g hn (operand_lt_two_pow_80 (fmtOf_regular 0) hy)
      rw [show (p != false) = p from Bool.xor_false p] at denotes
      rw [lane]
      exact denotes.delivered dst env hrm ovf
  case vdqnt =>
    rintro src dst - hd env a sc x y _ hrm hx hy rfl
    have wide : 8 ≤ dst ∧ dst < 11 := by
      simp only [List.mem_cons, List.not_mem_nil, or_false] at hd
      omega
    have inf : (fmtOf (dst - 8)).inf = true := fmtOf_inf _ (by omega) (by omega)
    exact ⟨dequantLane_nan env hx hy, dequantLane_invalid env hx hy, dequantLane_inf env hx hy inf,
      fun p m e q n g => dequantLane_number env hx hy wide.1 hrm⟩
  case integers =>
    rintro src int ftz a z - hz
    obtain rfl : z = readInt src (intWidth src) a := hz.trans (readInt_eq _ _ _).symm
    exact ⟨_, _, sourceOf_int int ftz a, number_of_int _⟩
  case vscl =>
    rintro r hr pow2 ftz vals l _ hl rfl
    exact ⟨blockScale_nan, blockScale_inf, blockScale_zeros, fun m bound attained hm =>
      scaleTop_eq r hr ▸ blockScale_largest r.1 pow2 ftz hl bound attained hm⟩
  case vsplit =>
    rintro dst hd env a x o h tail hrm hx ho low high
    have head : h = (convLane 8 dst env false a).bits := by
      cases nan : x.isNan
      · exact (splitLane_parts hd env hx hrm nan ho low high).1
      · exact (splitLane_nan hd env hx nan ho low high).1
    exact ⟨head, fun nan => (splitLane_nan hd env hx nan ho low high).2, fun p inf => splitLane_inf hd env hx hrm inf ho low high,
      fun p m e fin => splitLane_number hd env hx hrm fin ho low high⟩

end Sys2Proof.Machine
end

section
/-! SUPPORT. The values of operands, delivered as they are (R135, R138, R140, R141). -/

namespace Sys2Proof.Machine

/-! ### Numbers that a format holds -/

/-- The format holds m × 2^e: its significand has room for m, its subnormal unit is no coarser, and its largest value no smaller. -/
structure Fmt.HasNumber (t : Fmt) (m : ℕ) (e : ℤ) : Prop where
  width  : m < 2 ^ (t.fw + 1)
  unit   : t.low ≤ e
  finite : (m : ℚ) * 2 ^ e ≤ t.largest

/-- A value that the format holds, delivered as it is, is a pattern of it. -/
theorem Fmt.Regular.asIs_holds {t : Fmt} (ht : t.Regular) (neg : Bool) {m : ℕ} {e : ℤ} (h : t.HasNumber m e) :
    t.Holds (t.asIs (.fin neg m e)) neg (Fp.fin neg m e).number := by
  rw [number_fin, Fmt.asIs, Fp.exact]
  split_ifs with zero
  · rw [zero, Nat.cast_zero, zero_mul, signed_zero]
    exact ⟨ht.pattern_lt neg (Nat.zero_le _), 0, t.low, ht.value_sgn neg, number_eq_zero.2 rfl⟩
  have stands := stands_exact m e
  obtain ⟨lead, hl⟩ : ∃ lead, e + (numBits m : ℤ) - 1 = lead := ⟨_, rfl⟩
  have count {q : ℤ} (hq : q ≤ e) : ∃ r : ℕ, (m : ℚ) * 2 ^ e / 2 ^ q = r := by
    obtain ⟨k, rfl⟩ : ∃ k : ℕ, e = k + q := ⟨(e - q).toNat, by omega⟩
    exact ⟨m * 2 ^ k, by rw [zpow_add₀ two_ne_zero, zpow_natCast]; field_simp; push_cast; ring⟩
  obtain ⟨r, hr⟩ := count (q := lead - t.fw) (by have := numBits_le h.width; omega)
  have value : (r : ℚ) * 2 ^ (lead - t.fw) = m * 2 ^ e := by rw [← hr, div_mul_cancel₀ _ (two_zpow_pos _).ne']
  have rounded : roundNat 0 neg ((m : ℚ) * 2 ^ e / 2 ^ (lead - t.fw)) = r := by rw [hr, roundNat_natCast]
  rw [Fmt.round, Fmt.deliver, ht.roundNum_eq FpEnv.rne false neg stands zero (by simp) hl rounded value, if_neg (not_lt.2 h.finite)]
  by_cases tiny : (m : ℚ) * 2 ^ e < 2 ^ t.emin
  · rw [if_pos tiny, if_neg (by decide)]
    obtain ⟨j, hj⟩ := count h.unit
    have same : ((roundNat 0 neg ((m : ℚ) * 2 ^ e / 2 ^ t.low) : ℕ) : ℚ) * 2 ^ t.low = m * 2 ^ e := by
      rw [hj, roundNat_natCast, ← hj, div_mul_cancel₀ _ (two_zpow_pos _).ne']
    have holds := ht.holds_tiny 0 neg stands.nonneg tiny.le
    rwa [same] at holds
  · rw [if_neg tiny]
    have bounds := stands.leading zero
    rw [show e + (numBits m : ℤ) = lead + 1 by omega, add_sub_cancel_right] at bounds
    have leads : t.Leads r := rounded ▸ t.leads_roundNat 0 neg bounds.1 bounds.2
    exact value ▸ leads.holds ht neg (value.symm ▸ not_lt.1 tiny) (value.symm ▸ h.finite)

/-! ### Operands -/

/-- A pattern's value is that of its bits in the format's width. -/
theorem Fmt.value_mod (t : Fmt) (v : ℕ) : t.value (v % 2 ^ t.width) = t.value v := by
  have sign : v % 2 ^ t.width / t.signBit % 2 = v / t.signBit % 2 := by
    rw [Fmt.signBit, show 2 ^ t.width = 2 ^ (t.ew + t.fw) * 2 from pow_succ 2 _, Nat.mod_mul_right_div_self, Nat.mod_mod]
  have exponent : v % 2 ^ t.width / 2 ^ t.fw % 2 ^ t.ew = v / 2 ^ t.fw % 2 ^ t.ew := by
    rw [show 2 ^ t.width = 2 ^ t.fw * 2 ^ (t.ew + 1) by rw [← pow_add]; congr 1; unfold Fmt.width; omega, Nat.mod_mul_right_div_self,
      Nat.mod_mod_of_dvd _ (pow_dvd_pow 2 (Nat.le_succ _))]
  have fraction : v % 2 ^ t.width % 2 ^ t.fw = v % 2 ^ t.fw := Nat.mod_mod_of_dvd _ (pow_dvd_pow 2 (by unfold Fmt.width; omega))
  unfold Fmt.value
  simp only [sign, exponent, fraction]

section
variable {t : Fmt} (ht : t.Regular)
include ht

theorem Fmt.Regular.low_le_zero : t.low ≤ 0 := by
  have := ht.bias_pos
  have := ht.fraction
  unfold Fmt.low Fmt.emin
  omega

theorem Fmt.Regular.largest_nonneg : 0 ≤ t.largest := by
  rw [ht.largest_eq]
  exact mul_nonneg t.maxSig.cast_nonneg (two_zpow_pos _).le

/-- A finite operand is a number that its format holds. -/
theorem Fmt.Regular.operand_hasNumber {ftz p : Bool} {v m : ℕ} {e : ℤ} (h : t.operand ftz v = .fin p m e) : t.HasNumber m e := by
  unfold Fmt.operand at h
  split_ifs at h with flushed
  · injection h with _ hm he
    subst hm he
    exact ⟨Nat.two_pow_pos _, ht.low_le_zero, by simpa using ht.largest_nonneg⟩
  · rw [← t.value_mod] at h
    obtain ⟨_, -, -, value⟩ | ⟨q, n, k, fits, -, value⟩ := ht.value_cases (Nat.mod_lt v (Nat.two_pow_pos t.width)) (by rw [h]; rfl)
    · rw [h] at value
      cases value
    · rw [h] at value
      injection value with _ hm he
      subst hm he
      exact ⟨fits.width, by omega, ht.fits_le_largest fits⟩

/-- An operand that is no NaN, under either sign, shows as it is delivered. -/
theorem Fmt.Regular.asIs_shows_withSign (inf : t.inf = true) {ftz : Bool} {v : ℕ} {x : Fp} (hx : t.operand ftz v = x) (hn : x.isNan = false) (neg : Bool) :
    t.Shows (t.asIs (x.withSign neg)) (x.withSign neg) := by
  cases x with
  | nan s => cases hn
  | inf p => simp [Fp.withSign, Fmt.Shows, Fmt.asIs, Fp.exact, Fmt.round, Fmt.deliver, inf]
  | fin p m e => exact ht.asIs_holds neg (ht.operand_hasNumber hx)

end

theorem Fp.withSign_neg (x : Fp) : x.withSign x.neg = x := by
  cases x <;> rfl

theorem Fmt.Regular.asIs_shows {t : Fmt} (ht : t.Regular) (inf : t.inf = true) {ftz : Bool} {v : ℕ} {x : Fp} (hx : t.operand ftz v = x) (hn : x.isNan = false) :
    t.Shows (t.asIs x) x := by
  simpa only [Fp.withSign_neg] using ht.asIs_shows_withSign inf hx hn x.neg

/-- The formats of the vector class are regular and have infinities. -/
theorem vectorFormat_regular_inf {t : Fmt} (h : t ∈ [Fmt.f64, Fmt.f32, Fmt.f16, Fmt.bf16]) : t.Regular ∧ t.inf = true := by
  simp only [List.mem_cons, List.not_mem_nil, or_false] at h
  rcases h with rfl | rfl | rfl | rfl <;> exact ⟨⟨by decide, by decide, by decide⟩, rfl⟩

end Sys2Proof.Machine
end

section
/-! PROOFS. The vector floating-point operations with two sources (R156 to R162, R167, Tables 7.2 and 7.6). -/

namespace Sys2Proof.Machine

/-! ### The forms of a result -/

/-- Code c is a row with two sources whose lane result is op, of Q's format, FPCTL and the two lanes (R143, R144, R156). -/
def FloatTwoSources (c : Code) (op : Fmt → FpEnv → ℕ → ℕ → FpOut) : Prop :=
  ∀ i f s v outs, Issues i c f → s.ready c f = true → s.view c f = v →
    (outs = v.lanes.map (fun j => (j, op (fmtOf f.q.toNat) v.fpEnv (v.srcLane f.a (fmtOf f.q.toNat).width j) (v.srcLane f.b (fmtOf f.q.toNat).width j)))) →
    FpDoes i c f s v (fmtOf f.q.toNat).width (overlapsIn f.d [f.a, f.b]) (outs.map (fun p => (p.1, p.2.fl))) (outs.map (fun p => (p.1, p.2.bits)))

theorem floatTwoSources_of_vf2 {c : Code} (j : Fields → Instr) (hj : ∀ f, coreOf c f = some (j f)) (op : Fmt → FpEnv → ℕ → ℕ → FpOut)
    (he : ∀ f s, exec (j f) s = vf2 c f op s) : FloatTwoSources c op :=
  fun _ f s _ _ h hr hv ho => fpDoes_of_fpResult h (hj f) (he f s) hr hv rfl ho

/-! ### Sums, products and quotients (R138 to R141, R156 to R158, Table 7.2) -/

/-- An exact result delivered in FPCTL's mode: rounded once, or a zero of its sign. -/
theorem Ex.Denotes.round_cases {x : Ex} {neg : Bool} {v : ℚ} (h : x.Denotes neg v) {t : Fmt} (ht : t.Regular) (env : FpEnv) (hrm : env.rm < 4) :
    (v ≠ 0 → t.Rounded env v (t.round env x)) ∧ (v = 0 → t.round env x = ⟨t.sgn neg, 0⟩) := by
  refine ⟨fun hv => h.round_rounded hv ht env hrm, ?_⟩
  rintro rfl
  exact h.deliver_zero t env false

section
variable {t : Fmt} {env : FpEnv} {a b : ℕ} {x y : Fp} (hx : t.operand env.ftz a = x) (hy : t.operand env.ftz b = y)
include hx hy

theorem fpAdd_eq : fpAdd t env a b = fpRounded t env (exAdd env.rm x y) [x, y] := by
  subst hx hy
  rfl

theorem fpSub_eq : fpSub t env a b = fpRounded t env (exAdd env.rm x y.negate) [x, y] := by
  subst hx hy
  rfl

theorem fpMul_eq : fpMul t env a b = fpRounded t env ((exMul x y).1.exact, (exMul x y).2) [x, y] := by
  subst hx hy
  rfl

theorem fpDiv_eq : fpDiv t env a b = fpRounded t env (exDiv x y) [x, y] := by
  subst hx hy
  rfl

theorem fpPick_eq (first : Fp → Fp → Bool) : fpPick t env first a b =
    ⟨if x.isNan then (if y.isNan then t.nan else t.asIs y) else if y.isNan then t.asIs x else if first x y then t.asIs x else t.asIs y, x.sigFlag ||| y.sigFlag⟩ := by
  subst hx hy
  rfl

theorem fpCmp_eq (quiet onNan : Bool) (cond : Fp → Fp → Bool) : fpCmp t env quiet onNan cond a b =
    ⟨laneCmp (if x.isNan || y.isNan then onNan else cond x y) t.width, if quiet then x.sigFlag ||| y.sigFlag else if x.isNan || y.isNan then flNV else 0⟩ := by
  subst hx hy
  rfl

end

/-- Operands that are no signalling NaNs leave the exact result's rounding as it is. -/
theorem fpRounded_quiet (t : Fmt) (env : FpEnv) (r : Ex) {ops : List Fp} (h : ∀ x ∈ ops, x.sigFlag = 0) : fpRounded t env (r, 0) ops = t.round env r := by
  have none : ∀ fl, ops.foldl (fun fl x => fl ||| x.sigFlag) fl = fl := by
    induction ops with
    | nil => exact fun _ => rfl
    | cons x ops ih =>
      intro fl
      rw [List.foldl_cons, h x (List.mem_cons_self ..), Nat.or_zero]
      exact ih (fun y hy => h y (List.mem_cons_of_mem _ hy)) fl
  rw [fpRounded, none, FpOut.plus_zero]

theorem sigFlag_pair {x y : Fp} (hx : x.sigFlag = 0) (hy : y.sigFlag = 0) : ∀ z ∈ [x, y], z.sigFlag = 0 := by
  simp [hx, hy]

/-- A finite sum raises no flag of its own. -/
theorem exAdd_fin_flags (rm : ℕ) (p q : Bool) (m n : ℕ) (e g : ℤ) : (exAdd rm (.fin p m e) (.fin q n g)).2 = 0 := by
  simp only [exAdd]
  split_ifs <;> rfl

theorem exDiv_fin_flags (p q : Bool) (m : ℕ) {n : ℕ} (e g : ℤ) (hn : n ≠ 0) : (exDiv (.fin p m e) (.fin q n g)).2 = 0 := by
  rw [exDiv, if_neg (fun h => hn h.2), if_neg hn]
  split_ifs <;> rfl

section
variable {t : Fmt} {env : FpEnv} {a b : ℕ} {p q : Bool} {m n : ℕ} {e g : ℤ} (hx : t.operand env.ftz a = .fin p m e) (hy : t.operand env.ftz b = .fin q n g)
include hx hy

theorem fpAdd_fin : fpAdd t env a b = t.round env (exAdd env.rm (.fin p m e) (.fin q n g)).1 := by
  rw [fpAdd_eq hx hy, ← fpRounded_quiet t env _ (sigFlag_pair (x := .fin p m e) (y := .fin q n g) rfl rfl), ← exAdd_fin_flags env.rm p q m n e g]

theorem fpSub_fin : fpSub t env a b = t.round env (exAdd env.rm (.fin p m e) (.fin (!q) n g)).1 := by
  rw [fpSub_eq hx hy, ← fpRounded_quiet t env _ (sigFlag_pair (x := .fin p m e) (y := .fin q n g) rfl rfl), ← exAdd_fin_flags env.rm p (!q) m n e g]
  rfl

theorem fpMul_fin : fpMul t env a b = t.round env (Fp.fin (p != q) (m * n) (e + g)).exact := by
  rw [fpMul_eq hx hy, ← fpRounded_quiet t env _ (sigFlag_pair (x := .fin p m e) (y := .fin q n g) rfl rfl)]
  rfl

theorem fpDiv_fin (hn : n ≠ 0) : fpDiv t env a b = t.round env (exDiv (.fin p m e) (.fin q n g)).1 := by
  rw [fpDiv_eq hx hy, ← fpRounded_quiet t env _ (sigFlag_pair (x := .fin p m e) (y := .fin q n g) rfl rfl), ← exDiv_fin_flags p q m e g hn]

end

theorem fpScale_fin {t : Fmt} {env : FpEnv} {a : ℕ} (b : ℕ) {p : Bool} {m : ℕ} {e : ℤ} (hx : t.operand env.ftz a = .fin p m e) :
    fpScale t env a b = t.round env (Fp.fin p m (e + toInt t.width b)).exact := by
  unfold fpScale
  rw [hx]
  rfl

/-- A number times a power of two (R161). -/
theorem number_scaled (p : Bool) (m : ℕ) (e k : ℤ) : (Fp.fin p m (e + k)).number = (Fp.fin p m e).number * twoTo k := by
  rw [number_fin, number_fin, twoTo_eq, zpow_add₀ two_ne_zero, ← mul_assoc, signed_mul]

/-! ### Infinities (Table 7.2) -/

theorem Fmt.round_inf {t : Fmt} (inf : t.inf = true) (env : FpEnv) (p : Bool) : t.round env (.inf p) = ⟨t.infinity p, 0⟩ :=
  if_pos inf

/-- An infinity among operands that are no NaNs, where the operation admits it, is delivered without a flag. -/
theorem fpRounded_inf {t : Fmt} (inf : t.inf = true) (env : FpEnv) (p : Bool) {x y : Fp} (hx : x.sigFlag = 0) (hy : y.sigFlag = 0) :
    fpRounded t env (.inf p, 0) [x, y] = ⟨t.infinity p, 0⟩ := by
  rw [fpRounded_quiet t env _ (sigFlag_pair hx hy), Fmt.round_inf inf]

section
variable {t : Fmt} (inf : t.inf = true) {env : FpEnv} {a b : ℕ}
include inf

theorem inf_op_fin {p q : Bool} {n : ℕ} {g : ℤ} (hx : t.operand env.ftz a = .inf p) (hy : t.operand env.ftz b = .fin q n g) :
    fpAdd t env a b = ⟨t.infinity p, 0⟩ ∧ fpSub t env a b = ⟨t.infinity p, 0⟩ ∧ fpDiv t env a b = ⟨t.infinity (p != q), 0⟩ ∧
      (n ≠ 0 → fpMul t env a b = ⟨t.infinity (p != q), 0⟩) := by
  refine ⟨?_, ?_, ?_, fun hn => ?_⟩
  · rw [fpAdd_eq hx hy]
    exact fpRounded_inf inf env p rfl rfl
  · rw [fpSub_eq hx hy]
    exact fpRounded_inf inf env p rfl rfl
  · rw [fpDiv_eq hx hy]
    exact fpRounded_inf inf env _ rfl rfl
  · rw [fpMul_eq hx hy, exMul, if_neg hn]
    exact fpRounded_inf inf env _ rfl rfl

theorem fin_op_inf {p q : Bool} {m : ℕ} {e : ℤ} (hx : t.operand env.ftz a = .fin p m e) (hy : t.operand env.ftz b = .inf q) :
    fpAdd t env a b = ⟨t.infinity q, 0⟩ ∧ fpSub t env a b = ⟨t.infinity (!q), 0⟩ ∧ fpDiv t env a b = ⟨t.sgn (p != q), 0⟩ ∧
      (m ≠ 0 → fpMul t env a b = ⟨t.infinity (p != q), 0⟩) := by
  refine ⟨?_, ?_, ?_, fun hm => ?_⟩
  · rw [fpAdd_eq hx hy]
    exact fpRounded_inf inf env q rfl rfl
  · rw [fpSub_eq hx hy]
    exact fpRounded_inf inf env (!q) rfl rfl
  · rw [fpDiv_eq hx hy]
    exact fpRounded_quiet t env _ (sigFlag_pair rfl rfl)
  · rw [fpMul_eq hx hy, exMul, if_neg hm]
    exact fpRounded_inf inf env _ rfl rfl

theorem inf_op_inf {p q : Bool} (hx : t.operand env.ftz a = .inf p) (hy : t.operand env.ftz b = .inf q) :
    (p = q → fpAdd t env a b = ⟨t.infinity p, 0⟩) ∧ (p ≠ q → fpSub t env a b = ⟨t.infinity p, 0⟩) ∧ fpMul t env a b = ⟨t.infinity (p != q), 0⟩ := by
  refine ⟨fun like => ?_, fun unlike => ?_, ?_⟩
  · rw [fpAdd_eq hx hy, exAdd, if_pos like]
    exact fpRounded_inf inf env p rfl rfl
  · rw [fpSub_eq hx hy, show (Fp.inf q).negate = .inf (!q) from rfl, exAdd, if_pos (Bool.eq_not_iff.2 unlike)]
    exact fpRounded_inf inf env p rfl rfl
  · rw [fpMul_eq hx hy]
    exact fpRounded_inf inf env _ rfl rfl

end

/-! ### The order of values (R160, R167) -/

/-- Neither value lies below the other: the same infinity, or equal numbers. -/
structure Fp.Level (x y : Fp) : Prop where
  left   : x.isNan = false
  right  : y.isNan = false
  notLow : ¬ x.Below y
  notHigh : ¬ y.Below x

theorem Fp.Below.not_nan {x y : Fp} (h : x.Below y) : x.isNan = false ∧ y.isNan = false := by
  unfold Fp.Below at h
  split at h
  case h_5 => exact h.elim
  all_goals exact ⟨rfl, rfl⟩

theorem alignedSum_neg_iff (p q : Bool) (m n : ℕ) (e g : ℤ) : (alignedSum p m e (!q) n g).1 < 0 ↔ (Fp.fin p m e).number < (Fp.fin q n g).number := by
  have sum := alignedSum_value p (!q) m n e g
  rw [number_negated, ← sub_eq_add_neg] at sum
  rw [← sub_neg (b := (Fp.fin q n g).number), ← sum, ← not_le, ← not_le, mul_nonneg_iff_of_pos_right (two_zpow_pos _), Int.cast_nonneg_iff]

theorem alignedSum_eq_zero_iff (p q : Bool) (m n : ℕ) (e g : ℤ) : (alignedSum p m e (!q) n g).1 = 0 ↔ (Fp.fin p m e).number = (Fp.fin q n g).number := by
  have sum := alignedSum_value p (!q) m n e g
  rw [number_negated, ← sub_eq_add_neg] at sum
  rw [← sub_eq_zero (b := (Fp.fin q n g).number), ← sum, mul_eq_zero, or_iff_left (two_zpow_pos _).ne', Int.cast_eq_zero]

section
variable {x y : Fp} (hx : x.isNan = false) (hy : y.isNan = false)
include hx hy

theorem Fp.lt_iff_below : x.lt y = true ↔ x.Below y := by
  cases x with
  | nan s => cases hx
  | inf p =>
    cases y with
    | nan s => cases hy
    | inf q => simp [Fp.lt, Fp.Below]
    | fin q n g => exact Iff.rfl
  | fin p m e =>
    cases y with
    | nan s => cases hy
    | inf q => simp [Fp.lt, Fp.Below]
    | fin q n g => rw [Fp.lt, decide_eq_true_iff, alignedSum_neg_iff]; rfl

/-- The order with −0 below +0: below, or level with a sign that says so. -/
theorem Fp.le_iff : x.le y = true ↔ x.Below y ∨ (¬ y.Below x ∧ (x.neg || !y.neg) = true) := by
  cases x with
  | nan s => cases hx
  | inf p =>
    cases y with
    | nan s => cases hy
    | inf q => cases p <;> cases q <;> simp [Fp.le, Fp.Below, Fp.neg]
    | fin q n g => cases p <;> simp [Fp.le, Fp.Below]
  | fin p m e =>
    cases y with
    | nan s => cases hy
    | inf q => cases q <;> simp [Fp.le, Fp.Below]
    | fin q n g =>
      simp only [Fp.le, Fp.Below, Fp.neg, alignedSum_eq_zero_iff, alignedSum_neg_iff]
      rcases lt_trichotomy (Fp.fin p m e).number (Fp.fin q n g).number with low | same | high
      · simp [low, low.ne]
      · simp [same]
      · simp [high.ne', high, high.not_gt]

theorem Fp.eq_iff : x.eq y = true ↔ ¬ x.Below y ∧ ¬ y.Below x := by
  rw [← Fp.lt_iff_below hx hy, ← Fp.lt_iff_below hy hx]
  simp [Fp.eq, hx, hy]

end

theorem Fp.Below.asymm {x y : Fp} (h : x.Below y) : ¬ y.Below x := by
  intro back
  cases x with
  | nan s => exact h
  | inf p =>
    cases y with
    | nan s => exact h
    | inf q => exact absurd (h.1.symm.trans back.2) (by decide)
    | fin q n g => exact absurd (h.symm.trans back) (by decide)
  | fin p m e =>
    cases y with
    | nan s => exact h
    | inf q => exact absurd (h.symm.trans back) (by decide)
    | fin q n g => exact lt_asymm h back

/-- Level values of unlike signs are zeros. -/
theorem Fp.Level.zeros {x y : Fp} (h : x.Level y) (unlike : x.neg ≠ y.neg) : ∃ p q e g, x = .fin p 0 e ∧ y = .fin q 0 g := by
  obtain ⟨hx, hy, low, high⟩ := h
  cases x with
  | nan s => cases hx
  | inf p =>
    cases y with
    | nan s => cases hy
    | inf q => cases p <;> cases q <;> simp [Fp.Below, Fp.neg] at low high unlike
    | fin q n g => cases p <;> simp [Fp.Below] at low high
  | fin p m e =>
    cases y with
    | nan s => cases hy
    | inf q => cases q <;> simp [Fp.Below] at low high
    | fin q n g =>
      have same := le_antisymm (not_lt.1 high) (not_lt.1 low)
      have left : (0 : ℚ) ≤ m * 2 ^ e := mul_nonneg m.cast_nonneg (two_zpow_pos e).le
      have right : (0 : ℚ) ≤ n * 2 ^ g := mul_nonneg n.cast_nonneg (two_zpow_pos g).le
      have none : (Fp.fin p m e).number = 0 := by
        rw [number_fin, number_fin] at same
        rw [number_fin]
        cases p <;> cases q <;> simp only [signed, Fp.neg, ne_eq, not_true, Bool.false_eq_true, if_true, if_false] at same unlike ⊢ <;> linarith
      have other : (Fp.fin q n g).number = 0 := same.symm.trans none
      rw [number_eq_zero] at none other
      exact ⟨p, q, e, g, by rw [none], by rw [other]⟩

/-- A zero shows as the zero of either of two values under its own sign. -/
theorem Fp.Level.shows_withSign {x y : Fp} (h : x.Level y) (unlike : x.neg ≠ y.neg) {t : Fmt} {bits : ℕ} (shows : t.Shows bits y) :
    t.Shows bits (x.withSign y.neg) := by
  obtain ⟨p, q, e, g, rfl, rfl⟩ := h.zeros unlike
  have zero (e : ℤ) : (Fp.fin q 0 e).number = 0 := number_eq_zero.2 rfl
  rw [Fp.withSign, Fmt.Shows, Fp.neg, zero]
  rwa [Fmt.Shows, zero] at shows

/-! ### VFMIN, VFMAX and VFCOPYSIGN (R160, R162) -/

/-- What VFMIN and VFMAX answer of x and y (R160): x where one holds, y where two does, of level values x under the sign neg; a lone NaN gives way to the other operand, and only a signalling NaN raises a flag. -/
def Fmt.Picks (t : Fmt) (x y : Fp) (one two : Prop) (neg : Bool) (o : FpOut) : Prop :=
  o.fl = x.sigFlag ||| y.sigFlag ∧ (x.isNan = true → t.Shows o.bits y) ∧ (y.isNan = true → t.Shows o.bits x) ∧ (one → t.Shows o.bits x) ∧
    (two → t.Shows o.bits y) ∧ (x.isNan = false → y.isNan = false → ¬ one → ¬ two → t.Shows o.bits (x.withSign neg))

section
variable {t : Fmt} (ht : t.Regular) (inf : t.inf = true) {env : FpEnv} {a b : ℕ} {x y : Fp} (hx : t.operand env.ftz a = x) (hy : t.operand env.ftz b = y)
include ht inf hx hy

/-- Where the choice takes the first of values that lie one way, the second of those that lie the other, and of level ones one with the sign neg, it delivers one of its operands. -/
theorem fpPick_picks {first : Fp → Fp → Bool} {one two : Prop} {neg : Bool} (h1 : one → x.isNan = false ∧ y.isNan = false ∧ first x y = true)
    (h2 : two → x.isNan = false ∧ y.isNan = false ∧ first x y = false)
    (level : x.isNan = false → y.isNan = false → ¬ one → ¬ two → x.Level y ∧ if first x y then neg = x.neg else neg = y.neg ∧ x.neg ≠ y.neg) :
    t.Picks x y one two neg (fpPick t env first a b) := by
  rw [fpPick_eq hx hy]
  have canonical {z : Fp} (h : z.isNan = true) : t.Shows t.nan z := by
    obtain ⟨s, rfl⟩ := Fp.isNan_iff.1 h
    exact rfl
  refine ⟨rfl, fun nx => ?_, fun ny => ?_, fun h => ?_, fun h => ?_, fun nx ny not1 not2 => ?_⟩
  · cases ny : y.isNan
    · simpa [nx] using ht.asIs_shows inf hy ny
    · simpa [nx] using canonical ny
  · cases nx : x.isNan
    · simpa [ny] using ht.asIs_shows inf hx nx
    · simpa [ny] using canonical nx
  · obtain ⟨nx, ny, takes⟩ := h1 h
    simpa [nx, ny, takes] using ht.asIs_shows inf hx nx
  · obtain ⟨nx, ny, takes⟩ := h2 h
    simpa [nx, ny, takes] using ht.asIs_shows inf hy ny
  · obtain ⟨same, sign⟩ := level nx ny not1 not2
    cases takes : first x y
    · rw [takes, if_neg (by decide)] at sign
      rw [sign.1]
      simpa [nx, ny, takes] using same.shows_withSign sign.2 (ht.asIs_shows inf hy ny)
    · rw [takes, if_pos rfl] at sign
      rw [sign, Fp.withSign_neg]
      simpa [nx, ny, takes] using ht.asIs_shows inf hx nx

theorem fpMin_picks : t.Picks x y (x.Below y) (y.Below x) (x.neg || y.neg) (fpMin t env a b) := by
  refine fpPick_picks ht inf hx hy (first := Fp.le) (fun low => ?_) (fun high => ?_) (fun nx ny low high => ⟨⟨nx, ny, low, high⟩, ?_⟩)
  · obtain ⟨nx, ny⟩ := low.not_nan
    exact ⟨nx, ny, (Fp.le_iff nx ny).2 (.inl low)⟩
  · obtain ⟨ny, nx⟩ := high.not_nan
    refine ⟨nx, ny, Bool.eq_false_iff.2 ((Fp.le_iff nx ny).not.2 ?_)⟩
    exact not_or.2 ⟨high.asymm, fun h => h.1 high⟩
  · have le := Fp.le_iff nx ny
    simp only [low, high, not_false_eq_true, true_and, false_or] at le
    rw [if_congr le rfl rfl]
    cases x.neg <;> cases y.neg <;> decide

theorem fpMax_picks : t.Picks x y (y.Below x) (x.Below y) (x.neg && y.neg) (fpMax t env a b) := by
  refine fpPick_picks ht inf hx hy (first := fun x y => y.le x) (fun high => ?_) (fun low => ?_) (fun nx ny high low => ⟨⟨nx, ny, low, high⟩, ?_⟩)
  · obtain ⟨ny, nx⟩ := high.not_nan
    exact ⟨nx, ny, (Fp.le_iff ny nx).2 (.inl high)⟩
  · obtain ⟨nx, ny⟩ := low.not_nan
    refine ⟨nx, ny, Bool.eq_false_iff.2 ((Fp.le_iff ny nx).not.2 ?_)⟩
    exact not_or.2 ⟨low.asymm, fun h => h.1 low⟩
  · have le := Fp.le_iff ny nx
    simp only [low, high, not_false_eq_true, true_and, false_or] at le
    rw [if_congr le rfl rfl]
    cases x.neg <;> cases y.neg <;> decide

omit hy in
theorem fpSetSign_shows (neg : Bool) {o : FpOut} (ho : fpSetSign t env a neg = o) : t.Shows o.bits (x.withSign neg) ∧ o.fl = x.sigFlag := by
  unfold fpSetSign at ho
  simp only [hx] at ho
  subst ho
  split_ifs with nan
  · obtain ⟨s, rfl⟩ := Fp.isNan_iff.1 nan
    exact ⟨rfl, rfl⟩
  · exact ⟨ht.asIs_shows_withSign inf hx (Bool.eq_false_iff.2 nan) neg, (Fp.sigFlag_of_not_nan (Bool.eq_false_iff.2 nan)).symm⟩

omit hy in
theorem fpCopysign_shows {o : FpOut} (ho : fpCopysign t env a b = o) :
    t.Shows o.bits (x.withSign (b / t.signBit % 2 == 1)) ∧ o.fl = x.sigFlag ||| (t.value b).sigFlag := by
  obtain ⟨shows, flags⟩ := fpSetSign_shows ht inf hx (b / t.signBit % 2 == 1) rfl
  subst ho
  exact ⟨shows, congrArg (· ||| (t.value b).sigFlag) flags⟩

end

/-! ### VFCMP (R167, Table 7.6) -/

/-- A compare gives all ones exactly where p holds: of NaNs where onNan says so, of other operands where the condition holds. -/
theorem fpCmp_result {t : Fmt} {env : FpEnv} {a b : ℕ} {x y : Fp} (hx : t.operand env.ftz a = x) (hy : t.operand env.ftz b = y) {quiet onNan : Bool}
    {cond : Fp → Fp → Bool} {p : Prop} (hn : (x.isNan || y.isNan) = true → (onNan = true ↔ p))
    (hp : x.isNan = false → y.isNan = false → (cond x y = true ↔ p)) :
    ∀ o, fpCmp t env quiet onNan cond a b = o → (p → o.bits = 2 ^ t.width - 1) ∧ (¬ p → o.bits = 0) ∧
      o.fl = if quiet then x.sigFlag ||| y.sigFlag else if x.isNan || y.isNan then 16 else 0 := by
  rintro _ rfl
  have holds : (if x.isNan || y.isNan then onNan else cond x y) = true ↔ p := by
    cases nan : x.isNan || y.isNan
    · rw [Bool.or_eq_false_iff] at nan
      exact hp nan.1 nan.2
    · exact hn nan
  rw [fpCmp_eq hx hy]
  refine ⟨fun h => if_pos (holds.2 h), fun h => if_neg (holds.not.2 h), rfl⟩

section
variable {x y : Fp}

theorem Fp.not_below_of_nan (h : (x.isNan || y.isNan) = true) : ¬ x.Below y := by
  intro below
  rw [below.not_nan.1, below.not_nan.2] at h
  cases h

theorem Fp.not_ordered_of_nan (h : (x.isNan || y.isNan) = true) (p : Prop) : ¬ (x.isNan = false ∧ y.isNan = false ∧ p) := by
  rintro ⟨nx, ny, -⟩
  rw [nx, ny] at h
  cases h

end

/-- Settles O26: the rows by their one form; the lanes by what the operands are, numbers, infinities or NaNs, and by the order of the two values. -/
theorem vectorFloatTwoSourceResults : Obligations.VectorFloatTwoSourceResults := by
  unfold Obligations.VectorFloatTwoSourceResults
  refine ⟨?table, ?numbers, ?scaled, ?special⟩
  case table =>
    change ∀ r ∈ (_ : List (Nat × (Fmt → FpEnv → Nat → Nat → FpOut))), FloatTwoSources r.1 r.2
    simp only [List.forall_mem_cons]
    exact ⟨floatTwoSources_of_vf2 .vfadd (fun _ => rfl) _ (fun _ _ => rfl),
      floatTwoSources_of_vf2 .vfsub (fun _ => rfl) _ (fun _ _ => rfl),
      floatTwoSources_of_vf2 .vfmul (fun _ => rfl) _ (fun _ _ => rfl),
      floatTwoSources_of_vf2 .vfmin (fun _ => rfl) _ (fun _ _ => rfl),
      floatTwoSources_of_vf2 .vfmax (fun _ => rfl) _ (fun _ _ => rfl),
      floatTwoSources_of_vf2 .vfdiv (fun _ => rfl) _ (fun _ _ => rfl),
      floatTwoSources_of_vf2 .vfscale (fun _ => rfl) _ (fun _ _ => rfl),
      floatTwoSources_of_vf2 .vfcopysign (fun _ => rfl) _ (fun _ _ => rfl),
      floatTwoSources_of_vf2 .vfcmpEq (fun _ => rfl) _ (fun _ _ => rfl),
      floatTwoSources_of_vf2 .vfcmpNe (fun _ => rfl) _ (fun _ _ => rfl),
      floatTwoSources_of_vf2 .vfcmpLt (fun _ => rfl) _ (fun _ _ => rfl),
      floatTwoSources_of_vf2 .vfcmpLe (fun _ => rfl) _ (fun _ _ => rfl),
      floatTwoSources_of_vf2 .vfcmpGt (fun _ => rfl) _ (fun _ _ => rfl),
      floatTwoSources_of_vf2 .vfcmpGe (fun _ => rfl) _ (fun _ _ => rfl),
      floatTwoSources_of_vf2 .vfcmpUnord (fun _ => rfl) _ (fun _ _ => rfl),
      floatTwoSources_of_vf2 .vfcmpOrd (fun _ => rfl) _ (fun _ _ => rfl), List.forall_mem_nil _⟩
  case numbers =>
    intro t mem env a b p m e q n g x y hrm hx hy vx vy
    obtain ⟨ht, -⟩ := vectorFormat_regular_inf mem
    have zeroY : y = 0 ↔ n = 0 := vy ▸ number_eq_zero
    have sum := (exAdd_denotes env.rm p q m n e g).round_cases ht env hrm
    have difference := (exAdd_denotes env.rm p (!q) m n e g).round_cases ht env hrm
    have product := (Fp.exact_denotes (p != q) (m * n) (e + g)).round_cases ht env hrm
    have quotient (hn : n ≠ 0) := (exDiv_denotes p q m e g hn (operand_lt_two_pow_80 ht hy)).round_cases ht env hrm
    rw [← fpAdd_fin hx hy, vx, vy] at sum
    rw [← fpSub_fin hx hy, number_negated, ← sub_eq_add_neg, vx, vy, if_congr Bool.eq_not_iff rfl rfl] at difference
    rw [← fpMul_fin hx hy, (exMul_number p q m n e g).2, vx, vy] at product
    rw [vx, vy] at quotient
    refine ⟨sum.1, sum.2, difference.1, difference.2, product.1, product.2, fun hy0 hx0 => ?_, fun hy0 hx0 => ?_⟩
    · rw [fpDiv_fin hx hy (zeroY.not.1 hy0)]
      exact (quotient (zeroY.not.1 hy0)).1 (div_ne_zero hx0 hy0)
    · rw [fpDiv_fin hx hy (zeroY.not.1 hy0)]
      exact (quotient (zeroY.not.1 hy0)).2 (by rw [hx0, zero_div])
  case scaled =>
    intro t mem env a b p m e x hrm hx vx
    obtain ⟨ht, -⟩ := vectorFormat_regular_inf mem
    have product := (Fp.exact_denotes p m (e + toInt t.width b)).round_cases ht env hrm
    rw [← fpScale_fin b hx, number_scaled, vx] at product
    exact ⟨fun hx0 => product.1 (mul_ne_zero hx0 (by rw [twoTo_eq]; exact (two_zpow_pos _).ne')), fun hx0 => product.2 (by rw [hx0, zero_mul])⟩
  case special =>
    intro t mem env a b x y hx hy
    obtain ⟨ht, inf⟩ := vectorFormat_regular_inf mem
    refine ⟨fun nan => ?_, ?_, ?_, ?_, ?_, ?_, fun o => fpCopysign_shows ht inf hx, ?_⟩
    · obtain ⟨s, rfl⟩ := Fp.isNan_iff.1 nan
      unfold fpScale
      rw [hx]
    · rintro p rfl
      unfold fpScale
      rw [hx]
    · rintro p q n g rfl rfl
      exact inf_op_fin inf hx hy
    · rintro p q m e rfl rfl
      exact fin_op_inf inf hx hy
    · rintro p q rfl rfl
      exact inf_op_inf inf hx hy
    · simp only [List.forall_mem_cons]
      exact ⟨fun o ho => ho ▸ fpMin_picks ht inf hx hy, fun o ho => ho ▸ fpMax_picks ht inf hx hy, List.forall_mem_nil _⟩
    · have below (h : (x.isNan || y.isNan) = true) : ¬ x.Below y := Fp.not_below_of_nan h
      have above (h : (x.isNan || y.isNan) = true) : ¬ y.Below x := Fp.not_below_of_nan (by rwa [Bool.or_comm])
      simp only [List.forall_mem_cons]
      refine ⟨fpCmp_result hx hy (fun nan => iff_of_false (by decide) (Fp.not_ordered_of_nan nan _)) (fun nx ny => ?eq),
        fpCmp_result hx hy (fun nan => iff_of_true rfl ((Bool.or_eq_true_iff.1 nan).imp_right .inl)) (fun nx ny => ?ne),
        fpCmp_result hx hy (fun nan => iff_of_false (by decide) (below nan)) (fun nx ny => Fp.lt_iff_below nx ny),
        fpCmp_result hx hy (fun nan => iff_of_false (by decide) (Fp.not_ordered_of_nan nan _)) (fun nx ny => ?le),
        fpCmp_result hx hy (fun nan => iff_of_false (by decide) (above nan)) (fun nx ny => Fp.lt_iff_below ny nx),
        fpCmp_result hx hy (fun nan => iff_of_false (by decide) (Fp.not_ordered_of_nan nan _)) (fun nx ny => ?ge),
        fpCmp_result hx hy (fun nan => iff_of_true rfl (Bool.or_eq_true_iff.1 nan)) (fun nx ny => ?unord),
        fpCmp_result hx hy (fun nan => iff_of_false (by decide) (fun h => Fp.not_ordered_of_nan nan True ⟨h.1, h.2, trivial⟩)) (fun nx ny => iff_of_true rfl ⟨nx, ny⟩),
        List.forall_mem_nil _⟩
      case eq => simp [Fp.eq_iff nx ny, nx, ny]
      case ne => simp [← Bool.not_eq_true, Fp.eq_iff nx ny, nx, ny, imp_iff_not_or]
      case le => simp [← Fp.lt_iff_below ny nx, nx, ny]
      case ge => simp [← Fp.lt_iff_below nx ny, nx, ny]
      case unord => simp [nx, ny]

end Sys2Proof.Machine
end

section
/-! PROOFS. The fused vector floating-point operations, the reductions and VFNEGIN (R163, R164, R168, R169, Table 7.3). -/

namespace Sys2Proof.Machine

/-! ### The forms of a result -/

/-- A fused instruction computes its lanes with the signs of Table 7.3, into the format of its result (R143, R144, R163, R164). -/
theorem fused_does {c : Code} {i : Instr} {f : Fields} {s v : State} {wide : Fmt} {negP negC : Bool} {outs : List (ℕ × FpOut)} (j : Fields → Instr)
    (hj : coreOf c f = some (j f)) (he : exec (j f) s = vf3 c f wide negP negC s) (h : Issues i c f) (hr : s.ready c f = true) (hv : s.view c f = v)
    (ho : outs = v.lanes.map (fun j => (j, fpFma (fmtOf f.q.toNat) wide v.fpEnv negP negC (v.srcLane f.a (fmtOf f.q.toNat).width j)
      (v.srcLane f.b (fmtOf f.q.toNat).width j) (v.srcLane (f.x.setWidth 12) wide.width j)))) :
    FpDoes i c f s v wide.width (overlapsIn f.d [f.a, f.b, f.x.setWidth 12]) (outs.map (fun p => (p.1, p.2.fl))) (outs.map (fun p => (p.1, p.2.bits))) :=
  fpDoes_of_fpResult h hj he hr hv rfl ho

/-- Instruction j of code c folds op over the active lanes of A, in the tree of R168, into lane 0 of D; of the lanes it reads the magnitudes where abs says so. -/
def FloatReduces (j : Fields → Instr) (c : Code) (abs : Bool) (op : Fmt → FpEnv → ℕ → ℕ → FpOut) : Prop :=
  ∀ f s v reads tree, s.ready c f = true → s.view c f = v →
    (reads = v.lanes.map (fun j => (j, fpRead (fmtOf f.q.toNat) v.fpEnv abs (v.srcLane f.a (fmtOf f.q.toNat).width j)))) →
    (tree = fpTree (op (fmtOf f.q.toNat) v.fpEnv) 7 (reads.map (fun p => (p.1, p.2.bits)))) →
    FpDoes (j f) c f s v (fmtOf f.q.toNat).width (reduceMeets f.d f.a v.mySeq.vlen) (reads.map (fun p => (p.1, p.2.fl)) ++ tree.2)
      [(0, match tree.1 with | p :: _ => p.2 | [] => 0)]

theorem floatReduces_of_vfRed {c : Code} {abs : Bool} (j : Fields → Instr) (hi : ∀ f, Issues (j f) c f) (hj : ∀ f, coreOf c f = some (j f))
    (op : Fmt → FpEnv → ℕ → ℕ → FpOut) (he : ∀ f s, exec (j f) s = vfRed c f abs op s) : FloatReduces j c abs op := by
  rintro f s v _ _ hr hv rfl rfl
  refine fpDoes_of_withFlags (hi f) (hj f) (he f s) hr hv rfl ?_
  simp only [State.vlen_addFlags]
  rfl

/-! ### The fused operations on numbers (R138 to R141, Table 7.3) -/

/-- A number under one more sign. -/
theorem number_signed (neg p : Bool) (m : ℕ) (e : ℤ) : (Fp.fin (p != neg) m e).number = (if neg then -1 else 1) * (Fp.fin p m e).number := by
  cases neg
  · simp
  · simp [number_negated]

theorem negated_fin (neg p : Bool) (m : ℕ) (e : ℤ) : (if neg then (Fp.fin p m e).negate else .fin p m e) = .fin (p != neg) m e := by
  cases neg
  · simp
  · simp [Fp.negate, Fp.withSign, Fp.neg]

/-- The exact sum of the product and the addend, each under its sign of Table 7.3, rounded once to the type of the result. -/
theorem fpFma_fin {t wide : Fmt} {env : FpEnv} {a b c : ℕ} {p q r : Bool} {m n k : ℕ} {e g h : ℤ} (negP negC : Bool) (hx : t.operand env.ftz a = .fin p m e)
    (hy : t.operand env.ftz b = .fin q n g) (hz : wide.operand env.ftz c = .fin r k h) :
    fpFma t wide env negP negC a b c = wide.round env (exAdd env.rm (.fin ((p != q) != negP) (m * n) (e + g)) (.fin (r != negC) k h)).1 := by
  have quiet : ∀ z ∈ [Fp.fin p m e, .fin q n g, .fin r k h], z.sigFlag = 0 := by simp [Fp.sigFlag]
  unfold fpFma
  simp only [hx, hy, hz, exMul, negated_fin, exAdd_fin_flags, Nat.or_zero]
  exact fpRounded_quiet wide env _ quiet

/-- Settles O28: the rows by their forms, and the numbers by the exact sum of product and addend. -/
theorem vectorFloatFusedAndReductions : Obligations.VectorFloatFusedAndReductions := by
  unfold Obligations.VectorFloatFusedAndReductions
  refine ⟨?fused, ?numbers, ?reductions, fun i f s v h hr hv => does_of_body h rfl rfl hr hv rfl⟩
  case fused =>
    simp only [List.forall_mem_cons]
    refine ⟨?_, ?_, ?_, ?_, List.forall_mem_nil _⟩
    · rintro i f s v _ outs h hr hv rfl ho
      exact fused_does .vfma rfl rfl h hr hv ho
    · rintro i f s v _ outs h hr hv rfl ho
      exact fused_does .vfms rfl rfl h hr hv ho
    · rintro i f s v _ outs h hr hv rfl ho
      exact fused_does .vfnma rfl rfl h hr hv ho
    · rintro i f s v wide outs h hr hv named ho
      obtain rfl : wide = wideOf f := named.trans (if_congr (and_iff_right trivial) rfl rfl)
      exact fused_does .vfmac rfl rfl h hr hv ho
  case numbers =>
    rintro t mem wide wideMem env negP negC a b c p m e q n g r k h _ _ hrm hx hy hz rfl rfl
    have hw : wide.Regular := by
      simp only [List.mem_cons, List.not_mem_nil, or_false] at wideMem
      rcases wideMem with rfl | rfl
      · exact (vectorFormat_regular_inf mem).1
      · exact fmtOf_regular 0
    have sum := (exAdd_denotes env.rm ((p != q) != negP) (r != negC) (m * n) k (e + g) h).round_cases hw env hrm
    rw [← fpFma_fin negP negC hx hy hz, number_signed negP, number_signed negC, (exMul_number p q m n e g).2] at sum
    refine ⟨sum.1, fun zero => (sum.2 zero).trans ?_⟩
    congr 2
    exact if_ctx_congr Iff.rfl id (fun _ => rfl)
  case reductions =>
    change ∀ r ∈ (_ : List ((Fields → Instr) × Nat × Bool × (Fmt → FpEnv → Nat → Nat → FpOut))), FloatReduces r.1 r.2.1 r.2.2.1 r.2.2.2
    simp only [List.forall_mem_cons]
    exact ⟨floatReduces_of_vfRed .vfredAdd (fun _ => rfl) (fun _ => rfl) _ (fun _ _ => rfl),
      floatReduces_of_vfRed .vfredMax (fun _ => rfl) (fun _ => rfl) _ (fun _ _ => rfl),
      floatReduces_of_vfRed .vfredMin (fun _ => rfl) (fun _ => rfl) _ (fun _ _ => rfl),
      floatReduces_of_vfRed .vfredAmax (fun _ => rfl) (fun _ => rfl) _ (fun _ _ => rfl), List.forall_mem_nil _⟩

end Sys2Proof.Machine
end

section
/-! SUPPORT. Square roots and reciprocals of roots of exact values (R138, R165). -/

namespace Sys2Proof.Machine

/-! ### The integer square root -/

/-- A step of the root by bits: the next bit stays where the square still fits. -/
def rootStep (bits m r i : ℕ) : ℕ := if (r + 2 ^ (bits - 1 - i)) * (r + 2 ^ (bits - 1 - i)) ≤ m then r + 2 ^ (bits - 1 - i) else r

theorem isqrt_eq_foldl (bits m : ℕ) : isqrt bits m = (List.range bits).foldl (rootStep bits m) 0 := rfl

/-- After k bits the root lies within the weight of the last of them. -/
theorem rootSteps_bounds {bits m : ℕ} (h : m < 2 ^ bits * 2 ^ bits) : ∀ k ≤ bits, ∀ r, (List.range k).foldl (rootStep bits m) 0 = r →
    r * r ≤ m ∧ m < (r + 2 ^ (bits - k)) * (r + 2 ^ (bits - k)) := by
  intro k
  induction k with
  | zero =>
    rintro - _ rfl
    exact ⟨Nat.zero_le _, by simpa using h⟩
  | succ k ih =>
    rintro hk _ rfl
    obtain ⟨low, high⟩ := ih (Nat.le_of_succ_le hk) _ rfl
    rw [List.range_succ, List.foldl_append, List.foldl_cons, List.foldl_nil]
    generalize (List.range k).foldl (rootStep bits m) 0 = r at low high ⊢
    have weight : 2 ^ (bits - k) = 2 ^ (bits - (k + 1)) + 2 ^ (bits - (k + 1)) := by
      rw [← two_mul, ← pow_succ']
      congr 1
      omega
    rw [rootStep, Nat.sub_sub, Nat.add_comm 1 k]
    split_ifs with fits
    · exact ⟨fits, by rwa [weight, ← Nat.add_assoc] at high⟩
    · exact ⟨low, not_le.1 fits⟩

theorem isqrt_eq_sqrt {bits m : ℕ} (h : m < 2 ^ bits * 2 ^ bits) : isqrt bits m = Nat.sqrt m := by
  have bounds := rootSteps_bounds h bits le_rfl _ rfl
  rw [Nat.sub_self, pow_zero, ← isqrt_eq_foldl] at bounds
  exact Nat.eq_sqrt.2 bounds

/-! ### What a root stands for -/

/-- A count of 2^g with its sticky bit stands for the square root of v. -/
structure StandsRoot (r : ℕ) (g : ℤ) (sticky : Bool) (v : ℚ) : Prop where
  low   : r * 2 ^ g * (r * 2 ^ g) ≤ v
  high  : v < (r + 1) * 2 ^ g * ((r + 1) * 2 ^ g)
  exact : sticky = false → r * 2 ^ g * (r * 2 ^ g) = v
  more  : sticky = true → r * 2 ^ g * (r * 2 ^ g) < v

/-- What lies strictly between two counts of a unit. -/
theorem stands_between {m : ℕ} {e : ℤ} {z : ℚ} (low : m * 2 ^ e < z) (high : z < (m + 1) * 2 ^ e) : Stands m e true z :=
  ⟨low.le, high, iff_of_false (by decide) low.ne'⟩

/-- A root that has enough bits is rounded once. -/
theorem StandsRoot.rootRounded {r : ℕ} {g : ℤ} {sticky : Bool} {v : ℚ} (h : StandsRoot r g sticky v) (wide : 72 ≤ numBits r) {t : Fmt} (ht : t.Regular)
    {env : FpEnv} (hrm : env.rm < 4) : t.RootRounded env v (t.round env (.num false r g sticky)) := by
  have nonzero : r ≠ 0 := by
    rintro rfl
    exact absurd wide (by decide)
  have pos : (0 : ℚ) < r * 2 ^ g := mul_pos (by exact_mod_cast Nat.pos_of_ne_zero nonzero) (two_zpow_pos g)
  have rounds {z : ℚ} (stands : Stands r g sticky z) : t.Rounded env z (t.round env (.num false r g sticky)) :=
    ht.rounded env hrm false stands nonzero (fun _ => by have := ht.narrow; omega)
  cases sticky
  · exact .inl ⟨_, pos, h.exact rfl, rounds (stands_exact r g)⟩
  · exact .inr ⟨_, _, pos, h.more rfl, h.high, fun z low high => rounds (stands_between low high)⟩

/-- The integer root of k/d, with the remainder as its sticky bit. -/
theorem standsRoot_of_bounds {r d k : ℕ} (hd : d ≠ 0) (low : r * r * d ≤ k) (high : k < (r + 1) * (r + 1) * d) (g : ℤ) :
    StandsRoot r g (r * r * d != k) ((k : ℚ) / d * (2 ^ g * 2 ^ g)) := by
  have posD : (0 : ℚ) < d := by exact_mod_cast Nat.pos_of_ne_zero hd
  have unit : (0 : ℚ) < 2 ^ g * 2 ^ g := mul_pos (two_zpow_pos g) (two_zpow_pos g)
  have lowQ : (r : ℚ) * r * d ≤ k := by exact_mod_cast low
  have highQ : (k : ℚ) < (r + 1) * (r + 1) * d := by exact_mod_cast high
  refine ⟨?_, ?_, fun exact => ?_, fun more => ?_⟩
  · rw [mul_mul_mul_comm, mul_le_mul_iff_of_pos_right unit]
    exact (le_div_iff₀ posD).2 lowQ
  · rw [mul_mul_mul_comm, mul_lt_mul_iff_of_pos_right unit]
    exact (div_lt_iff₀ posD).2 highQ
  · rw [bne_eq_false_iff_eq] at exact
    rw [mul_mul_mul_comm, ← exact]
    push_cast
    rw [mul_div_cancel_right₀ _ posD.ne']
  · have less : (r : ℚ) * r * d < k := by exact_mod_cast low.lt_of_ne (bne_iff_ne.1 more)
    rw [mul_mul_mul_comm, mul_lt_mul_iff_of_pos_right unit]
    exact (lt_div_iff₀ posD).2 less

/-! ### The roots of the model -/

/-- A significand in a unit whose exponent is even. -/
def evenSig (m : ℕ) (e : ℤ) : ℕ := if e % 2 != 0 then 2 * m else m

/-- The even exponent. -/
def evenExp (e : ℤ) : ℤ := if e % 2 != 0 then e - 1 else e

theorem evenExp_half (e : ℤ) : evenExp e / 2 + evenExp e / 2 = evenExp e := by
  unfold evenExp
  split_ifs with odd
  · have := bne_iff_ne.1 odd
    omega
  · have : e % 2 = 0 := by simpa using odd
    omega

theorem evenSig_value (m : ℕ) (e : ℤ) : (evenSig m e : ℚ) * 2 ^ evenExp e = m * 2 ^ e := by
  unfold evenSig evenExp
  split_ifs
  · rw [zpow_sub_one₀ two_ne_zero]
    push_cast
    ring
  · rfl

section
variable {m : ℕ} (e : ℤ) (hm : m ≠ 0) (small : m < 2 ^ 53)
include hm small

theorem evenSig_bounds : evenSig m e ≠ 0 ∧ evenSig m e < 2 ^ 54 := by
  unfold evenSig
  split_ifs <;> omega

/-- The square root of a number (R165). -/
theorem exRoot_rounded {t : Fmt} (ht : t.Regular) {env : FpEnv} (hrm : env.rm < 4) : t.RootRounded env ((m : ℚ) * 2 ^ e) (t.round env (exRoot m e)) := by
  obtain ⟨nonzero, below⟩ := evenSig_bounds e hm small
  obtain ⟨n, hn⟩ : ∃ n, evenSig m e <<< 160 = n := ⟨_, rfl⟩
  have count : n = evenSig m e * 2 ^ 160 := by rw [← hn, Nat.shiftLeft_eq]
  have root : isqrt 120 n = n.sqrt := isqrt_eq_sqrt (by rw [count, ← pow_add]; omega)
  have wide : 72 ≤ numBits n.sqrt := by
    have : 2 ^ 80 ≤ n.sqrt := Nat.le_sqrt.2 (by rw [count, ← pow_add]; omega)
    have := lt_numBits this
    omega
  have stands := standsRoot_of_bounds one_ne_zero ((mul_one _).trans_le (Nat.sqrt_le n)) ((Nat.lt_succ_sqrt n).trans_eq (mul_one _).symm) (evenExp e / 2 - 80)
  have value : (n : ℚ) / (1 : ℕ) * (2 ^ (evenExp e / 2 - 80) * 2 ^ (evenExp e / 2 - 80)) = m * 2 ^ e := by
    have unit : (2 : ℚ) ^ (evenExp e / 2 - 80) * 2 ^ (evenExp e / 2 - 80) = 2 ^ evenExp e / 2 ^ 160 := by
      rw [← zpow_add₀ two_ne_zero, ← zpow_natCast (2 : ℚ) 160, ← zpow_sub₀ two_ne_zero]
      refine congrArg ((2 : ℚ) ^ ·) ?_
      have := evenExp_half e
      omega
    rw [unit, ← evenSig_value, count, Nat.cast_mul, Nat.cast_pow, Nat.cast_ofNat, Nat.cast_one]
    field_simp
  rw [value, mul_one] at stands
  have model : exRoot m e = .num false n.sqrt (evenExp e / 2 - 80) (n.sqrt * n.sqrt != n) := by
    rw [← root, ← hn]
    rfl
  rw [model]
  exact stands.rootRounded wide ht hrm

/-- The reciprocal of the square root of a number (R165). -/
theorem exRecipRoot_rounded {t : Fmt} (ht : t.Regular) {env : FpEnv} (hrm : env.rm < 4) :
    t.RootRounded env (1 / ((m : ℚ) * 2 ^ e)) (t.round env (exRecipRoot m e)) := by
  obtain ⟨nonzero, below⟩ := evenSig_bounds e hm small
  obtain ⟨d, hd⟩ : ∃ d, evenSig m e = d := ⟨_, rfl⟩
  rw [hd] at nonzero below
  obtain ⟨q, hq⟩ : ∃ q, 2 ^ 300 / d = q := ⟨_, rfl⟩
  have split := Nat.div_add_mod (2 ^ 300) d
  have rest := Nat.mod_lt (2 ^ 300) (Nat.pos_of_ne_zero nonzero)
  rw [hq] at split
  have root : isqrt 151 q = q.sqrt := isqrt_eq_sqrt (by
    have : q ≤ 2 ^ 300 := hq ▸ Nat.div_le_self _ _
    rw [← pow_add]
    omega)
  have wide : 72 ≤ numBits q.sqrt := by
    have large : 2 ^ 160 ≤ q := by
      rw [← hq, Nat.le_div_iff_mul_le (Nat.pos_of_ne_zero nonzero)]
      omega
    have : 2 ^ 80 ≤ q.sqrt := Nat.le_sqrt.2 (by rwa [← pow_add])
    have := lt_numBits this
    omega
  have low : q.sqrt * q.sqrt * d ≤ 2 ^ 300 := calc
    q.sqrt * q.sqrt * d ≤ q * d := Nat.mul_le_mul_right _ (Nat.sqrt_le q)
    _ ≤ 2 ^ 300 := hq ▸ Nat.div_mul_le_self _ _
  have high : 2 ^ 300 < (q.sqrt + 1) * (q.sqrt + 1) * d := calc
    2 ^ 300 < d * q + d := by omega
    _ = (q + 1) * d := by ring
    _ ≤ (q.sqrt + 1) * (q.sqrt + 1) * d := Nat.mul_le_mul_right _ (Nat.lt_succ_sqrt q)
  have stands := standsRoot_of_bounds nonzero low high (-(evenExp e / 2) - 150)
  have value : ((2 ^ 300 : ℕ) : ℚ) / d * (2 ^ (-(evenExp e / 2) - 150) * 2 ^ (-(evenExp e / 2) - 150)) = 1 / (m * 2 ^ e) := by
    have unit : (2 : ℚ) ^ (-(evenExp e / 2) - 150) * 2 ^ (-(evenExp e / 2) - 150) = (2 ^ evenExp e)⁻¹ / 2 ^ 300 := by
      rw [← zpow_add₀ two_ne_zero, ← zpow_neg, ← zpow_natCast (2 : ℚ) 300, ← zpow_sub₀ two_ne_zero]
      refine congrArg ((2 : ℚ) ^ ·) ?_
      have := evenExp_half e
      omega
    rw [unit, ← evenSig_value, hd, Nat.cast_pow, Nat.cast_ofNat]
    field_simp
  rw [value] at stands
  have model : exRecipRoot m e = .num false q.sqrt (-(evenExp e / 2) - 150) (q.sqrt * q.sqrt * d != 2 ^ 300) := by
    rw [← root, ← hq, ← hd]
    rfl
  rw [model]
  exact stands.rootRounded wide ht hrm

end

end Sys2Proof.Machine
end

section
/-! SUPPORT. The fixed-point power and logarithm of two (R165): the bounds that place them between the neighbouring integers. -/

namespace Sys2Proof.Machine

open Finset in
/-- A fold that adds a term at each step is the sum of the terms. -/
theorem foldl_add_eq_sum (u : ℕ → ℕ) (n : ℕ) : (List.range n).foldl (fun s k => s + u k) 0 = ∑ k ∈ range n, u k := by
  induction n with
  | zero => rfl
  | succ n ih => rw [List.range_succ, List.foldl_append, List.foldl_cons, List.foldl_nil, ih, sum_range_succ]

/-- The unit of the fixed-point numbers, as a real number. -/
theorem cast_unit_pos : (0 : ℝ) < (2 ^ fixP : ℕ) := by positivity

/-! ### The logarithm of 2 -/

open Finset in
theorem fixLn2_eq : fixLn2 = ∑ k ∈ range fixP, 2 ^ fixP / ((k + 1) * 2 ^ (k + 1)) := foldl_add_eq_sum _ _

/-- A term of the series of ln 2, in fixed point. -/
theorem fixLn2_term (k : ℕ) : ((2 ^ fixP / ((k + 1) * 2 ^ (k + 1)) : ℕ) : ℝ) ≤ (2 ^ fixP : ℕ) * ((1 / 2 : ℝ) ^ (k + 1) / (k + 1)) ∧
    (2 ^ fixP : ℕ) * ((1 / 2 : ℝ) ^ (k + 1) / (k + 1)) ≤ ((2 ^ fixP / ((k + 1) * 2 ^ (k + 1)) : ℕ) : ℝ) + 1 := by
  have value : (2 ^ fixP : ℕ) * ((1 / 2 : ℝ) ^ (k + 1) / (k + 1)) = ((2 ^ fixP : ℕ) : ℝ) / (((k + 1) * 2 ^ (k + 1) : ℕ) : ℝ) := by
    rw [one_div, inv_pow, Nat.cast_mul, Nat.cast_pow 2 (k + 1), Nat.cast_succ, Nat.cast_ofNat]
    field_simp
  rw [value, ← Nat.floor_div_eq_div (K := ℝ)]
  exact ⟨Nat.floor_le (by positivity), (Nat.lt_floor_add_one _).le⟩

open Finset in
/-- The fixed-point ln 2 is low, by less than one unit for each of its terms and one for the rest. -/
theorem fixLn2_bounds : (fixLn2 : ℝ) ≤ (2 ^ fixP : ℕ) * Real.log 2 ∧ (2 ^ fixP : ℕ) * Real.log 2 ≤ fixLn2 + (fixP + 1) := by
  have half : |(1 / 2 : ℝ)| < 1 := by rw [abs_of_pos] <;> norm_num
  have log : -Real.log (1 - 1 / 2) = Real.log 2 := by rw [← Real.log_inv]; norm_num
  have series := Real.hasSum_pow_div_log_of_abs_lt_one half
  have rest := Real.abs_log_sub_add_sum_range_le half fixP
  rw [log] at series
  rw [← neg_neg (Real.log (1 - 1 / 2)), log, ← sub_eq_add_neg, abs_of_pos (by norm_num : (0 : ℝ) < 1 / 2)] at rest
  have tail : (2 ^ fixP : ℕ) * ((1 / 2 : ℝ) ^ (fixP + 1) / (1 - 1 / 2)) = 1 := by
    rw [pow_succ, one_div, inv_pow, Nat.cast_pow, Nat.cast_ofNat]
    field_simp
    norm_num
  have below := sum_le_hasSum (range fixP) (fun k _ => by positivity) series
  have above := (abs_le.1 rest).1
  rw [fixLn2_eq, Nat.cast_sum]
  constructor
  · calc ∑ k ∈ range fixP, ((2 ^ fixP / ((k + 1) * 2 ^ (k + 1)) : ℕ) : ℝ)
      _ ≤ ∑ k ∈ range fixP, (2 ^ fixP : ℕ) * ((1 / 2 : ℝ) ^ (k + 1) / (k + 1)) := sum_le_sum (fun k _ => (fixLn2_term k).1)
      _ = (2 ^ fixP : ℕ) * ∑ k ∈ range fixP, (1 / 2 : ℝ) ^ (k + 1) / (k + 1) := (mul_sum _ _ _).symm
      _ ≤ (2 ^ fixP : ℕ) * Real.log 2 := mul_le_mul_of_nonneg_left below cast_unit_pos.le
  · calc (2 ^ fixP : ℕ) * Real.log 2
      _ ≤ (2 ^ fixP : ℕ) * (∑ k ∈ range fixP, (1 / 2 : ℝ) ^ (k + 1) / (k + 1) + (1 / 2 : ℝ) ^ (fixP + 1) / (1 - 1 / 2)) :=
        mul_le_mul_of_nonneg_left (by linarith) cast_unit_pos.le
      _ = ∑ k ∈ range fixP, (2 ^ fixP : ℕ) * ((1 / 2 : ℝ) ^ (k + 1) / (k + 1)) + 1 := by rw [mul_add, tail, mul_sum]
      _ ≤ ∑ k ∈ range fixP, (((2 ^ fixP / ((k + 1) * 2 ^ (k + 1)) : ℕ) : ℝ) + 1) + 1 := by gcongr with k; exact (fixLn2_term k).2
      _ = _ := by rw [sum_add_distrib, sum_const, card_range, nsmul_eq_mul, mul_one, add_assoc]

theorem fixLn2_le_unit : fixLn2 ≤ 2 ^ fixP := by
  have log : Real.log 2 ≤ 1 := by linarith [Real.log_two_lt_d9]
  have := fixLn2_bounds.1.trans (mul_le_of_le_one_right cast_unit_pos.le log)
  exact_mod_cast this

/-! ### The exponential -/

/-- A step of the series of e^y. -/
def expStep (y : ℕ) (p : ℕ × ℕ) (k : ℕ) : ℕ × ℕ := (p.1 + p.2 * y / 2 ^ fixP / (k + 1), p.2 * y / 2 ^ fixP / (k + 1))

theorem fixExp_eq (y : ℕ) : fixExp y = ((List.range 100).foldl (expStep y) (2 ^ fixP, 2 ^ fixP)).1 := rfl

open Finset in
/-- After n steps the sum and the term lie at or below those of the series, and the sum at or above 1. -/
theorem expSteps_bounds (y n : ℕ) : ∀ p, (List.range n).foldl (expStep y) (2 ^ fixP, 2 ^ fixP) = p →
    2 ^ fixP ≤ p.1 ∧ (p.1 : ℝ) ≤ (2 ^ fixP : ℕ) * ∑ k ∈ range (n + 1), ((y : ℝ) / (2 ^ fixP : ℕ)) ^ k / k.factorial ∧
      (p.2 : ℝ) ≤ (2 ^ fixP : ℕ) * (((y : ℝ) / (2 ^ fixP : ℕ)) ^ n / n.factorial) := by
  induction n with
  | zero =>
    rintro _ rfl
    simp
  | succ n ih =>
    rintro _ rfl
    obtain ⟨low, sum, term⟩ := ih _ rfl
    rw [List.range_succ, List.foldl_append, List.foldl_cons, List.foldl_nil]
    generalize (List.range n).foldl (expStep y) (2 ^ fixP, 2 ^ fixP) = p at low sum term ⊢
    have next : ((p.2 * y / 2 ^ fixP / (n + 1) : ℕ) : ℝ) ≤ (2 ^ fixP : ℕ) * (((y : ℝ) / (2 ^ fixP : ℕ)) ^ (n + 1) / (n + 1).factorial) := calc
      ((p.2 * y / 2 ^ fixP / (n + 1) : ℕ) : ℝ)
      _ ≤ (p.2 : ℝ) * ((y : ℝ) / (2 ^ fixP : ℕ)) / (n + 1) := by
        rw [← mul_div_assoc, ← Nat.cast_mul, ← Nat.cast_succ]
        exact Nat.cast_div_le.trans (div_le_div_of_nonneg_right Nat.cast_div_le (Nat.cast_nonneg _))
      _ ≤ (2 ^ fixP : ℕ) * (((y : ℝ) / (2 ^ fixP : ℕ)) ^ n / n.factorial) * ((y : ℝ) / (2 ^ fixP : ℕ)) / (n + 1) := by gcongr
      _ = _ := by rw [Nat.factorial_succ, pow_succ, Nat.cast_mul, Nat.cast_succ]; field_simp
    refine ⟨low.trans (Nat.le_add_right _ _), ?_, next⟩
    rw [expStep, Nat.cast_add, sum_range_succ, mul_add]
    exact add_le_add sum next

/-- The fraction of a power of two lies between 1 and 2. -/
theorem fixExp_bounds {fr : ℕ} (h : fr < 2 ^ fixP) : 2 ^ fixP ≤ fixExp (fr * fixLn2 / 2 ^ fixP) ∧ fixExp (fr * fixLn2 / 2 ^ fixP) < 2 * 2 ^ fixP := by
  obtain ⟨y, hy⟩ : ∃ y, fr * fixLn2 / 2 ^ fixP = y := ⟨_, rfl⟩
  have pos := cast_unit_pos
  have below : (y : ℝ) / (2 ^ fixP : ℕ) < Real.log 2 := by
    rw [div_lt_iff₀ pos]
    calc (y : ℝ)
      _ ≤ ((fr * fixLn2 : ℕ) : ℝ) / (2 ^ fixP : ℕ) := hy ▸ Nat.cast_div_le
      _ ≤ fr * Real.log 2 := by
        rw [div_le_iff₀ pos, Nat.cast_mul, mul_assoc, mul_comm (Real.log 2)]
        exact mul_le_mul_of_nonneg_left fixLn2_bounds.1 fr.cast_nonneg
      _ < Real.log 2 * (2 ^ fixP : ℕ) := by
        rw [mul_comm]
        exact mul_lt_mul_of_pos_left (by exact_mod_cast h) (Real.log_pos one_lt_two)
  obtain ⟨low, sum, -⟩ := expSteps_bounds y 100 _ rfl
  rw [hy, fixExp_eq]
  refine ⟨low, ?_⟩
  have high : ((List.range 100).foldl (expStep y) (2 ^ fixP, 2 ^ fixP)).1 < (2 ^ fixP : ℕ) * (2 : ℝ) := calc
    (((List.range 100).foldl (expStep y) (2 ^ fixP, 2 ^ fixP)).1 : ℝ)
    _ ≤ (2 ^ fixP : ℕ) * Real.exp ((y : ℝ) / (2 ^ fixP : ℕ)) :=
      sum.trans (mul_le_mul_of_nonneg_left (Real.sum_le_exp_of_nonneg (by positivity) _) pos.le)
    _ < (2 ^ fixP : ℕ) * 2 := mul_lt_mul_of_pos_left ((Real.lt_log_iff_exp_lt two_pos).1 below) pos
  rw [mul_comm]
  exact_mod_cast high

end Sys2Proof.Machine
end

section
/-! SUPPORT. The fixed-point logarithm (R165), from its series. -/

namespace Sys2Proof.Machine

/-! ### The logarithm -/

/-- A step of the series of atanh z. -/
def lnStep (z2 : ℕ) (p : ℕ × ℕ) (k : ℕ) : ℕ × ℕ := (p.1 + p.2 / (2 * k + 1), p.2 * z2 / 2 ^ fixP)

/-- (x − 1)/(x + 1) in fixed point. -/
def fixRatio (x : ℕ) : ℕ := (x - 2 ^ fixP) * 2 ^ fixP / (x + 2 ^ fixP)

theorem fixLn_eq (x : ℕ) : fixLn x = 2 * ((List.range 140).foldl (lnStep (fixRatio x * fixRatio x / 2 ^ fixP)) (0, fixRatio x)).1 := rfl

open Finset in
/-- After n steps the sum and the term lie at or below those of the series, and the sum at or above its first term. -/
theorem lnSteps_bounds {z : ℕ} {r : ℝ} (hz : (z : ℝ) ≤ (2 ^ fixP : ℕ) * r) (hr : 0 ≤ r) (n : ℕ) :
    ∀ p, (List.range n).foldl (lnStep (z * z / 2 ^ fixP)) (0, z) = p →
      (0 < n → z ≤ p.1) ∧ (p.1 : ℝ) ≤ (2 ^ fixP : ℕ) * ∑ k ∈ range n, r ^ (2 * k + 1) / (2 * k + 1) ∧ (p.2 : ℝ) ≤ (2 ^ fixP : ℕ) * r ^ (2 * n + 1) ∧
        (n = 0 → p = (0, z)) := by
  have pos := cast_unit_pos
  have square : ((z * z / 2 ^ fixP : ℕ) : ℝ) ≤ (2 ^ fixP : ℕ) * r * r := calc
    ((z * z / 2 ^ fixP : ℕ) : ℝ)
    _ ≤ (z : ℝ) * z / (2 ^ fixP : ℕ) := by rw [← Nat.cast_mul]; exact Nat.cast_div_le
    _ ≤ ((2 ^ fixP : ℕ) * r) * ((2 ^ fixP : ℕ) * r) / (2 ^ fixP : ℕ) := by gcongr
    _ = _ := by field_simp
  induction n with
  | zero =>
    rintro _ rfl
    simpa using hz
  | succ n ih =>
    rintro _ rfl
    obtain ⟨first, sum, term, start⟩ := ih _ rfl
    rw [List.range_succ, List.foldl_append, List.foldl_cons, List.foldl_nil]
    generalize (List.range n).foldl (lnStep (z * z / 2 ^ fixP)) (0, z) = p at first sum term start ⊢
    refine ⟨fun _ => ?_, ?_, ?_, fun h => absurd h (Nat.succ_ne_zero n)⟩
    · rcases Nat.eq_zero_or_pos n with rfl | later
      · rw [start rfl]
        simp [lnStep]
      · exact (first later).trans (Nat.le_add_right _ _)
    · rw [lnStep, Nat.cast_add, sum_range_succ, mul_add]
      refine add_le_add sum (Nat.cast_div_le.trans ?_)
      rw [← mul_div_assoc, Nat.cast_add, Nat.cast_mul, Nat.cast_ofNat, Nat.cast_one]
      gcongr
    · calc ((p.2 * (z * z / 2 ^ fixP) / 2 ^ fixP : ℕ) : ℝ)
        _ ≤ (p.2 : ℝ) * (z * z / 2 ^ fixP : ℕ) / (2 ^ fixP : ℕ) := by rw [← Nat.cast_mul]; exact Nat.cast_div_le
        _ ≤ ((2 ^ fixP : ℕ) * r ^ (2 * n + 1)) * ((2 ^ fixP : ℕ) * r * r) / (2 ^ fixP : ℕ) := by gcongr
        _ = (2 ^ fixP : ℕ) * r ^ (2 * n + 1) * r * r := by field_simp
        _ = _ := by ring

section
variable {x : ℕ} (hx : 2 ^ fixP ≤ x) {r : ℝ} (hr : ((x : ℝ) - (2 ^ fixP : ℕ)) / (x + (2 ^ fixP : ℕ)) = r)
include hx hr

/-- The fixed-point ratio is low. -/
theorem fixRatio_le : (fixRatio x : ℝ) ≤ (2 ^ fixP : ℕ) * r := by
  rw [← hr]
  refine Nat.cast_div_le.trans_eq ?_
  rw [Nat.cast_mul, Nat.cast_sub hx, Nat.cast_add]
  ring

theorem ratio_bounds : 0 ≤ r ∧ r < 1 := by
  have pos := cast_unit_pos
  have le : ((2 ^ fixP : ℕ) : ℝ) ≤ x := by exact_mod_cast hx
  rw [← hr]
  refine ⟨div_nonneg (sub_nonneg.2 le) (by positivity), ?_⟩
  rw [div_lt_one (by positivity)]
  linarith

/-- The logarithm that the series in the ratio sums to. -/
theorem log_ratio : Real.log (1 + r) - Real.log (1 - r) = Real.log ((x : ℝ) / (2 ^ fixP : ℕ)) := by
  have pos := cast_unit_pos
  obtain ⟨nonneg, below⟩ := ratio_bounds hx hr
  rw [← Real.log_div (by linarith) (by linarith)]
  congr 1
  rw [div_eq_div_iff (by linarith) pos.ne', ← hr]
  field_simp
  ring

end

/-- The fixed-point logarithm is low. -/
theorem fixLn_le_log {x : ℕ} (hx : 2 ^ fixP ≤ x) : (fixLn x : ℝ) ≤ (2 ^ fixP : ℕ) * Real.log ((x : ℝ) / (2 ^ fixP : ℕ)) := by
  obtain ⟨r, hr⟩ : ∃ r : ℝ, ((x : ℝ) - (2 ^ fixP : ℕ)) / (x + (2 ^ fixP : ℕ)) = r := ⟨_, rfl⟩
  obtain ⟨nonneg, below⟩ := ratio_bounds hx hr
  obtain ⟨-, sum, -⟩ := lnSteps_bounds (fixRatio_le hx hr) nonneg 140 _ rfl
  have series := Real.hasSum_log_sub_log_of_abs_lt_one (abs_lt.2 ⟨by linarith, below⟩)
  rw [log_ratio hx hr] at series
  have partialSum := sum_le_hasSum (Finset.range 140) (fun k _ => by positivity) series
  rw [fixLn_eq, Nat.cast_mul, Nat.cast_ofNat]
  calc 2 * ((((List.range 140).foldl (lnStep (fixRatio x * fixRatio x / 2 ^ fixP)) (0, fixRatio x)).1 : ℕ) : ℝ)
    _ ≤ 2 * ((2 ^ fixP : ℕ) * ∑ k ∈ Finset.range 140, r ^ (2 * k + 1) / (2 * k + 1)) := by gcongr
    _ = (2 ^ fixP : ℕ) * ∑ k ∈ Finset.range 140, 2 * (1 / (2 * (k : ℝ) + 1)) * r ^ (2 * k + 1) := by
      rw [Finset.mul_sum, Finset.mul_sum, Finset.mul_sum]
      exact Finset.sum_congr rfl (fun k _ => by ring)
    _ ≤ _ := mul_le_mul_of_nonneg_left partialSum cast_unit_pos.le

theorem fixRatio_le_fixLn {x : ℕ} (hx : 2 ^ fixP ≤ x) : 2 * fixRatio x ≤ fixLn x := by
  obtain ⟨first, -⟩ := lnSteps_bounds (fixRatio_le hx rfl) (ratio_bounds hx rfl).1 140 _ rfl
  exact Nat.mul_le_mul_left 2 (first (by decide))

/-! ### The fraction of a logarithm of two -/

/-- The fraction of a logarithm in the model: log2 of a significand of k + 1 bits over its leading one. -/
def fixLog (m k : ℕ) : ℕ := fixLn (m <<< (fixP - k)) * 2 ^ fixP / fixLn2

/-- The significand in fixed point lies well between 1 and 2. -/
theorem fixed_bounds {m k : ℕ} (hk : k ≤ 52) (low : 2 ^ k < m) (high : m < 2 * 2 ^ k) :
    2 ^ fixP + 2 ^ 200 ≤ m <<< (fixP - k) ∧ m <<< (fixP - k) + 2 ^ 200 ≤ 2 * 2 ^ fixP := by
  obtain ⟨j, hj⟩ : ∃ j, fixP - k = j := ⟨_, rfl⟩
  have bits : fixP = 400 := rfl
  have unit : 2 ^ fixP = 2 ^ k * 2 ^ j := by rw [← pow_add]; congr 1; omega
  have step : 2 ^ 200 ≤ 2 ^ j := Nat.pow_le_pow_right two_pos (by omega)
  have above := Nat.mul_le_mul_right (2 ^ j) (Nat.succ_le_of_lt low)
  have below := Nat.mul_le_mul_right (2 ^ j) (Nat.succ_le_of_lt high)
  rw [Nat.succ_mul] at above below
  rw [hj, Nat.shiftLeft_eq, unit, ← mul_assoc]
  exact ⟨(Nat.add_le_add_left step _).trans above, (Nat.add_le_add_left step _).trans below⟩

/-- Well below 2, a fixed-point logarithm is well below the fixed-point ln 2. -/
theorem fixLn_below_ln2 {x : ℕ} (one : 2 ^ fixP ≤ x) (two : x + 2 ^ 200 ≤ 2 * 2 ^ fixP) : fixLn x + 2 ^ 198 ≤ fixLn2 := by
  have pos := cast_unit_pos
  have posX : (0 : ℝ) < x := pos.trans_le (by exact_mod_cast one)
  have twoR : (x : ℝ) + 2 ^ 200 ≤ 2 * (2 ^ fixP : ℕ) := by exact_mod_cast two
  have log : Real.log ((x : ℝ) / (2 ^ fixP : ℕ)) ≤ Real.log 2 + ((x : ℝ) / (2 * (2 ^ fixP : ℕ)) - 1) := calc
    Real.log ((x : ℝ) / (2 ^ fixP : ℕ)) = Real.log 2 + Real.log ((x : ℝ) / (2 * (2 ^ fixP : ℕ))) := by
      rw [← Real.log_mul two_ne_zero (by positivity)]
      congr 1
      field_simp
    _ ≤ _ := by
      gcongr
      exact Real.log_le_sub_one_of_pos (by positivity)
  have low : (fixLn x : ℝ) ≤ (2 ^ fixP : ℕ) * Real.log 2 - 2 ^ 199 := calc
    (fixLn x : ℝ) ≤ (2 ^ fixP : ℕ) * (Real.log 2 + ((x : ℝ) / (2 * (2 ^ fixP : ℕ)) - 1)) :=
      (fixLn_le_log one).trans (mul_le_mul_of_nonneg_left log pos.le)
    _ = (2 ^ fixP : ℕ) * Real.log 2 + (x / 2 - (2 ^ fixP : ℕ)) := by field_simp
    _ ≤ (2 ^ fixP : ℕ) * Real.log 2 - 2 ^ 199 := by linarith
  have sum : (fixLn x : ℝ) + 2 ^ 199 ≤ fixLn2 + (fixP + 1) := by linarith [fixLn2_bounds.2]
  have bits : fixP = 400 := rfl
  have : fixLn x + 2 ^ 199 ≤ fixLn2 + (fixP + 1) := by exact_mod_cast sum
  omega

/-- The fraction of a logarithm that is no integer lies well between 0 and 1. -/
theorem fixLog_bounds {m k : ℕ} (hk : k ≤ 52) (low : 2 ^ k < m) (high : m < 2 * 2 ^ k) : 2 ^ 80 ≤ fixLog m k ∧ fixLog m k + 2 ^ 80 ≤ 2 ^ fixP := by
  obtain ⟨x, hx⟩ : ∃ x, m <<< (fixP - k) = x := ⟨_, rfl⟩
  obtain ⟨above, below⟩ := fixed_bounds hk low high
  rw [hx] at above below
  have one : 2 ^ fixP ≤ x := (Nat.le_add_right _ _).trans above
  have unit := fixLn2_le_unit
  have ln2 := fixLn_below_ln2 one below
  rw [fixLog, hx]
  constructor
  · have gap : 2 ^ 200 ≤ x - 2 ^ fixP := (Nat.le_sub_iff_add_le' one).2 above
    have ratio : 2 ^ 79 ≤ fixRatio x := by
      rw [fixRatio, Nat.le_div_iff_mul_le (by omega)]
      calc 2 ^ 79 * (x + 2 ^ fixP)
        _ ≤ 2 ^ 79 * (4 * 2 ^ fixP) := Nat.mul_le_mul_left _ (by omega)
        _ = 2 ^ 81 * 2 ^ fixP := by ring
        _ ≤ (x - 2 ^ fixP) * 2 ^ fixP := Nat.mul_le_mul_right _ ((Nat.pow_le_pow_right two_pos (by decide)).trans gap)
    have first : 2 ^ 80 ≤ 2 * fixRatio x := (pow_succ' 2 79).trans_le (Nat.mul_le_mul_left 2 ratio)
    rw [Nat.le_div_iff_mul_le (by omega)]
    calc 2 ^ 80 * fixLn2
      _ ≤ 2 * fixRatio x * 2 ^ fixP := Nat.mul_le_mul first unit
      _ ≤ fixLn x * 2 ^ fixP := Nat.mul_le_mul_right _ (fixRatio_le_fixLn one)
  · have room : 2 ^ 80 ≤ 2 ^ fixP := Nat.pow_le_pow_right (n := 2) two_pos (show 80 ≤ fixP by decide)
    have fraction : fixLn x * 2 ^ fixP / fixLn2 ≤ 2 ^ fixP - 2 ^ 80 := by
      refine Nat.div_le_of_le_mul ?_
      calc fixLn x * 2 ^ fixP
        _ ≤ (fixLn2 - 2 ^ 80) * 2 ^ fixP := Nat.mul_le_mul_right _ (by omega)
        _ = fixLn2 * 2 ^ fixP - 2 ^ 80 * 2 ^ fixP := Nat.sub_mul _ _ _
        _ ≤ fixLn2 * 2 ^ fixP - 2 ^ 80 * fixLn2 := Nat.sub_le_sub_left (Nat.mul_le_mul_left _ unit) _
        _ = fixLn2 * (2 ^ fixP - 2 ^ 80) := by rw [Nat.mul_sub, Nat.mul_comm (2 ^ 80)]
    omega

end Sys2Proof.Machine
end

section
/-! SUPPORT. What the power and the logarithm of two of an exact value stand for (R165). -/

namespace Sys2Proof.Machine

/-! ### Counts of the fixed-point unit -/

/-- Half a unit above a count is a number that the count stands for. -/
theorem stands_half (k : ℕ) (g : ℤ) : Stands k g true ((k + 1 / 2) * 2 ^ g) := by
  have unit := two_zpow_pos g
  exact stands_between (mul_lt_mul_of_pos_right (by linarith) unit) (mul_lt_mul_of_pos_right (by linarith) unit)

/-- A count of a fixed-point number of at least 72 bits, with something below it. -/
theorem denotes_half {k : ℕ} (s : Bool) (wide : 2 ^ 72 ≤ k) (g : ℤ) : (Ex.num s k g true).Denotes false (signed s ((k + 1 / 2) * 2 ^ g)) :=
  .num (stands_half k g) (by rintro rfl; exact absurd wide (by decide)) (fun _ => (lt_numBits wide).le)

theorem two_pow_le_unit {j : ℕ} (h : j ≤ 400) : 2 ^ j ≤ 2 ^ fixP := Nat.pow_le_pow_right (n := 2) two_pos (show j ≤ fixP from h)

/-- The unit of the fixed-point numbers, as a rational number. -/
theorem unit_zpow : ((2 ^ fixP : ℕ) : ℚ) * 2 ^ (-(fixP : ℤ)) = 1 := by
  rw [natCast_two_pow_mul, add_neg_cancel, zpow_zero]

/-! ### The power of two -/

/-- A value as a count of the fixed-point unit. -/
def fixedMag (m : ℕ) (e : ℤ) : ℤ :=
  if 0 ≤ e + fixP then ((m <<< (e + fixP).toNat : ℕ) : ℤ) else ((m >>> (-(e + fixP)).toNat : ℕ) : ℤ)

/-- 2^a of a fixed-point a, exact where a is an integer. -/
def fixedPower (a : ℤ) : Ex :=
  if (a % (2 ^ fixP : ℕ)).toNat = 0 then .num false 1 (a / (2 ^ fixP : ℕ)) false
  else .num false (fixExp ((a % (2 ^ fixP : ℕ)).toNat * fixLn2 / 2 ^ fixP)) (a / (2 ^ fixP : ℕ) - fixP) true

theorem exExp2_eq (neg : Bool) (m : ℕ) (e : ℤ) : exExp2 neg m e =
    if e + (numBits m : ℤ) < -200 then
      (if neg then .num false (2 ^ fixP - 1) (-(fixP : ℤ)) true else .num false (2 ^ fixP) (-(fixP : ℤ)) true)
    else fixedPower (if neg then -fixedMag m e else fixedMag m e) := rfl

theorem fixedPower_integer (n : ℤ) : (fixedPower (n * (2 ^ fixP : ℕ))).Denotes false (2 ^ n) := by
  have pos : ((2 ^ fixP : ℕ) : ℤ) ≠ 0 := by positivity
  rw [fixedPower, Int.mul_emod_left, if_pos (by rfl), Int.mul_ediv_cancel _ pos]
  have denotes : (Ex.num false 1 n false).Denotes false (signed false (((1 : ℕ) : ℚ) * 2 ^ n)) := .num (stands_exact 1 n) one_ne_zero (by simp)
  simpa [signed] using denotes

/-- Between two integers a power lies between theirs. -/
theorem fixedPower_between {a n : ℤ} (low : n * (2 ^ fixP : ℕ) < a) (high : a < (n + 1) * (2 ^ fixP : ℕ)) :
    ∃ z : ℚ, 2 ^ n < z ∧ z < 2 ^ (n + 1) ∧ (fixedPower a).Denotes false z := by
  obtain ⟨fr, hfr⟩ : ∃ fr : ℕ, a = fr + n * (2 ^ fixP : ℕ) := ⟨(a - n * (2 ^ fixP : ℕ)).toNat, by rw [Int.toNat_of_nonneg] <;> linarith⟩
  have pos : (0 : ℤ) < (2 ^ fixP : ℕ) := by positivity
  have below : fr < 2 ^ fixP := by
    have : (fr : ℤ) < (2 ^ fixP : ℕ) := by linarith
    exact_mod_cast this
  have above : fr ≠ 0 := by
    rintro rfl
    simp [hfr] at low
  have quotient : a / (2 ^ fixP : ℕ) = n := by
    rw [hfr, Int.add_mul_ediv_right _ _ pos.ne', Int.ediv_eq_zero_of_lt (Int.natCast_nonneg fr) (by exact_mod_cast below), zero_add]
  have rest : (a % (2 ^ fixP : ℕ)).toNat = fr := by
    rw [hfr, Int.add_mul_emod_self_right, Int.emod_eq_of_lt (Int.natCast_nonneg fr) (by exact_mod_cast below), Int.toNat_natCast]
  obtain ⟨least, most⟩ := fixExp_bounds below
  rw [fixedPower, quotient, rest, if_neg above]
  generalize fixExp (fr * fixLn2 / 2 ^ fixP) = k at least most
  have unit := two_zpow_pos (n - fixP)
  have one : (2 : ℚ) ^ n = (2 ^ fixP : ℕ) * 2 ^ (n - fixP) := by rw [natCast_two_pow_mul, add_sub_cancel]
  refine ⟨_, ?_, ?_, denotes_half false ((two_pow_le_unit (by decide)).trans least) _⟩
  · rw [one, signed, if_neg (by decide), mul_lt_mul_iff_of_pos_right unit]
    have : ((2 ^ fixP : ℕ) : ℚ) ≤ k := by exact_mod_cast least
    linarith
  · rw [zpow_add_one₀ two_ne_zero, one, signed, if_neg (by decide), mul_right_comm, mul_lt_mul_iff_of_pos_right unit]
    have : (k : ℚ) + 1 ≤ 2 * (2 ^ fixP : ℕ) := by exact_mod_cast most
    linarith

/-- The integer below a number. -/
theorem floor_unique {n k : ℤ} {y : ℚ} (low : (n : ℚ) < y) (high : y < n + 1) (below : (k : ℚ) ≤ y) (above : y < k + 1) : n = k :=
  (Int.floor_eq_iff.2 ⟨low.le, high⟩).symm.trans (Int.floor_eq_iff.2 ⟨below, above⟩)

/-- 2^a of a tiny a is next to 1, on its side. -/
theorem exExp2_tiny {neg : Bool} {m : ℕ} {e n : ℤ} (hm : m ≠ 0) (tiny : e + (numBits m : ℤ) < -200) (low : (n : ℚ) < (Fp.fin neg m e).number)
    (high : (Fp.fin neg m e).number < n + 1) : ∃ z : ℚ, 2 ^ n < z ∧ z < 2 ^ (n + 1) ∧ (exExp2 neg m e).Denotes false z := by
  have pos : (0 : ℚ) < m * 2 ^ e := (stands_exact m e).pos hm
  have below : (m : ℚ) * 2 ^ e < 1 :=
    ((stands_exact m e).leading hm).2.trans_le ((two_zpow_le.2 (show e + (numBits m : ℤ) ≤ 0 by omega)).trans_eq (zpow_zero _))
  have whole := unit_zpow
  have unit := two_zpow_pos (-(fixP : ℤ))
  have half : (2 : ℚ) ^ (-(fixP : ℤ)) ≤ 2 ^ (-1 : ℤ) := two_zpow_le.2 (by decide)
  rw [zpow_neg_one] at half
  rw [number_fin, signed] at low high
  rw [exExp2_eq, if_pos tiny]
  cases neg
  · rw [if_neg (by decide)] at low high
    obtain rfl : n = 0 := floor_unique low high (by simpa using pos.le) (by simpa using below)
    refine ⟨_, ?_, ?_, denotes_half false (two_pow_le_unit (by decide)) _⟩
    all_goals
      rw [signed, if_neg (by decide), add_mul, whole]
      simp only [zpow_zero, zero_add, zpow_one]
      linarith
  · rw [if_pos rfl] at low high
    obtain rfl : n = -1 := floor_unique low high (by push_cast; linarith) (by push_cast; linarith)
    have wide : 2 ^ 72 ≤ 2 ^ fixP - 1 := Nat.le_sub_one_of_lt ((Nat.pow_lt_pow_right one_lt_two (by decide)).trans_le (two_pow_le_unit (j := 73) (by decide)))
    refine ⟨_, ?_, ?_, denotes_half false wide _⟩
    all_goals
      rw [signed, if_neg (by decide), Nat.cast_sub Nat.one_le_two_pow, Nat.cast_one, add_mul, sub_mul, whole]
      simp only [neg_add_cancel, zpow_neg_one, zpow_zero]
      linarith

section
variable {neg : Bool} {m : ℕ} {e : ℤ} (hm : m ≠ 0) (small : m < 2 ^ 53)
include small

/-- A value that is not tiny is a whole count of the fixed-point unit. -/
theorem fixed_value (h : ¬ e + (numBits m : ℤ) < -200) :
    (((if neg then -fixedMag m e else fixedMag m e : ℤ)) : ℚ) = (Fp.fin neg m e).number * (2 ^ fixP : ℕ) := by
  have bits := numBits_le small
  have nonneg : 0 ≤ e + fixP := by
    have : fixP = 400 := rfl
    omega
  have mag : ((fixedMag m e : ℤ) : ℚ) = m * 2 ^ e * (2 ^ fixP : ℕ) := by
    rw [fixedMag, if_pos nonneg, Int.cast_natCast, Nat.shiftLeft_eq, Nat.cast_mul, Nat.cast_pow, Nat.cast_ofNat, ← zpow_natCast, Int.toNat_of_nonneg nonneg,
      zpow_add₀ two_ne_zero, zpow_natCast, Nat.cast_pow, Nat.cast_ofNat, mul_assoc]
  rw [number_fin]
  cases neg <;> simp [signed, mag]

include hm

/-- 2^a of an integer a is exact (R165). -/
theorem exExp2_integer {n : ℤ} (h : (n : ℚ) = (Fp.fin neg m e).number) : (exExp2 neg m e).Denotes false (2 ^ n) := by
  have far : ¬ e + (numBits m : ℤ) < -200 := by
    intro tiny
    have nonzero : n ≠ 0 := by
      rintro rfl
      exact hm (number_eq_zero.1 (h.symm.trans Int.cast_zero))
    have one : (1 : ℚ) ≤ |(n : ℚ)| := by exact_mod_cast Int.one_le_abs nonzero
    have magnitude : |(n : ℚ)| < 1 := by
      rw [h, number_fin, abs_signed, abs_of_nonneg (mul_nonneg m.cast_nonneg (two_zpow_pos e).le)]
      exact ((stands_exact m e).leading hm).2.trans_le ((two_zpow_le.2 (show e + (numBits m : ℤ) ≤ 0 by omega)).trans_eq (zpow_zero _))
    exact absurd one (not_le.2 magnitude)
  have value := fixed_value (neg := neg) small far
  rw [← h] at value
  rw [exExp2_eq, if_neg far, show (if neg then -fixedMag m e else fixedMag m e) = n * (2 ^ fixP : ℕ) by exact_mod_cast value]
  exact fixedPower_integer n

/-- Between two integers 2^a lies between their powers (R165). -/
theorem exExp2_between {n : ℤ} (low : (n : ℚ) < (Fp.fin neg m e).number) (high : (Fp.fin neg m e).number < n + 1) :
    ∃ z : ℚ, 2 ^ n < z ∧ z < 2 ^ (n + 1) ∧ (exExp2 neg m e).Denotes false z := by
  by_cases tiny : e + (numBits m : ℤ) < -200
  · exact exExp2_tiny hm tiny low high
  · have value := fixed_value (neg := neg) small tiny
    have unit : (0 : ℚ) < (2 ^ fixP : ℕ) := by positivity
    rw [exExp2_eq, if_neg tiny]
    refine fixedPower_between ?_ ?_
    · have := mul_lt_mul_of_pos_right low unit
      rw [← value] at this
      exact_mod_cast this
    · have := mul_lt_mul_of_pos_right high unit
      rw [← value] at this
      exact_mod_cast this

end

/-! ### The logarithm of two -/

/-- n and a fraction of l fixed-point units, as the model delivers them. -/
def fixedSum (n : ℤ) (l : ℕ) : Ex := .num (decide (n * (2 ^ fixP : ℕ) + l < 0)) (n * (2 ^ fixP : ℕ) + l).natAbs (-(fixP : ℤ)) true

theorem exLog2_eq (m : ℕ) (e : ℤ) : exLog2 m e =
    if m = 2 ^ (numBits m - 1) then
      (if e + ((numBits m - 1 : ℕ) : ℤ) = 0 then .zero false
       else .num (decide (e + ((numBits m - 1 : ℕ) : ℤ) < 0)) (e + ((numBits m - 1 : ℕ) : ℤ)).natAbs 0 false)
    else fixedSum (e + ((numBits m - 1 : ℕ) : ℤ)) (fixLog m (numBits m - 1)) := rfl

/-- A count under its sign, half a unit further from zero. -/
theorem signed_half (v : ℤ) : (v : ℚ) - 1 / 2 ≤ signed (decide (v < 0)) ((v.natAbs : ℚ) + 1 / 2) ∧ signed (decide (v < 0)) ((v.natAbs : ℚ) + 1 / 2) ≤ v + 1 / 2 := by
  rw [Nat.cast_natAbs, Int.cast_abs]
  by_cases neg : v < 0
  · have : |(v : ℚ)| = -v := abs_of_neg (by exact_mod_cast neg)
    rw [decide_eq_true neg, this, signed, if_pos rfl]
    constructor <;> linarith
  · have : |(v : ℚ)| = v := abs_of_nonneg (by exact_mod_cast not_lt.1 neg)
    rw [decide_eq_false neg, this, signed, if_neg (by decide)]
    constructor <;> linarith

/-- A fraction well between 0 and 1 keeps the sum between two integers. -/
theorem fixedSum_between (n : ℤ) {l : ℕ} (low : 2 ^ 80 ≤ l) (high : l + 2 ^ 80 ≤ 2 ^ fixP) : ∃ z : ℚ, (n : ℚ) < z ∧ z < n + 1 ∧ (fixedSum n l).Denotes false z := by
  have unit := two_zpow_pos (-(fixP : ℤ))
  have scale (x : ℚ) : x = x * (2 ^ fixP : ℕ) * 2 ^ (-(fixP : ℤ)) := by rw [mul_assoc, unit_zpow, mul_one]
  have lowQ : (2 ^ 80 : ℚ) ≤ l := by exact_mod_cast low
  have highQ : (l : ℚ) + 2 ^ 80 ≤ (2 ^ fixP : ℕ) := by exact_mod_cast high
  obtain ⟨v, hv⟩ : ∃ v : ℤ, n * (2 ^ fixP : ℕ) + l = v := ⟨_, rfl⟩
  have value : (v : ℚ) = n * (2 ^ fixP : ℕ) + l := by
    rw [← hv]
    push_cast
    rfl
  obtain ⟨least, most⟩ := signed_half v
  have wide : 2 ^ 72 ≤ v.natAbs := by
    rcases le_or_gt 0 n with nonneg | neg
    · have := mul_nonneg nonneg (Int.natCast_nonneg (2 ^ fixP))
      omega
    · have := mul_le_mul_of_nonneg_right (Int.le_sub_one_of_lt neg) (Int.natCast_nonneg (2 ^ fixP))
      omega
  rw [fixedSum, hv]
  refine ⟨_, ?_, ?_, denotes_half (decide (v < 0)) wide _⟩
  · rw [signed_mul, scale n, mul_lt_mul_iff_of_pos_right unit]
    linarith
  · rw [signed_mul, scale (n + 1), mul_lt_mul_iff_of_pos_right unit]
    linarith

section
variable {m : ℕ} {e n : ℤ} (hm : m ≠ 0)
include hm

/-- The integer below the logarithm is the leading exponent. -/
theorem leading_unique (low : (2 : ℚ) ^ n ≤ m * 2 ^ e) (high : (m : ℚ) * 2 ^ e < 2 ^ (n + 1)) : e + ((numBits m - 1 : ℕ) : ℤ) = n := by
  obtain ⟨least, most⟩ := (stands_exact m e).leading hm
  have below := two_zpow_lt.1 (low.trans_lt most)
  have above := two_zpow_lt.1 (least.trans_lt high)
  have := numBits_pos hm
  omega

/-- The logarithm of a power of two is exact (R165). -/
theorem exLog2_integer (h : (2 : ℚ) ^ n = m * 2 ^ e) : (exLog2 m e).Denotes false (n : ℚ) := by
  have place := leading_unique hm h.le (h ▸ two_zpow_lt.2 (lt_add_one n))
  have power : m = 2 ^ (numBits m - 1) := by
    rw [← place, add_comm, ← natCast_two_pow_mul, mul_left_inj' (two_zpow_pos e).ne'] at h
    exact_mod_cast h.symm
  rw [exLog2_eq, if_pos power, place]
  split_ifs with zero
  · rw [zero, Int.cast_zero]
    exact .zero false
  · have denotes : (Ex.num (decide (n < 0)) n.natAbs 0 false).Denotes false (signed (decide (n < 0)) ((n.natAbs : ℚ) * 2 ^ (0 : ℤ))) :=
      .num (stands_exact _ _) (Int.natAbs_ne_zero.2 zero) (by simp)
    rwa [← number_fin, number_of_int] at denotes

/-- Between two powers of two the logarithm lies between theirs (R165). -/
theorem exLog2_between (small : m < 2 ^ 53) (low : (2 : ℚ) ^ n < m * 2 ^ e) (high : (m : ℚ) * 2 ^ e < 2 ^ (n + 1)) :
    ∃ z : ℚ, (n : ℚ) < z ∧ z < n + 1 ∧ (exLog2 m e).Denotes false z := by
  have place := leading_unique hm low.le high
  have other : m ≠ 2 ^ (numBits m - 1) := by
    intro power
    rw [← place, add_comm, ← natCast_two_pow_mul, ← power] at low
    exact lt_irrefl _ low
  have bits := numBits_le small
  have double : m < 2 * 2 ^ (numBits m - 1) := by
    rw [← pow_succ', Nat.sub_add_cancel (numBits_pos hm)]
    exact lt_two_pow_numBits m
  obtain ⟨least, most⟩ := fixLog_bounds (k := numBits m - 1) (by omega) ((two_pow_numBits_le hm).lt_of_ne' other) double
  rw [exLog2_eq, if_neg other, place]
  exact fixedSum_between n least most

end

end Sys2Proof.Machine
end

section
/-! PROOFS. The vector floating-point operations with one source (R162, R165, R166, Tables 7.4 and 7.5). -/

namespace Sys2Proof.Machine

/-! ### The form of a result -/

/-- Code c is a row with one source whose lane result is op, of Q's format, FPCTL and the lane (R143, R144, R156). -/
def FloatOneSource (c : Code) (op : Fmt → FpEnv → ℕ → FpOut) : Prop :=
  ∀ i f s v outs, Issues i c f → s.ready c f = true → s.view c f = v →
    (outs = v.lanes.map (fun j => (j, op (fmtOf f.q.toNat) v.fpEnv (v.srcLane f.a (fmtOf f.q.toNat).width j)))) →
    FpDoes i c f s v (fmtOf f.q.toNat).width (overlapsIn f.d [f.a]) (outs.map (fun p => (p.1, p.2.fl))) (outs.map (fun p => (p.1, p.2.bits)))

theorem floatOneSource_of_vf1 {c : Code} (j : Fields → Instr) (hj : ∀ f, coreOf c f = some (j f)) (op : Fmt → FpEnv → ℕ → FpOut)
    (he : ∀ f s, exec (j f) s = vf1 c f op s) : FloatOneSource c op :=
  fun _ f s _ _ h hr hv ho => fpDoes_of_fpResult h (hj f) (he f s) hr hv rfl ho

/-! ### NaNs and infinities (Table 7.4) -/

section
variable {t : Fmt} {env : FpEnv} {a : ℕ}

theorem fpRcp_eq {x : Fp} (hx : t.operand env.ftz a = x) : fpRcp t env a = fpRounded t env (exDiv (.fin false 1 0) x) [x] := by
  subst hx
  rfl

section
variable {s : Bool} (hx : t.operand env.ftz a = .nan s)
include hx

theorem fpSqrt_nan : fpSqrt t env a = ⟨t.nan, (Fp.nan s).sigFlag⟩ := by
  unfold fpSqrt
  rw [hx]

theorem fpRcp_nan : fpRcp t env a = ⟨t.nan, (Fp.nan s).sigFlag⟩ := by
  rw [fpRcp_eq hx]
  simp [exDiv, fpRounded, Fmt.round, Fmt.deliver, FpOut.plus]

theorem fpRsq_nan : fpRsq t env a = ⟨t.nan, (Fp.nan s).sigFlag⟩ := by
  unfold fpRsq
  rw [hx]

theorem fpExp2_nan : fpExp2 t env a = ⟨t.nan, (Fp.nan s).sigFlag⟩ := by
  unfold fpExp2
  rw [hx]

theorem fpLog2_nan : fpLog2 t env a = ⟨t.nan, (Fp.nan s).sigFlag⟩ := by
  unfold fpLog2
  rw [hx]

theorem fpIntegral_nan (rm : ℕ) (exact : Bool) : fpIntegral t env rm exact a = ⟨t.nan, (Fp.nan s).sigFlag⟩ := by
  unfold fpIntegral
  rw [hx]

theorem fpAbs_nan : fpAbs t env a = ⟨t.nan, (Fp.nan s).sigFlag⟩ := by
  unfold fpAbs fpSetSign
  rw [hx]
  rfl

end

section
variable {p : Bool} (hx : t.operand env.ftz a = .inf p)
include hx

theorem fpSqrt_inf : fpSqrt t env a = if p then ⟨t.nan, 16⟩ else ⟨t.infinity false, 0⟩ := by
  unfold fpSqrt
  rw [hx]
  rfl

theorem fpRcp_inf : fpRcp t env a = ⟨t.sgn p, 0⟩ := by
  rw [fpRcp_eq hx]
  cases p <;> exact fpRounded_quiet t env _ (by simp [Fp.sigFlag])

theorem fpRsq_inf : fpRsq t env a = if p then ⟨t.nan, 16⟩ else ⟨t.sgn false, 0⟩ := by
  unfold fpRsq
  rw [hx]
  rfl

theorem fpExp2_inf : fpExp2 t env a = ⟨if p then t.sgn false else t.infinity false, 0⟩ := by
  unfold fpExp2
  rw [hx]
  cases p <;> rfl

theorem fpLog2_inf : fpLog2 t env a = if p then ⟨t.nan, 16⟩ else ⟨t.infinity false, 0⟩ := by
  unfold fpLog2
  rw [hx]
  rfl

theorem fpIntegral_inf (rm : ℕ) (exact : Bool) : fpIntegral t env rm exact a = ⟨t.infinity p, 0⟩ := by
  unfold fpIntegral
  rw [hx]

end

/-! ### Numbers (R165, Table 7.4) -/

section
variable {p : Bool} {m : ℕ} {e : ℤ} (hx : t.operand env.ftz a = .fin p m e)
include hx

theorem fpSqrt_fin : fpSqrt t env a = if m = 0 then ⟨t.sgn p, 0⟩ else if p then ⟨t.nan, 16⟩ else t.round env (exRoot m e) := by
  unfold fpSqrt
  rw [hx]
  rfl

theorem fpRsq_fin : fpRsq t env a = if m = 0 then ⟨t.infinity p, 8⟩ else if p then ⟨t.nan, 16⟩ else t.round env (exRecipRoot m e) := by
  unfold fpRsq
  rw [hx]
  rfl

theorem fpLog2_fin : fpLog2 t env a = if m = 0 then ⟨t.infinity true, 8⟩ else if p then ⟨t.nan, 16⟩ else t.round env (exLog2 m e) := by
  unfold fpLog2
  rw [hx]
  rfl

theorem fpExp2_fin : fpExp2 t env a = t.round env (if m = 0 then .num false 1 0 false else exExp2 p m e) := by
  unfold fpExp2
  rw [hx]

theorem fpRcp_zero (inf : t.inf = true) (hm : m = 0) : fpRcp t env a = ⟨t.infinity p, 8⟩ := by
  subst hm
  rw [fpRcp_eq hx, exDiv, if_neg (by decide), if_pos rfl, fpRounded, Fmt.round_inf inf]
  cases p <;> simp [FpOut.plus, Fp.sigFlag, flDZ]

theorem fpRcp_fin (hm : m ≠ 0) : fpRcp t env a = t.round env (exDiv (.fin false 1 0) (.fin p m e)).1 := by
  rw [fpRcp_eq hx, ← fpRounded_quiet t env _ (show ∀ z ∈ [Fp.fin p m e], z.sigFlag = 0 by simp [Fp.sigFlag]), ← exDiv_fin_flags false p 1 0 e hm]

/-- The reciprocal (R165). -/
theorem fpRcp_rounded (ht : t.Regular) (hrm : env.rm < 4) (hm : m ≠ 0) : t.Rounded env (1 / (Fp.fin p m e).number) (fpRcp t env a) := by
  have denotes := exDiv_denotes false p 1 0 e hm (operand_lt_two_pow_80 ht hx)
  have one : (Fp.fin false 1 0).number = 1 := by simp [number_fin, signed]
  rw [one] at denotes
  rw [fpRcp_fin hx hm]
  exact denotes.round_rounded (one_div_ne_zero (number_eq_zero.not.2 hm)) ht env hrm

end

end

/-! ### Signs -/

theorem number_unsigned (m : ℕ) (e : ℤ) : (Fp.fin false m e).number = m * 2 ^ e := by
  rw [number_fin]
  rfl

/-- The sign of a number is that of its pattern. -/
theorem sign_of_number {p : Bool} {m : ℕ} {e : ℤ} : ((Fp.fin p m e).number < 0 → m ≠ 0 ∧ p = true) ∧ (0 < (Fp.fin p m e).number → m ≠ 0 ∧ p = false) := by
  have nonneg : (0 : ℚ) ≤ m * 2 ^ e := (stands_exact m e).nonneg
  refine ⟨fun neg => ⟨number_eq_zero.not.1 neg.ne, ?_⟩, fun pos => ⟨number_eq_zero.not.1 pos.ne', ?_⟩⟩
  · rw [number_fin] at neg
    cases p
    · exact absurd neg (not_lt.2 nonneg)
    · rfl
  · rw [number_fin] at pos
    cases p
    · rfl
    · exact absurd pos (not_lt.2 (neg_nonpos.2 nonneg))

/-! ### Powers and logarithms of two (R165) -/

/-- The significand of an operand has at most the bits of FP64's. -/
theorem Fmt.Regular.operand_small {t : Fmt} (ht : t.Regular) {ftz p : Bool} {v m : ℕ} {e : ℤ} (h : t.operand ftz v = .fin p m e) : m < 2 ^ 53 :=
  (operand_lt h).trans_le (Nat.pow_le_pow_right two_pos (Nat.succ_le_succ ht.narrow))

/-- Above zero VFLOG2 delivers the logarithm. -/
theorem fpLog2_pos {t : Fmt} {env : FpEnv} {a : ℕ} {p : Bool} {m : ℕ} {e : ℤ} (hx : t.operand env.ftz a = .fin p m e) (pos : 0 < (Fp.fin p m e).number) :
    m ≠ 0 ∧ p = false ∧ fpLog2 t env a = t.round env (exLog2 m e) := by
  obtain ⟨nonzero, rfl⟩ := sign_of_number.2 pos
  exact ⟨nonzero, rfl, by rw [fpLog2_fin hx, if_neg nonzero, if_neg (by decide)]⟩

section
variable {t : Fmt} (ht : t.Regular) {env : FpEnv} (hrm : env.rm < 4) {a : ℕ} {p : Bool} {m : ℕ} {e : ℤ} (hx : t.operand env.ftz a = .fin p m e) {n : ℤ}
include ht hrm hx

theorem fpExp2_integer (h : (n : ℚ) = (Fp.fin p m e).number) : t.Rounded env (twoTo n) (fpExp2 t env a) := by
  rw [fpExp2_fin hx, twoTo_eq]
  split_ifs with zero
  · have : n = 0 := by exact_mod_cast h.trans (number_eq_zero.2 zero)
    rw [this, zpow_zero]
    have denotes := Fp.exact_denotes false 1 0
    rw [number_unsigned, Nat.cast_one, zpow_zero, one_mul] at denotes
    exact denotes.round_rounded one_ne_zero ht env hrm
  · exact (exExp2_integer zero (ht.operand_small hx) h).round_rounded (two_zpow_pos n).ne' ht env hrm

theorem fpExp2_between (low : (n : ℚ) < (Fp.fin p m e).number) (high : (Fp.fin p m e).number < n + 1) :
    ∃ z : ℚ, twoTo n < z ∧ z < twoTo (n + 1) ∧ t.Rounded env z (fpExp2 t env a) := by
  have nonzero : m ≠ 0 := by
    intro zero
    rw [number_eq_zero.2 zero] at low high
    have : n < 0 := by exact_mod_cast low
    have : 0 < n + 1 := by exact_mod_cast high
    omega
  obtain ⟨z, above, below, denotes⟩ := exExp2_between nonzero (ht.operand_small hx) low high
  rw [fpExp2_fin hx, if_neg nonzero, twoTo_eq, twoTo_eq]
  exact ⟨z, above, below, denotes.round_rounded ((two_zpow_pos n).trans above).ne' ht env hrm⟩

theorem fpLog2_integer (h : twoTo n = (Fp.fin p m e).number) :
    (n = 0 → fpLog2 t env a = ⟨t.sgn false, 0⟩) ∧ (n ≠ 0 → t.Rounded env (n : ℚ) (fpLog2 t env a)) := by
  rw [twoTo_eq] at h
  obtain ⟨nonzero, rfl, log⟩ := fpLog2_pos hx (h ▸ two_zpow_pos n)
  have cases := (exLog2_integer nonzero (h.trans (number_unsigned m e))).round_cases ht env hrm
  rw [log]
  exact ⟨fun zero => cases.2 (by exact_mod_cast zero), fun other => cases.1 (by exact_mod_cast other)⟩

theorem fpLog2_between (low : twoTo n < (Fp.fin p m e).number) (high : (Fp.fin p m e).number < twoTo (n + 1)) :
    ∃ z : ℚ, (n : ℚ) < z ∧ z < n + 1 ∧ t.Rounded env z (fpLog2 t env a) := by
  rw [twoTo_eq] at low high
  obtain ⟨nonzero, rfl, log⟩ := fpLog2_pos hx ((two_zpow_pos n).trans low)
  rw [number_unsigned] at low high
  obtain ⟨z, above, below, denotes⟩ := exLog2_between nonzero (ht.operand_small hx) low high
  have other : z ≠ 0 := by
    rintro rfl
    have : n < 0 := by exact_mod_cast above
    have : 0 < n + 1 := by exact_mod_cast below
    omega
  rw [log]
  exact ⟨z, above, below, denotes.round_rounded other ht env hrm⟩

/-- Above zero the square root and its reciprocal are rounded once. -/
theorem roots_rounded (pos : 0 < (Fp.fin p m e).number) :
    t.RootRounded env (Fp.fin p m e).number (fpSqrt t env a) ∧ t.RootRounded env (1 / (Fp.fin p m e).number) (fpRsq t env a) := by
  obtain ⟨nonzero, rfl⟩ := sign_of_number.2 pos
  rw [fpSqrt_fin hx, fpRsq_fin hx, if_neg nonzero, if_neg nonzero, if_neg (by decide), if_neg (by decide), number_unsigned]
  exact ⟨exRoot_rounded e nonzero (ht.operand_small hx) ht hrm, exRecipRoot_rounded e nonzero (ht.operand_small hx) ht hrm⟩

end

/-! ### Integral values (Table 7.4) -/

/-- In the formats of the vector class every integer that rounding can give is finite. -/
theorem two_pow_fw_le_largest {t : Fmt} (h : t ∈ [Fmt.f64, Fmt.f32, Fmt.f16, Fmt.bf16]) : ((2 ^ t.fw : ℕ) : ℚ) ≤ t.largest := by
  obtain ⟨ht, inf⟩ := vectorFormat_regular_inf h
  have wide : t.fw ≤ t.bias := by
    simp only [List.mem_cons, List.not_mem_nil, or_false] at h
    rcases h with rfl | rfl | rfl | rfl <;> decide
  have top : t.low + t.maxUnit = t.bias - t.fw := by
    have := ht.bias_pos
    rw [Fmt.low, Fmt.maxUnit, if_pos inf, Fmt.emin]
    omega
  rw [ht.largest_eq, top]
  calc ((2 ^ t.fw : ℕ) : ℚ)
    _ ≤ t.maxSig := by exact_mod_cast ht.maxSig_bounds.1
    _ ≤ t.maxSig * 2 ^ ((t.bias : ℤ) - t.fw) := le_mul_of_one_le_right (Nat.cast_nonneg _) (one_le_zpow₀ one_le_two (by omega))

/-- A count of a unit that is an integer is an integer. -/
theorem whole_of_nonneg (m : ℕ) {e : ℤ} (h : 0 ≤ e) : (m : ℚ) * 2 ^ e = ⌊(m : ℚ) * 2 ^ e⌋₊ := by
  have count : (m : ℚ) * 2 ^ e = ((m * 2 ^ e.toNat : ℕ) : ℚ) := by
    rw [← Int.toNat_of_nonneg h, zpow_natCast]
    push_cast
    rfl
  rw [count, Nat.floor_natCast]

section
variable {t : Fmt} (mem : t ∈ [Fmt.f64, Fmt.f32, Fmt.f16, Fmt.bf16]) {env : FpEnv} {a : ℕ} {p : Bool} {m : ℕ} {e : ℤ} (hx : t.operand env.ftz a = .fin p m e)
include hx

theorem fpIntegral_fin (rm : ℕ) (exact : Bool) : fpIntegral t env rm exact a =
    ⟨t.asIs (if 0 ≤ e then .fin p m e else .fin p (roundAt rm p m e false 0).1 0), if exact && decide (e < 0) && (roundAt rm p m e false 0).2 then flNX else 0⟩ := by
  unfold fpIntegral
  rw [hx]

include mem

/-- The operand rounded to an integer in the mode, with NX where that differs and is asked for (R165, Table 7.4). -/
theorem fpIntegral_rounded (rm : ℕ) (exact : Bool) : ∃ k : ℤ, RoundsTo rm (Fp.fin p m e).number k ∧ t.Holds (fpIntegral t env rm exact a).bits p k ∧
    (fpIntegral t env rm exact a).fl = if exact = true ∧ (k : ℚ) ≠ (Fp.fin p m e).number then 1 else 0 := by
  obtain ⟨ht, -⟩ := vectorFormat_regular_inf mem
  have number := ht.operand_hasNumber hx
  have nonneg : (0 : ℚ) ≤ m * 2 ^ e := (stands_exact m e).nonneg
  have unit := roundAt_eq (q := 0) rm p (stands_exact m e) (by simp)
  rw [zpow_zero, div_one] at unit
  obtain ⟨k, hk⟩ : ∃ k, roundNat rm p ((m : ℚ) * 2 ^ e) = k := ⟨_, rfl⟩
  have whole : (k : ℚ) = m * 2 ^ e ↔ (m : ℚ) * 2 ^ e = ⌊(m : ℚ) * 2 ^ e⌋₊ := hk ▸ roundNat_eq_self_iff
  have same : ((signed p (k : ℤ) : ℤ) : ℚ) = (Fp.fin p m e).number ↔ (k : ℚ) = m * 2 ^ e := by rw [number_fin, signed_cast, signed_inj, Int.cast_natCast]
  rw [fpIntegral_fin hx, unit, hk]
  refine ⟨signed p (k : ℤ), ?_, ?_, ?_⟩
  · rw [number_fin, ← hk]
    exact roundsTo_roundNat rm p nonneg
  · by_cases integral : 0 ≤ e
    · rw [if_pos integral, same.2 (whole.2 (whole_of_nonneg m integral))]
      exact ht.asIs_holds p number
    · rw [if_neg integral]
      have below : k ≤ 2 ^ t.fw := by
        refine hk ▸ roundNat_le nonneg ?_
        calc (m : ℚ) * 2 ^ e
          _ ≤ (2 ^ (t.fw + 1) : ℕ) * 2 ^ (-1 : ℤ) :=
            mul_le_mul (by exact_mod_cast number.width.le) (two_zpow_le.2 (by omega)) (two_zpow_pos e).le (Nat.cast_nonneg _)
          _ = (2 ^ t.fw : ℕ) := by
            rw [pow_succ, Nat.cast_mul, Nat.cast_ofNat, zpow_neg_one, mul_inv_cancel_right₀ two_ne_zero]
      have holds := ht.asIs_holds p (m := k) (e := 0) ⟨below.trans_lt (Nat.pow_lt_pow_right one_lt_two (Nat.lt_succ_self _)), ht.low_le_zero, by
        rw [zpow_zero, mul_one]
        exact le_trans (by exact_mod_cast below) (two_pow_fw_le_largest mem)⟩
      rwa [number_fin, zpow_zero, mul_one, ← Int.cast_natCast, ← signed_cast] at holds
  · refine if_congr (Iff.trans ?_ (and_congr Iff.rfl (same.trans whole).not.symm)) rfl rfl
    by_cases integral : 0 ≤ e
    · simp [← whole_of_nonneg m integral, not_lt.2 integral]
    · simp [not_le.1 integral]

end

/-! ### VFCLASS (R166, Table 7.5) -/

section
variable {t : Fmt} {env : FpEnv} {a : ℕ}

theorem fpClass_fl : (fpClass t env a).fl = 0 := rfl

theorem fpClass_nan {s : Bool} (hx : t.operand env.ftz a = .nan s) : (fpClass t env a).bits = 2 ^ (if s then 8 else 9) := by
  unfold fpClass
  rw [hx]

theorem fpClass_inf {p : Bool} (hx : t.operand env.ftz a = .inf p) : (fpClass t env a).bits = 2 ^ (if p then 0 else 7) := by
  unfold fpClass
  rw [hx]

section
variable {p : Bool} {m : ℕ} {e : ℤ} (hx : t.operand env.ftz a = .fin p m e)
include hx

theorem fpClass_fin : (fpClass t env a).bits =
    2 ^ (if m = 0 then (if p then 3 else 4) else if t.subnormal a then (if p then 2 else 5) else (if p then 1 else 6)) := by
  unfold fpClass
  rw [hx]

/-- A subnormal pattern has a significand below the normal ones, in the subnormal unit; another has a normal one. -/
theorem subnormal_cases (hm : m ≠ 0) : (t.subnormal a = true ∧ m < 2 ^ t.fw ∧ e = t.low) ∨ (t.subnormal a = false ∧ 2 ^ t.fw ≤ m ∧ t.low ≤ e) := by
  have fraction := Nat.mod_lt a (Nat.two_pow_pos t.fw)
  unfold Fmt.operand Fmt.value at hx
  simp only at hx
  split_ifs at hx with flushed _ _ _ exponent <;> injection hx with _ sig exp
  · exact absurd sig.symm hm
  · subst sig exp
    exact .inl ⟨by simp [Fmt.subnormal, exponent, hm], fraction, rfl⟩
  · subst sig exp
    refine .inr ⟨by simp [Fmt.subnormal, exponent], Nat.le_add_right _ _, ?_⟩
    unfold Fmt.low Fmt.emin
    omega

/-- The subnormal patterns are those of the numbers below the smallest normal one. -/
theorem subnormal_iff_lt (hm : m ≠ 0) : t.subnormal a = true ↔ magnitude (Fp.fin p m e).number < twoTo t.emin := by
  have unit : (2 : ℚ) ^ t.emin = (2 ^ t.fw : ℕ) * 2 ^ t.low := by rw [natCast_two_pow_mul, Fmt.low, add_sub_cancel]
  rw [magnitude_fin, twoTo_eq, unit]
  obtain ⟨sub, below, rfl⟩ | ⟨normal, above, low⟩ := subnormal_cases hx hm
  · exact iff_of_true sub (mul_lt_mul_of_pos_right (by exact_mod_cast below) (two_zpow_pos _))
  · refine iff_of_false (by simp [normal]) (not_lt.2 ?_)
    exact mul_le_mul (by exact_mod_cast above) (two_zpow_le.2 low) (two_zpow_pos _).le (Nat.cast_nonneg _)

end

end

/-- Settles O27: the rows by their one form; the lanes by what the operand is, a NaN, an infinity or a number, whose root, reciprocal, power, logarithm, integral value and class are each stated once. -/
theorem vectorFloatOneSourceResults : Obligations.VectorFloatOneSourceResults := by
  unfold Obligations.VectorFloatOneSourceResults
  refine ⟨?table, fun t mem env a x hrm hx => ?_⟩
  case table =>
    change ∀ r ∈ (_ : List (Nat × (Fmt → FpEnv → Nat → FpOut))), FloatOneSource r.1 r.2
    simp only [List.forall_mem_cons]
    exact ⟨floatOneSource_of_vf1 .vfabs (fun _ => rfl) _ (fun _ _ => rfl),
      floatOneSource_of_vf1 .vfsqrt (fun _ => rfl) _ (fun _ _ => rfl),
      floatOneSource_of_vf1 .vfrcp (fun _ => rfl) _ (fun _ _ => rfl),
      floatOneSource_of_vf1 .vfrsq (fun _ => rfl) _ (fun _ _ => rfl),
      floatOneSource_of_vf1 .vfexp2 (fun _ => rfl) _ (fun _ _ => rfl),
      floatOneSource_of_vf1 .vflog2 (fun _ => rfl) _ (fun _ _ => rfl),
      floatOneSource_of_vf1 .vffloor (fun _ => rfl) _ (fun _ _ => rfl),
      floatOneSource_of_vf1 .vfceil (fun _ => rfl) _ (fun _ _ => rfl),
      floatOneSource_of_vf1 .vftrunc (fun _ => rfl) _ (fun _ _ => rfl),
      floatOneSource_of_vf1 .vfrint (fun _ => rfl) _ (fun _ _ => rfl),
      floatOneSource_of_vf1 .vfclass (fun _ => rfl) _ (fun _ _ => rfl), List.forall_mem_nil _⟩
  obtain ⟨ht, inf⟩ := vectorFormat_regular_inf mem
  refine ⟨fun nan => ?_, fun nan o ho => ?_, ?_, ?_, fpClass_fl, ?_, ?_, ?_, ?_⟩
  · obtain ⟨s, rfl⟩ := Fp.isNan_iff.1 nan
    simp only [List.forall_mem_cons]
    exact ⟨fpAbs_nan hx, fpSqrt_nan hx, fpRcp_nan hx, fpRsq_nan hx, fpExp2_nan hx, fpLog2_nan hx, fpIntegral_nan hx _ _, fpIntegral_nan hx _ _,
      fpIntegral_nan hx _ _, fpIntegral_nan hx _ _, List.forall_mem_nil _⟩
  · obtain ⟨shows, flags⟩ := fpSetSign_shows ht inf hx false ho
    exact ⟨shows, flags.trans (Fp.sigFlag_of_not_nan nan)⟩
  · rintro p rfl
    refine ⟨fpRcp_inf hx, fpExp2_inf hx, ?_, ?_, fpIntegral_inf hx⟩
    · rintro rfl
      exact ⟨fpSqrt_inf hx, fpRsq_inf hx, fpLog2_inf hx⟩
    · rintro rfl
      simp only [List.forall_mem_cons]
      exact ⟨fpSqrt_inf hx, fpRsq_inf hx, fpLog2_inf hx, List.forall_mem_nil _⟩
  · rintro p m e _ rfl rfl
    refine ⟨fun zero => ?_, fun neg => ?_, roots_rounded ht hrm hx, fun nonzero => fpRcp_rounded hx ht hrm (number_eq_zero.not.1 nonzero),
      fun n => ⟨fpExp2_integer ht hrm hx, fpExp2_between ht hrm hx, fun h => (fpLog2_integer ht hrm hx h).1, fun h => (fpLog2_integer ht hrm hx h).2,
        fpLog2_between ht hrm hx⟩, fun r _ => fpIntegral_rounded mem hx r.1 r.2⟩
    · have hm := number_eq_zero.1 zero
      exact ⟨(fpSqrt_fin hx).trans (if_pos hm), fpRcp_zero hx inf hm, (fpRsq_fin hx).trans (if_pos hm), (fpLog2_fin hx).trans (if_pos hm)⟩
    · obtain ⟨nonzero, rfl⟩ := sign_of_number.1 neg
      simp only [List.forall_mem_cons]
      refine ⟨?_, ?_, ?_, List.forall_mem_nil _⟩
      · rw [fpSqrt_fin hx, if_neg nonzero, if_pos rfl]
      · rw [fpRsq_fin hx, if_neg nonzero, if_pos rfl]
      · rw [fpLog2_fin hx, if_neg nonzero, if_pos rfl]
  · rintro rfl
    exact fpClass_nan hx
  · rintro rfl
    exact fpClass_nan hx
  · rintro p rfl
    exact fpClass_inf hx
  · rintro p m e _ rfl rfl
    rw [fpClass_fin hx]
    refine ⟨fun zero => ?_, fun nonzero small => ?_, fun large => ?_⟩
    · rw [if_pos (number_eq_zero.1 zero)]
    · have hm := number_eq_zero.not.1 nonzero
      rw [if_neg hm, if_pos ((subnormal_iff_lt hx hm).2 small)]
    · have hm : m ≠ 0 := by
        rintro rfl
        rw [magnitude_fin, Nat.cast_zero, zero_mul, twoTo_eq] at large
        exact absurd large (not_le.2 (two_zpow_pos _))
      rw [if_neg hm, if_neg ((subnormal_iff_lt hx hm).not.2 (not_lt.2 large))]

end Sys2Proof.Machine
end

section
/-! SUPPORT. The stores of the matrix array (R171): what a pass changes in them, and what the issue of an instruction leaves of them and of the registers held per core (R91, R128, R174). -/

namespace Sys2Proof.Machine

/-! ### Accumulators and MSTAT -/

/-- Every cell of the accumulators has a key of its own. -/
theorem accKey_eq_iff {i j r t k m : Nat} (hr : r < 128) (ht : t < 128) (hk : k < 128) (hm : m < 128) :
    accKey i r k = accKey j t m ↔ (i, r) = (j, t) ∧ k = m := by
  simp only [accKey, Prod.mk.injEq]
  omega

@[simp] theorem Core.accCell_setAcc_same (c : Core) (i r k : Nat) (v : W32) : (c.setAcc i r k v).accCell i r k = v :=
  Tab.get_put0_same _ _ _ _

theorem Core.accCell_setAcc_other (c : Core) (v : W32) {i r k j t m : Nat} (h : accKey j t m ≠ accKey i r k) :
    (c.setAcc i r k v).accCell j t m = c.accCell j t m :=
  Tab.get_put0_other _ _ _ _ _ _ h

@[simp] theorem Core.addMstat_mx (c : Core) (bits : Nat) : (c.addMstat bits).mx = c.mx := by
  unfold Core.addMstat
  split <;> rfl

@[simp] theorem Core.accCell_addMstat (c : Core) (bits i r k : Nat) : (c.addMstat bits).accCell i r k = c.accCell i r k := by
  simp only [Core.accCell, Core.addMstat_mx]

/-- MSTAT keeps the bits that it has. -/
theorem Core.addMstat_keeps (c : Core) (bits : Nat) : (c.addMstat bits).sysreg 0x080 &&& c.sysreg 0x080 = c.sysreg 0x080 := by
  unfold Core.addMstat
  split
  · exact BitVec.and_self
  · rw [Core.sysreg_setSys_same]
    ext i hi
    simp +contextual

/-! ### A row of an accumulator -/

/-- The first cols columns of a row of an accumulator take new values, and MSTAT the bits that come with them. -/
def Core.putRow (c : Core) (acc row : Nat) (out : Nat → Nat × Nat) (cols : Nat) : Core :=
  (List.range cols).foldl (fun k n => (k.setAcc acc row n (BitVec.ofNat 32 (out n).1)).addMstat (out n).2) c

section
variable (c : Core) (acc row : Nat) (out : Nat → Nat × Nat)

theorem Core.putRow_succ (cols : Nat) : c.putRow acc row out (cols + 1) =
    ((c.putRow acc row out cols).setAcc acc row cols (BitVec.ofNat 32 (out cols).1)).addMstat (out cols).2 := by
  simp only [Core.putRow, List.range_succ, List.foldl_append, List.foldl_cons, List.foldl_nil]

theorem Core.accCell_putRow_other {i r k cols : Nat} (h : ∀ n, n < cols → accKey i r k ≠ accKey acc row n) :
    (c.putRow acc row out cols).accCell i r k = c.accCell i r k := by
  induction cols with
  | zero => rfl
  | succ cols ih =>
    rw [Core.putRow_succ, Core.accCell_addMstat, Core.accCell_setAcc_other _ _ (h cols (Nat.lt_succ_self cols))]
    exact ih (fun n hn => h n (Nat.lt_succ_of_lt hn))

theorem Core.accCell_putRow {n cols : Nat} (h : n < cols) : (c.putRow acc row out cols).accCell acc row n = BitVec.ofNat 32 (out n).1 := by
  induction cols with
  | zero => exact absurd h (Nat.not_lt_zero n)
  | succ cols ih =>
    rw [Core.putRow_succ, Core.accCell_addMstat]
    rcases Nat.lt_succ_iff_lt_or_eq.1 h with hn | rfl
    · rw [Core.accCell_setAcc_other _ _ (by simp only [accKey]; omega), ih hn]
    · exact Core.accCell_setAcc_same _ _ _ _ _

theorem Core.putRow_mstat (cols : Nat) : (c.putRow acc row out cols).sysreg 0x080 &&& c.sysreg 0x080 = c.sysreg 0x080 := by
  induction cols with
  | zero => exact BitVec.and_self
  | succ cols ih =>
    rw [Core.putRow_succ]
    have step := Core.addMstat_keeps ((c.putRow acc row out cols).setAcc acc row cols (BitVec.ofNat 32 (out cols).1)) (out cols).2
    rw [show Core.sysreg (Core.setAcc _ _ _ _ _) 0x080 = (c.putRow acc row out cols).sysreg 0x080 from rfl] at step
    rw [← ih, ← BitVec.and_assoc, step]

end

/-- A dense pass that does not clear its row promotes one slot into each column (R174, R180). -/
theorem Core.pass_dense (c : Core) (m : ElemMode) (slot acc row klen cols : Nat) : c.pass m false false slot acc row klen cols =
    c.putRow acc row (fun n => promote m (c.densePairs (bitNat c.mx.active) slot klen n) (Tab.get c.mx.scales slot 0).toNat
      (Tab.get c.mx.tile (bitNat c.mx.active) 0).toNat (c.accCell acc row n).toNat) cols := by
  simp only [Core.pass, Core.putRow, passParts, Bool.false_eq_true, if_false, List.foldl_cons, List.foldl_nil, Nat.zero_or]

/-- A pass leaves the row buffer. -/
theorem Core.pass_elems (c : Core) (m : ElemMode) (sparse clr : Bool) (slot acc row klen cols : Nat) :
    (c.pass m sparse clr slot acc row klen cols).mx.elems = c.mx.elems := by
  refine List.foldlRecOn (motive := fun k : Core => k.mx.elems = c.mx.elems) _ _ rfl (fun k hk n _ => ?_)
  rw [Core.addMstat_mx]
  exact hk

/-! ### What issue leaves of a core (R91, R128) -/

theorem State.effRc_lt (s : State) (n : Nat) (rc : BitVec 3) : s.effRc n rc < 8 :=
  max_lt rc.isLt (Nat.mod_lt _ (by decide))

/-- From c to d the stores of the array are as they were, and the registers held per core but for RSTEP. -/
structure Core.KeepsArray (c d : Core) : Prop where
  mx  : d.mx = c.mx
  sys : ∀ k, k < 0x048 ∨ 0x050 ≤ k → d.sysreg k = c.sysreg k

theorem Core.KeepsArray.trans {c d e : Core} (h : c.KeepsArray d) (g : d.KeepsArray e) : c.KeepsArray e :=
  ⟨g.mx.trans h.mx, fun k hk => (g.sys k hk).trans (h.sys k hk)⟩

theorem Core.KeepsArray.of_tokens {c d : Core} (h : c.onlyTokens d) : c.KeepsArray d := by
  rw [h]
  exact ⟨rfl, fun _ _ => rfl⟩

theorem Core.KeepsArray.setSeq (c : Core) (q : SeqId) (v : Seq) : c.KeepsArray (c.setSeq q v) := ⟨rfl, fun _ _ => rfl⟩

theorem Core.KeepsArray.addSteps (c : Core) {rc : Nat} (steps : Nat) (h : rc < 8) : c.KeepsArray (c.addSteps rc steps) where
  mx := by obtain ⟨r, hr⟩ := c.addSteps_frame rc steps; rw [hr]
  sys k hk := Core.sysreg_addSteps_other _ _ _ (by omega)

section
variable {c : Core} {u : State} {n : Nat} (h : c.KeepsArray (u.core n))
include h

theorem Core.KeepsArray.modCore {g : Core → Core} (hg : ∀ k : Core, k.KeepsArray (g k)) : c.KeepsArray ((u.modCore n g).core n) := by
  rw [State.core_modCore_same]
  exact h.trans (hg _)

theorem Core.KeepsArray.modSeq (q : SeqId) (g : Seq → Seq) : c.KeepsArray ((u.modSeq n q g).core n) := by
  rw [State.core_modSeq_same]
  exact h.trans (.setSeq _ _ _)

theorem Core.KeepsArray.withTag (tag : Nat) : c.KeepsArray (({ u with nextTag := tag } : State).core n) := h

end

theorem State.commit_cur (s : State) (c : Code) (f : Fields) {d : Done} (hs : d.stores = []) : (s.commit c f d).cur = d.st.cur := by
  simp only [State.commit, hs, State.issueStores, List.isEmpty_nil, if_true]
  split
  · rfl
  · split <;> rfl

/-- An instruction with no result for the matrix file and no store leaves, as it issues, what its own effect made of the array. -/
theorem State.commit_keepsArray (s : State) (c : Code) (f : Fields) {d : Done} (hc : d.st.cur = s.cur) (hl : d.lands = []) (hs : d.stores = []) :
    d.st.myCore.KeepsArray (s.commit c f d).myCore := by
  have node : d.st.node = s.node := congrArg Prod.fst hc
  have cur : (s.commit c f d).node = s.node := congrArg Prod.fst ((s.commit_cur c f hs).trans hc)
  have steps (k : Core) : k.KeepsArray (k.addSteps (s.effRc s.node f.rc) (stepsOf c f)) := .addSteps k _ (s.effRc_lt _ _)
  have pops (k : Core) : k.KeepsArray (k.popAll s.me f.pop) := .of_tokens (k.popAll_only _ _)
  have reserves (k : Core) : k.KeepsArray (k.reserve s.me (pushList f.push ++ d.extra)) := .of_tokens (k.reserve_only _ _)
  have places (k : Core) : k.KeepsArray (k.place s.me (pushList f.push ++ d.extra)) := .of_tokens (k.place_only _ _)
  have start : (d.st.core s.node).KeepsArray (d.st.core s.node) := ⟨rfl, fun _ _ => rfl⟩
  rw [State.myCore, State.myCore, cur, node]
  simp only [State.commit, hl, hs, State.issueStores, List.isEmpty_nil, if_true, List.foldl_nil]
  split
  · exact (start.modSeq _ _).modCore (fun k => (pops k).trans ((steps _).trans (reserves _)))
  · split
    · exact (((start.modSeq _ _).modCore (fun k => (pops k).trans (reserves _))).modSeq _ _).withTag _
    · exact ((start.modSeq _ _).modCore (fun k => (pops k).trans (steps _))).modCore (fun k => (reserves k).trans (places _))

theorem State.view_cur (s : State) (c : Code) (f : Fields) : (s.view c f).cur = s.cur := by
  rw [State.view, State.interlock_eq]
  split <;> rfl

end Sys2Proof.Machine
end

section
/-! PROOFS. The matrix array driven by instructions (R172, R174, R175, R178, R180 to R186, R192). -/

namespace Sys2Proof.Machine

/-! ### MMA (R174, R180) -/

theorem Core.arrayBusy_iff (c : Core) : c.arrayBusy = true ↔ ∃ m, c.arrayAt = some m ∧ reached c.cycle m = false := by
  unfold Core.arrayBusy
  cases c.arrayAt <;> simp

section
variable {f : Fields} {s v : State} (hr : s.ready 0x630 f = true) (hv : s.view 0x630 f = v)
include hr hv

/-- An MMA to which the array is free makes its pass. -/
theorem mma_passes (hheld : v.myCore.arrayHeld = false) (hbusy : v.myCore.arrayBusy = false) :
    exec (.mma f) s = .next (s.commit 0x630 f { st := v.modMyCore (fun c =>
      (c.pass (elemMode (f.x.toNat / 16384 % 4)) (f.x.getLsbD 16) false (f.x.toNat % 64) (f.x.toNat / 8192 % 2) (f.x.toNat / 64 % 128)
        v.mySeq.klen v.mySeq.cols).takeArray (f.x.toNat / 16384 % 4) (stretch (v.effRc v.node f.rc))) }) := by
  refine issued_ready hr ?_ (State.crowded_quiet rfl)
  simp [hv, hheld, hbusy, done]

/-- An MMA stalls while a nest or a reel holds the array, or a pass occupies it (R172, R185, R186). -/
theorem mma_stalls (h : v.myCore.arrayHeld = true ∨ v.myCore.arrayBusy = true) : exec (.mma f) s = .next v.endWait := by
  refine (issued_eq hr).trans ?_
  simp [hv, h, State.settleEff]

end

/-- Settles O32: the pass of a dense MMA writes the columns of its row one by one, and issue leaves the array as the pass made it. -/
theorem mmaPromotesOneRow : Obligations.MmaPromotesOneRow := by
  unfold Obligations.MmaPromotesOneRow
  intro f s v slot row acc hr hv hheld hbusy dense hslot hrow hacc hcols
  have cur : v.cur = s.cur := hv ▸ s.view_cur 0x630 f
  refine ⟨_, mma_passes hr hv hheld hbusy, ?_⟩
  rw [dense, ← hslot, ← hrow, ← hacc]
  set passed := v.myCore.pass (elemMode (f.x.toNat / 16384 % 4)) false false slot acc row v.mySeq.klen v.mySeq.cols with hpassed
  rw [Core.pass_dense] at hpassed
  obtain ⟨mx, sys⟩ := s.commit_keepsArray 0x630 f (d := { st := v.modMyCore (fun c =>
      (c.pass (elemMode (f.x.toNat / 16384 % 4)) false false slot acc row v.mySeq.klen v.mySeq.cols).takeArray (f.x.toNat / 16384 % 4)
        (stretch (v.effRc v.node f.rc))) }) cur rfl rfl
  generalize s.commit 0x630 f _ = t at mx sys ⊢
  rw [show State.myCore (v.modMyCore _) = _ from State.core_modCore_same _ _ _] at mx sys
  have cells (i r k : Nat) : t.myCore.accCell i r k = passed.accCell i r k := by
    rw [Core.accCell, mx]
    rfl
  refine ⟨fun n hn => ?_, fun a r n ha hrow' hn apart => ?_, ?_⟩
  · rw [cells, hpassed, Core.accCell_putRow _ _ _ _ hn]
    rfl
  · rw [cells, hpassed, Core.accCell_putRow_other]
    intro j hj
    rw [Ne, accKey_eq_iff hrow' (hrow ▸ Nat.mod_lt _ (by decide)) hn (hj.trans_le hcols)]
    rintro ⟨same, rfl⟩
    rcases apart with other | beyond
    · exact other same
    · omega
  · have mstat : t.myCore.sysreg 0x080 = passed.sysreg 0x080 := sys 0x080 (by decide)
    rw [mstat, hpassed]
    exact v.myCore.putRow_mstat _ _ _ _

/-! ### MLDA, WSWAP, ACLR and MTT (R181 to R183, R192) -/

section
variable {f : Fields} {s v : State}

/-- An MLDA to which the array is free fills its slot (R181). -/
theorem mlda_fills (hr : s.ready 0x640 f = true) (hv : s.view 0x640 f = v) (hheld : v.myCore.arrayHeld = false) :
    exec (.mlda f) s = .next (s.commit 0x640 f { st := v.modMyCore (fun c => c.loadSlot (f.x.toNat % 64)
      (fun k => if v.mySeq.klen ≤ k then 0 else if f.x.getLsbD 6 then v.srcLane f.a 32 (k / 4) / 256 ^ (k % 4) % 256 else v.srcLane f.a 8 k)
      (BitVec.ofNat 32 (v.srcLane f.b 32 0))) }) := by
  refine issued_ready hr ?_ (State.crowded_quiet rfl)
  simp [hv, hheld, done]

theorem mlda_stalls (hr : s.ready 0x640 f = true) (hv : s.view 0x640 f = v) (hheld : v.myCore.arrayHeld = true) :
    exec (.mlda f) s = .next v.endWait := by
  refine (issued_eq hr).trans ?_
  simp [hv, hheld, State.settleEff]

/-- A WSWAP exchanges the banks, with the array free and no copy into the weight bank begun (R182). -/
theorem wswap_swaps (hr : s.ready 0x650 f = true) (hv : s.view 0x650 f = v) (hheld : v.myCore.arrayHeld = false) (hfill : v.myCore.fillsBank = false) :
    exec (.wswap f) s = .next (s.commit 0x650 f { st := v.modMyCore (fun c => { c with mx := { c.mx with active := !c.mx.active } }) }) := by
  refine issued_ready hr ?_ (State.crowded_quiet rfl)
  simp [hv, hheld, hfill, done]

theorem wswap_stalls (hr : s.ready 0x650 f = true) (hv : s.view 0x650 f = v) (h : v.myCore.arrayHeld = true ∨ v.myCore.fillsBank = true) :
    exec (.wswap f) s = .next v.endWait := by
  refine (issued_eq hr).trans ?_
  simp [hv, h, State.settleEff]

/-- An ACLR clears its rows below ROWS where the first is not reserved (R183). -/
theorem aclr_clears (hr : s.ready 0x670 f = true) (hv : s.view 0x670 f = v) (hfree : v.myCore.rowReserved (f.x.toNat / 128 % 2) (f.x.toNat % 128) = false) :
    exec (.aclr f) s = .next (s.commit 0x670 f { st := v.modMyCore (fun c => (drainRows v f).foldl (fun c j =>
      (List.range 128).foldl (fun c n => c.setAcc (f.x.toNat / 128 % 2) (f.x.toNat % 128 + j) n 0) c) c) }) := by
  refine issued_ready hr ?_ (State.crowded_quiet rfl)
  simp [hv, hfree, done]

theorem aclr_stalls (hr : s.ready 0x670 f = true) (hv : s.view 0x670 f = v) (h : v.myCore.rowReserved (f.x.toNat / 128 % 2) (f.x.toNat % 128) = true) :
    exec (.aclr f) s = .next v.endWait := by
  refine (issued_eq hr).trans ?_
  simp [hv, h, State.settleEff]

/-- An MTT writes a word of the shadow table behind CT's queued writes (R192). -/
theorem mtt_writes (hr : s.ready 0x600 f = true) (hv : s.view 0x600 f = v) :
    exec (.mtt f) s = .next (s.commit 0x600 f { st := (v.drainQueue v.node v.me).modMyCore (fun c =>
      { c with nestTab := Tab.put0 0 c.nestTab (f.x.toNat % 32) ((v.sreg f.a).setWidth 32) }) }) := by
  refine issued_ready hr ?_ (State.crowded_quiet rfl)
  simp [hv, done]

end

/-! ### ADRN (R184) -/

/-- What ADRN delivers of row j, lane i: the accumulator's value as it is, where FROM is 2, or scaled by B and rounded to Q. -/
def drainLane (v : State) (f : Fields) (j i : Nat) : FpOut :=
  if f.x.toNat / 32768 % 4 = 2 then ⟨(v.myCore.accCell (f.x.toNat / 128 % 2) (f.x.toNat % 128 + j) i).toNat, 0⟩
  else drainValue (f.x.toNat / 32768 % 4 == 1) (fmtIn f) v.fpEnv (f.q == 4 && !f.x.getLsbD 17)
    (v.myCore.accCell (f.x.toNat / 128 % 2) (f.x.toNat % 128 + j) i).toNat (v.srcLane f.b 32 i)

/-- The flags that ADRN's lanes raise, row by row. -/
def drainFlags (v : State) (f : Fields) : List FpEvent := (drainRows v f).flatMap (fun j => v.lanes.map (fun i => (i, (drainLane v f j i).fl)))

/-- ADRN's rows written one after the other, each charged on what those before it leave. -/
def drainWrites (v : State) (f : Fields) : Done :=
  (drainRows v f).foldl (fun (d : Done) j =>
    let e := d.st.writeLanes f.e (f.d + BitVec.ofNat 12 j) (if f.x.toNat / 32768 % 4 = 2 then 32 else (fmtIn f).width)
      (overlapsIn (f.d + BitVec.ofNat 12 j) (if f.x.toNat / 32768 % 4 = 2 then [] else [f.b])) (v.lanes.map (fun i => (i, (drainLane v f j i).bits)))
    { e with lands := d.lands ++ e.lands }) { st := v.addFlags (allFlags (drainFlags v f)) }

section
variable {f : Fields} {s v : State} (hr : s.ready 0x660 f = true) (hv : s.view 0x660 f = v)
include hr hv

/-- An ADRN whose first row is not reserved judges its flags, then writes its rows. -/
theorem adrn_eq (hfree : v.myCore.rowReserved (f.x.toNat / 128 % 2) (f.x.toNat % 128) = false) :
    exec (.adrn f) s = .next (s.settleEff 0x660 f (v.withFlags (drainFlags v f) (fun _ => .done (drainWrites v f)))) := by
  refine (issued_eq hr).trans ?_
  simp [hv, hfree, drainFlags, drainWrites, drainLane, advanceField, State.withFlags, List.flatMap_map, List.foldl_map, Function.comp_def]

theorem adrn_stalls (h : v.myCore.rowReserved (f.x.toNat / 128 % 2) (f.x.toNat % 128) = true) : exec (.adrn f) s = .next v.endWait := by
  refine (issued_eq hr).trans ?_
  simp [hv, h, State.settleEff]

end

/-- What ADRN does, once its flags are judged and its results in flight are counted (R144, R184, R327). -/
theorem adrn_does {f : Fields} {s v : State} {raw : Bool} {w : Nat} {val : Nat → Nat → FpOut} {fl : List FpEvent} {d : Done} (hr : s.ready 0x660 f = true) (hv : s.view 0x660 f = v)
    (hfree : v.myCore.rowReserved (f.x.toNat / 128 % 2) (f.x.toNat % 128) = false)
    (hraw : (raw = true ∧ f.x.toNat / 32768 % 4 = 2 ∧ w = 32) ∨ (raw = false ∧ f.x.toNat / 32768 % 4 ≠ 2 ∧ w = (fmtIn f).width))
    (hval : val = drainLane v f)
    (hfl : fl = (drainRows v f).flatMap (fun j => v.lanes.map (fun i => (i, (val j i).fl))))
    (hd : d = (drainRows v f).foldl (fun (d : Done) j =>
      let e := d.st.writeLanes f.e (f.d + BitVec.ofNat 12 j) w (overlapsIn (f.d + BitVec.ofNat 12 j) (if raw then [] else [f.b]))
        (v.lanes.map (fun i => (i, (val j i).bits)))
      { e with lands := d.lands ++ e.lands }) { st := v.addFlags (allFlags fl) }) :
    (allFlags fl &&& v.fpTraps ≠ 0 → exec (.adrn f) s = .next (s.takeFault 0x30 (BitVec.ofNat 64 (allFlags fl + 256 * trapLane v.fpTraps fl)))) ∧
    (allFlags fl &&& v.fpTraps = 0 → s.crowded f d = false → exec (.adrn f) s = .next (s.commit 0x660 f d)) ∧
    (allFlags fl &&& v.fpTraps = 0 → s.crowded f d = true → exec (.adrn f) s = .next s.endWait) := by
  have flags : drainFlags v f = fl := by rw [hfl, hval, drainFlags]
  have writes : drainWrites v f = d := by
    rw [hd, drainWrites, flags, hval]
    rcases hraw with ⟨rfl, hx, rfl⟩ | ⟨rfl, hx, rfl⟩
    · simp only [if_pos hx, if_true]
    · simp only [if_neg hx, Bool.false_eq_true, if_false]
  rw [adrn_eq hr hv hfree, State.withFlags, flags, writes]
  refine ⟨fun trapped => ?_, fun quiet room => ?_, fun quiet crowded => ?_⟩
  · rw [if_pos trapped]
    rfl
  · rw [if_neg (not_not.2 quiet), State.settleEff, room]
    rfl
  · rw [if_neg (not_not.2 quiet), State.settleEff, crowded]
    rfl

/-- Settles O33: each instruction by its own equation, and the stalls by theirs. -/
theorem matrixInstructionResults : Obligations.MatrixInstructionResults := by
  unfold Obligations.MatrixInstructionResults
  refine ⟨?mma, Core.arrayBusy_iff, ?mlda, fun f s v hr hv hheld hfill => wswap_swaps hr hv hheld hfill, fun f s v hr hv hfree => aclr_clears hr hv hfree,
    fun f s v hr hv => mtt_writes hr hv, ?adrn, ?held, fun f s v hr hv hfill => wswap_stalls hr hv (.inr hfill), ?reserved⟩
  case mma =>
    rintro f s v elem hr hv hheld rfl
    exact ⟨fun hbusy => mma_passes hr hv hheld hbusy, fun hbusy => mma_stalls hr hv (.inr hbusy)⟩
  case mlda =>
    intro f s v elem hr hv hheld helem
    rw [mlda_fills hr hv hheld, ← funext helem]
    rfl
  case adrn =>
    intro f s v raw w val fl d hr hv hfree hraw hfl hd
    refine adrn_does hr hv hfree (hraw.imp (fun h => ⟨h.1, h.2.1, h.2.2.1⟩) (fun h => ⟨h.1, h.2.1, h.2.2.1⟩)) ?_ hfl hd
    funext j i
    rcases hraw with ⟨-, hx, -, hval⟩ | ⟨-, hx, -, hval⟩
    · rw [hval, drainLane, if_pos hx]
    · rw [hval, drainLane, if_neg hx]
  case held =>
    simp only [List.forall_mem_cons]
    exact ⟨fun f s v hr hv hheld => mma_stalls hr hv (.inl hheld), fun f s v hr hv hheld => mlda_stalls hr hv hheld,
      fun f s v hr hv hheld => wswap_stalls hr hv (.inl hheld), List.forall_mem_nil _⟩
  case reserved =>
    simp only [List.forall_mem_cons]
    exact ⟨fun f s v hr hv h => adrn_stalls hr hv h, fun f s v hr hv h => aclr_stalls hr hv h, List.forall_mem_nil _⟩

end Sys2Proof.Machine
end

section
/-! PROOFS. The loop nest (R190): a pass may change the tables by which its own reads are translated (R219, R220), and then reads other bytes than were there when it began. -/

namespace Sys2Proof.Machine

/-- What a pass promotes, counts and occupies leaves the elements of the row buffer. -/
theorem Core.slotElem_pass (c : Core) (m : ElemMode) (sparse : Bool) (slot acc row klen cols rc steps elem k : Nat) (v : Word) (s e : Nat) :
    Core.slotElem ((((c.pass m sparse false slot acc row klen cols).addSteps rc steps).setSys 0x082 v).takeArray elem k) s e = c.slotElem s e := by
  obtain ⟨r, hr⟩ := (c.pass m sparse false slot acc row klen cols).addSteps_frame rc steps
  rw [hr]
  exact congrArg (fun l => (Tab.get l (128 * s + e) 0).toNat) (c.pass_elems m sparse false slot acc row klen cols)

/-- A nest of one column and one K before a pass that starts its row at +0, with the bank filled. Its row of A stands at address 0. -/
def startingNest : Nest := { Tests.live0 with lastB := some 0 }

/-- Core 0 with that nest, no TLB entry, and its level-0 table in the window of accumulator 0, where the walk reads it: cell (0, 0), the low word of the first entry, maps the 2^42 bytes
from physical address 0 on for reading. The byte there is 7. -/
def tableInAccumulator : State :=
  ({ Tests.nest0 (some startingNest) with mem := [(0, 7)] } : State).modCore 0 (fun c =>
    { c with tlb := [], sys := [(0x2A0, BitVec.ofNat 64 (windowAddr 0 1 0))], mx := { c.mx with acc := [(0, 5)] } })

theorem tableInAccumulator_plain : tableInAccumulator.Plain 0 0 1 := ⟨⟨0, 42, 1⟩, by decide +kernel, by decide +kernel⟩

theorem tableInAccumulator_load : tableInAccumulator.load 0 0 1 = 7 := by decide +kernel

/-- The row of the accumulator starts at +0 before the slot is filled: the table entry is gone, nothing translates, and the slot gets 0. -/
theorem tableInAccumulator_slot : ((tableInAccumulator.nestPass 0 startingNest).core 0).slotElem 0 0 = 0 := by decide +kernel

/-- Refutes O34: in the clause about passes, a row of QA that is plain memory when the pass begins need not be read as it was then. Where the context's level-0 table stands in the
window of the accumulator that the pass starts at +0, the start takes the table entry away before the slot is filled. The clause lacks the hypothesis that State.Run has: that
the translations stand in a TLB or in the window map. -/
theorem not_nestResults : ¬ Obligations.NestResults := by
  unfold Obligations.NestResults
  rintro ⟨-, -, -, -, passes, -, -⟩
  have row (k : Nat) (hk : k < startingNest.klen) : tableInAccumulator.Plain 0 (0 + BitVec.ofNat 64 k) 1 := by
    rw [show startingNest.klen = 1 by decide +kernel, Nat.lt_one_iff] at hk
    rw [hk]
    exact tableInAccumulator_plain
  have filledBank : startingNest.fills ≠ true := by decide +kernel
  have startsAtZero : tabAccm startingNest.table ≠ true := by decide +kernel
  obtain ⟨u, pass, slot, -⟩ := passes tableInAccumulator 0 startingNest 0 true 1 (by decide) (by decide +kernel) row (by decide +kernel) (by decide +kernel)
    (fun fills => absurd fills filledBank) (fun _ accm => absurd accm startsAtZero)
  have kept : ((tableInAccumulator.nestPass 0 startingNest).core 0).slotElem 0 0 = (u.core 0).slotElem 0 0 := by
    rw [pass, State.core_modCore_same, Core.slotElem_pass]
  have read : (u.core 0).slotElem 0 0 = tableInAccumulator.load 0 0 1 := (slot 0 (by decide)).trans (if_pos (by decide +kernel))
  rw [← kept, tableInAccumulator_slot, tableInAccumulator_load] at read
  exact absurd read (by decide)

end Sys2Proof.Machine
end

section
/-! SUPPORT. Laws of reel mode: the registers with which a reel starts, a permit that is free, and what the shared operations of a running reel change and leave alone, its cues that become due, the pass that is marked as read, the slot as a pass reads it, and whose cues are under way (R199, R202 to R204, R207, R352). -/

namespace Sys2Proof.Machine

/-! ### The registers and the slots as a reel starts -/

/-- Bits 15:8 of a word whose old ones are cleared and replaced. -/
theorem second_byte_replaced (w : Word) {g : Nat} (hg : g < 256) :
    ((w &&& 0xFFFFFFFFFFFF00FF) ||| BitVec.ofNat 64 (256 * g)).toNat / 256 % 256 = g := by
  have mask : (0xFFFFFFFFFFFF00FF : Word).toNat >>> 8 % 2 ^ 8 = 0 := rfl
  have low : (BitVec.ofNat 64 (256 * g)).toNat >>> 8 = g := by
    rw [BitVec.toNat_ofNat, Nat.mod_eq_of_lt (by omega), Nat.shiftRight_eq_div_pow]
    omega
  calc ((w &&& 0xFFFFFFFFFFFF00FF) ||| BitVec.ofNat 64 (256 * g)).toNat / 256 % 256
      = (w.toNat &&& (0xFFFFFFFFFFFF00FF : Word).toNat ||| (BitVec.ofNat 64 (256 * g)).toNat) >>> 8 % 2 ^ 8 := by
        rw [BitVec.toNat_or, BitVec.toNat_and, Nat.shiftRight_eq_div_pow]
        rfl
    _ = g := by
        rw [Nat.shiftRight_or_distrib, Nat.shiftRight_and_distrib, Nat.or_mod_two_pow, Nat.and_mod_two_pow, mask, Nat.and_zero, Nat.zero_or, low,
          Nat.mod_eq_of_lt hg]

@[simp] theorem Core.fill_setFill_same (c : Core) (k : Nat) (b : Bool) : (c.setFill k b).fill k = b := by
  rw [Core.fill, Core.setFill, Tab.get_put0_same]
  cases b <;> rfl

theorem Core.fill_setFill_other (c : Core) {k i : Nat} (b : Bool) (h : i ≠ k) : (c.setFill k b).fill i = c.fill i := by
  rw [Core.fill, Core.setFill, Tab.get_put0_other _ _ _ _ _ _ h]
  rfl

/-- Clearing the FILLs of some slots changes no register, and no other FILL. -/
theorem Core.clearFills (l : List Nat) (c : Core) : (∀ num, (l.foldl (fun c i => c.setFill i false) c).sysreg num = c.sysreg num) ∧
    ∀ i, (l.foldl (fun c i => c.setFill i false) c).fill i = if i ∈ l then false else c.fill i := by
  induction l generalizing c with
  | nil => exact ⟨fun _ => rfl, fun _ => rfl⟩
  | cons k rest ih =>
    obtain ⟨regs, fills⟩ := ih (c.setFill k false)
    refine ⟨regs, fun i => (fills i).trans ?_⟩
    by_cases h : i = k
    · simp [h]
    · simp [h, Core.fill_setFill_other]

/-- BEAT, HEAD, SLIP and FIRSTMISS are 0 as a reel starts (R199). -/
theorem Core.reelBegin_clears (c : Core) (num : Nat) (h : num ∈ [0x0D0, 0x0D1, 0x0D2, 0x0D3]) : c.reelBegin.sysreg num = 0 := by
  refine ((Core.clearFills _ _).1 num).trans ?_
  simp only [List.mem_cons, List.not_mem_nil, or_false] at h
  rcases h with rfl | rfl | rfl | rfl <;> simp [Core.sysreg_setSys_other]

theorem Core.reelBegin_gen (c : Core) : c.reelBegin.reelGen = (c.reelGen + 1) % 256 := by
  have reelst : c.reelBegin.sysreg 0x0D4 = (c.sysreg 0x0D4 &&& 0xFFFFFFFFFFFF00FF) ||| BitVec.ofNat 64 (256 * ((c.reelGen + 1) % 256)) := by
    refine ((Core.clearFills _ _).1 0x0D4).trans ?_
    simp [Core.sysreg_setSys_other]
  rw [Core.reelGen, reelst]
  exact second_byte_replaced _ (Nat.mod_lt _ (by decide))

theorem Core.reelBegin_fill (c : Core) {i : Nat} (h : i < 64) : c.reelBegin.fill i = false :=
  ((Core.clearFills _ _).2 i).trans (if_pos (List.mem_range.2 h))

/-! ### A permit that is free -/

/-- A request whose permit fits takes it at once (R352). -/
theorem State.withPermit_free {s : State} {weight : Nat} (h : s.permitFree weight = true) (holder : Holder) (k : State → Eff) :
    s.withPermit holder weight k = k (s.permitted holder weight) := by
  simp only [State.permitFree, Bool.and_eq_true, Bool.not_eq_true', List.isEmpty_iff] at h
  obtain ⟨⟨ungranted, idle⟩, fits⟩ := h
  have grants : (s.quad (quadOf s.node)).grants.find? (fun p => p.mine s.node s.me) = none := List.find?_eq_none.2 (fun p hp => by
    simpa using List.any_eq_false.1 ungranted p hp)
  simp only [State.withPermit, grants, idle, fits, if_true]
  rfl

/-! ### The cues that become due (R202, R204) -/

/-- Fill cues that become due leave the passes as they are. -/
theorem Reel.dueFills_passes (r : Reel) (n gen beat fuel : Nat) :
    (r.dueFills n gen beat fuel).begun = r.begun ∧ (r.dueFills n gen beat fuel).read = r.read := by
  induction fuel generalizing r with
  | zero => exact ⟨rfl, rfl⟩
  | succ fuel ih =>
    unfold Reel.dueFills
    split
    next => exact ih _
    next => exact ⟨rfl, rfl⟩

/-- A promotion counts, and the cue of a group that it completes becomes due. -/
theorem Reel.promotedTo_does (r : Reel) (n gen b : Nat) : (r.promotedTo n gen b).begun = r.begun ∧ (r.promotedTo n gen b).promoted = b + 1 ∧
    (r.promotedTo n gen b).due.length = r.due.length + if (b + 1) % r.dg = 0 then 1 else 0 := by
  unfold Reel.promotedTo
  split <;> simp [Reel.dueDrain, *]

/-! ### The pass that is marked as read (R200) -/

/-- The oldest pass that has not read its slot is the one replaced. -/
theorem markRead_reads {l : List Beat} {f : Beat → Beat} {b : Beat} (h : l.find? (fun b => !b.read) = some b) (hf : (f b).read = true) :
    f b ∈ markRead l f ∧ ((markRead l f).filter (fun b => b.read)).length = (l.filter (fun b => b.read)).length + 1 := by
  induction l with
  | nil => simp at h
  | cons x rest ih =>
    by_cases hx : x.read = true
    · obtain ⟨mem, count⟩ := ih (by simpa [hx] using h)
      simp [markRead, hx, mem, count]
    · obtain rfl : x = b := by simpa [hx] using h
      simp [markRead, hx, hf]

/-! ### The slot as a pass reads it (R207) -/

theorem Core.slotByte_elem (c : Core) (slot : Nat) {k : Nat} (h : k < 128) : (c.slotByte slot k).toNat = c.slotElem slot k := by
  rw [Core.slotByte, if_pos h]
  rfl

/-- A byte written into a slot changes no other element of it. -/
theorem Core.slotByte_setSlotByte (d : Core) (slot j : Nat) (b : Byte) {k : Nat} (h : k < 128) :
    (d.setSlotByte slot j b).slotByte slot k = if j = k then b else d.slotByte slot k := by
  rw [Core.slotByte, if_pos h, Core.slotByte, if_pos h, Core.setSlotByte]
  by_cases hj : j < 128
  · rw [if_pos hj]
    by_cases hk : j = k
    · rw [if_pos hk, hk]
      exact Tab.get_put0_same ..
    · rw [if_neg hk]
      exact Tab.get_put0_other _ _ _ _ _ _ (by omega)
  · rw [if_neg hj, if_neg (by omega)]

/-- Core d, with bytes of a slot taken from what core c or a list of earlier bytes holds: its banks are c's, and each of its elements is c's or one of the list. -/
structure Core.Mixes (c d : Core) (slot : Nat) (prior : List (Nat × Byte)) : Prop where
  bank : d.mx.bank = c.mx.bank
  elem : ∀ k, k < 128 → d.slotByte slot k = c.slotByte slot k ∨ (k, d.slotByte slot k) ∈ prior

/-- A byte chosen among what the slot holds and what a list says it held is one of these. -/
theorem Core.chosen_byte (c : Core) (slot k i : Nat) (prior : List (Nat × Byte)) :
    let l := c.slotByte slot k :: (prior.filter (fun p => p.1 == k)).map (fun p => p.2)
    l.getD (i % l.length) 0 = c.slotByte slot k ∨ (k, l.getD (i % l.length) 0) ∈ prior := by
  intro l
  have mem : l.getD (i % l.length) 0 ∈ l := by
    rw [List.getD_eq_getElem _ _ (Nat.mod_lt _ (by simp [l]))]
    exact List.getElem_mem _
  simpa [l] using List.mem_cons.1 mem

theorem Core.Mixes.step {c d : Core} {slot : Nat} {prior : List (Nat × Byte)} (h : c.Mixes d slot prior) {j : Nat} {b : Byte}
    (hb : b = c.slotByte slot j ∨ (j, b) ∈ prior) : c.Mixes (d.setSlotByte slot j b) slot prior where
  bank := by
    rw [← h.bank, Core.setSlotByte]
    split <;> rfl
  elem k hk := by
    rw [Core.slotByte_setSlotByte _ _ _ _ hk]
    split
    next hjk => exact hjk ▸ hb
    next => exact h.elem k hk

/-- What a pass reads of its slot is what stands there, or what stood there before a write that reached it (R207). -/
theorem Core.mixSlot_mixes (c : Core) (fresh slot : Nat) (prior : List (Nat × Byte)) : c.Mixes (c.mixSlot fresh slot prior) slot prior := by
  unfold Core.mixSlot
  refine List.foldlRecOn (motive := fun d => c.Mixes d slot prior) _ _ ⟨rfl, fun _ _ => .inl rfl⟩ (fun d h j _ => h.step ?_)
  exact c.chosen_byte slot j _ prior

/-- A pass that has read keeps its beat and its start, and holds one pair for each of its elements and columns, of its slot and of the active bank. -/
theorem Core.readBeat_reads (c : Core) (r : Reel) (fresh : Nat) (b : Beat) :
    (c.readBeat r fresh b).pairs.length = r.cols ∧
    (b.prior = [] → (c.readBeat r fresh b).sa = (Tab.get c.mx.scales (b.num % 64) 0).toNat) ∧
    ∀ j k, j < r.cols → k < min r.klen 128 → ((c.readBeat r fresh b).pairs.getD j []).length = min r.klen 128 ∧
      ∃ v : Byte, ((c.readBeat r fresh b).pairs.getD j []).getD k (0, 0) = (v.toNat, c.bankElem (bitNat c.mx.active) k j) ∧
        (v.toNat = c.slotElem (b.num % 64) k ∨ (k, v) ∈ b.prior) := by
  have mixes := c.mixSlot_mixes fresh (b.num % 64) b.prior
  refine ⟨by simp [Core.readBeat], fun quiet => by simp [Core.readBeat, quiet, Core.mixSlot], fun j k hj hk => ?_⟩
  have hk' : k < 128 := lt_of_lt_of_le hk (Nat.min_le_right _ _)
  have column : (c.readBeat r fresh b).pairs.getD j [] =
      (c.mixSlot fresh (b.num % 64) b.prior).densePairs (bitNat c.mx.active) (b.num % 64) r.klen j := by
    simp [Core.readBeat, hj]
  refine ⟨by rw [column]; simp [Core.densePairs], (c.mixSlot fresh (b.num % 64) b.prior).slotByte (b.num % 64) k, ?_, ?_⟩
  · rw [Core.slotByte_elem _ _ hk', Core.bankElem, ← mixes.bank, column, Core.densePairs, List.getD_eq_getElem _ _ (by simpa using hk)]
    simp [Core.bankElem]
  · rw [← Core.slotByte_elem _ _ hk']
    exact (mixes.elem k hk').imp_left (congrArg BitVec.toNat)

/-! ### Whose cues are under way (R203) -/

/-- In a sorted table an entry is what its key reads as. -/
theorem Tab.get_of_mem {α : Type} {t : Tab α} (hs : Tab.sorted t = true) {p : Nat × α} (hp : p ∈ t) (d : α) : Tab.get t p.1 d = p.2 := by
  induction t with
  | nil => cases hp
  | cons x r ih =>
    obtain ⟨above, sorted⟩ := (Tab.sorted_cons x r).1 hs
    rcases List.mem_cons.1 hp with rfl | hr
    · exact if_pos rfl
    · exact (if_neg (above p hr).ne).trans (ih sorted hr)

/-- A sorted table in which one key alone reads as g asks lists that key alone under a filter by g. -/
theorem Tab.keys_filter_one {α : Type} {t : Tab α} (hs : Tab.sorted t = true) {g : α → Bool} {n : Nat} {d : α} (hd : g d = false)
    (hn : g (Tab.get t n d) = true) (ho : ∀ k, k ≠ n → g (Tab.get t k d) = false) : (t.filter (fun p => g p.2)).map (fun p => p.1) = [n] := by
  have listed : (n, Tab.get t n d) ∈ t.filter (fun p => g p.2) := by
    rcases Tab.get_mem t n d with hmem | hdef
    · exact List.mem_filter.2 ⟨hmem, hn⟩
    · rw [hdef, hd] at hn
      cases hn
  have alone (p : Nat × α) (hp : p ∈ t.filter (fun p => g p.2)) : p.1 = n := by
    obtain ⟨hmem, hg⟩ := List.mem_filter.1 hp
    by_contra hne
    rw [← Tab.get_of_mem hs hmem d, ho _ hne] at hg
    cases hg
  have sorted := Tab.sorted_filter t (fun p => g p.2) hs
  revert listed alone sorted
  cases t.filter (fun p => g p.2) with
  | nil => simp
  | cons x r =>
    intro _ alone sorted
    obtain ⟨above, -⟩ := (Tab.sorted_cons x r).1 sorted
    have last : r = [] := List.eq_nil_iff_forall_not_mem.2 (fun p hp => by
      have less := above p hp
      rw [alone x (by simp), alone p (by simp [hp])] at less
      exact lt_irrefl _ less)
    simp [last, alone x (by simp)]

/-- A choice among one is no choice. -/
@[simp] theorem State.pick_one (s : State) (k : Nat) : s.pick [k] = k := by simp [State.pick, Nat.mod_one]

theorem State.modCore_congr {s : State} {n : Nat} {g h : Core → Core} (e : g (s.core n) = h (s.core n)) : s.modCore n g = s.modCore n h :=
  congrArg (s.setCore n) e

end Sys2Proof.Machine
end

section
/-! PROOFS. The instructions of reel mode (R198, R199, R205, R206, R210, R249, Table 9.3): REELON, REELOFF, CUEW, CUEPOLL, CUEDONE. -/

namespace Sys2Proof.Machine

/-! ### REELON -/

section
variable {f : Fields} {s v : State} {c : Core} (hr : s.ready 0x700 f = true) (hv : s.view 0x700 f = v) (hc : (v.drainQueue v.node v.me).myCore = c)
include hr hv hc

/-- A configuration in error is cause 0x29, naming its register. -/
theorem reelon_misconfigured {num : Nat} (h : reelConfigFault c (stretch (v.effRc v.node f.rc)) = some num) :
    exec (.reelon f) s = .next (s.takeFault 0x29 (BitVec.ofNat 64 num)) :=
  issued_trap hr (by simp [hv, hc, h])

/-- A feeder or a drain core outside the placement is cause 0x13, naming the first. -/
theorem reelon_misplaced {m : Nat} (h : reelConfigFault c (stretch (v.effRc v.node f.rc)) = none)
    (hm : (reelFeeders c ++ [(c.sysreg 0x0C6).toNat % 1024]).find? (fun m => !c.placement.contains (globalCore v.node m)) = some m) :
    exec (.reelon f) s = .next (s.takeFault 0x13 (BitVec.ofNat 64 m)) :=
  issued_trap hr (by simp only [hv, hc, h, hm])

/-- With the array free and its permit too, a REELON past its checks starts the reel. -/
theorem reelon_starts {rc : Nat} {k t : State} (hrc : rc = v.effRc v.node f.rc) (h : reelConfigFault c (stretch rc) = none)
    (hm : ∀ m ∈ reelFeeders c ++ [(c.sysreg 0x0C6).toNat % 1024], c.placement.contains (globalCore v.node m) = true)
    (hfree : c.arrayHeld = false) (hp : v.permitFree (classWeight rc) = true)
    (hk : k = (v.permitted .reel (classWeight rc)).drainQueue v.node v.me) (ht : t = k.modMyCore Core.reelBegin) :
    Does (.reelon f) 0x700 f s { st := t.setReel t.node ((newReel c k.mySeq rc (pushList f.push)).dueFills t.node t.myCore.reelGen 0 64), engine := true } := by
  have placed : (reelFeeders c ++ [(c.sysreg 0x0C6).toNat % 1024]).find? (fun m => !c.placement.contains (globalCore v.node m)) = none :=
    List.find?_eq_none.2 (fun m hmem => by rw [hm m hmem]; decide)
  subst hrc hk ht
  refine issued_does rfl hr ?_
  simp only [hv, hc, h, placed, hfree, Bool.false_eq_true, if_false, State.withPermit_free hp]
  rfl

end

/-! ### REELOFF -/

section
variable {f : Fields} {s v : State} (hr : s.ready 0x710 f = true) (hv : s.view 0x710 f = v)
include hr hv

theorem reeloff_without (h : v.myCore.reel = none) : Does (.reeloff f) 0x710 f s { st := v } :=
  issued_does rfl hr (by simp [hv, h, done])

theorem reeloff_closed {r : Reel} (h : v.myCore.reel = some r) (hclosed : r.closed = true) : Does (.reeloff f) 0x710 f s { st := v } :=
  issued_does rfl hr (by simp [hv, h, hclosed, done])

/-- A REELOFF marks a reel that still runs; its pushes wait for the last passes (R210). -/
theorem reeloff_marks {r : Reel} (h : v.myCore.reel = some r) (hopen : r.closed = false) :
    Does (.reeloff f) 0x710 f s
      { st := v.modMyCore (fun c => { c with reel := some { r with off := true, offPushes := r.offPushes ++ pushList f.push } }), engine := true } :=
  issued_does rfl hr (by simp [hv, h, hopen])

end

/-! ### The cue queue -/

section
variable {f : Fields} {s v : State}

theorem cuew_waits (hr : s.ready 0x720 f = true) (hv : s.view 0x720 f = v) (h : v.myCore.cueq = []) : exec (.cuew f) s = .next (s.waitFor 0x07 0) :=
  issued_wait hr (by simp [hv, h])

theorem cuew_takes (hr : s.ready 0x720 f = true) (hv : s.view 0x720 f = v) {w : Word} {rest : List Word} (h : v.myCore.cueq = w :: rest) :
    Does (.cuew f) 0x720 f s { st := (v.modMyCore (fun c => { c with cueq := c.cueq.drop 1 })).setReg (regNum f.d) w } :=
  issued_does rfl hr (by simp [hv, h, takeCue, putReg, done])

theorem cuepoll_empty (hr : s.ready 0x740 f = true) (hv : s.view 0x740 f = v) (h : v.myCore.cueq = []) :
    Does (.cuepoll f) 0x740 f s { st := v.setReg (regNum f.d) 0xFFFFFFFFFFFFFFFF } :=
  issued_does rfl hr (by simp [hv, h, putReg, done])

theorem cuepoll_takes (hr : s.ready 0x740 f = true) (hv : s.view 0x740 f = v) {w : Word} {rest : List Word} (h : v.myCore.cueq = w :: rest) :
    Does (.cuepoll f) 0x740 f s { st := (v.modMyCore (fun c => { c with cueq := c.cueq.drop 1 })).setReg (regNum f.d) w } :=
  issued_does rfl hr (by simp [hv, h, takeCue, putReg, done])

/-- CUEDONE sends its record back behind CT's queued writes (R206, R249). -/
theorem cuedone_returns (hr : s.ready 0x730 f = true) (hv : s.view 0x730 f = v) :
    Does (.cuedone f) 0x730 f s
      { st := (v.drainQueue v.node v.me).modCore (globalCore v.node ((v.sreg f.a).toNat % 1024))
          (fun c => { c with cueBack := c.cueBack ++ [{ record := v.sreg f.a, target := v.node }] }) } :=
  issued_does rfl hr (by simp [hv, done, recordArray])

end

/-- Settles O35: REELON by its checks in their order and by what its start leaves, REELOFF by whether a reel runs, the cue queue by whether it is empty. -/
theorem reelInstructionResults : Obligations.ReelInstructionResults := by
  unfold Obligations.ReelInstructionResults
  refine ⟨fun f s v c rc k t hr hv hc hrc h hm hfree hp hk ht => reelon_starts hr hv hc hrc h hm hfree hp hk ht, ?begin, ?faults, ?off, ?wait, ?poll,
    fun f s v hr hv => cuedone_returns hr hv⟩
  case begin =>
    intro c i hi
    exact ⟨c.reelBegin_clears _ (by decide), c.reelBegin_clears _ (by decide), c.reelBegin_clears _ (by decide), c.reelBegin_clears _ (by decide),
      c.reelBegin_gen, c.reelBegin_fill hi⟩
  case faults =>
    intro f s v c hr hv hc
    exact ⟨fun num h => reelon_misconfigured hr hv hc h, fun m h hm => reelon_misplaced hr hv hc h hm⟩
  case off =>
    rintro f s v hr hv
    refine ⟨reeloff_without hr hv, fun r h hclosed => reeloff_closed hr hv h hclosed, ?_⟩
    rintro r r1 h hopen rfl
    exact reeloff_marks hr hv h hopen
  case wait =>
    intro f s v hr hv
    exact ⟨cuew_waits hr hv, fun w rest h => cuew_takes hr hv h⟩
  case poll =>
    intro f s v hr hv
    exact ⟨cuepoll_empty hr hv, fun w rest h => cuepoll_takes hr hv h⟩

end Sys2Proof.Machine
end

section
/-! PROOFS. The moments of a running reel (R200, R202 to R204, R206 to R210, R212, R395). -/

namespace Sys2Proof.Machine

section
variable {n : Nat} {s : State} {r : Reel} (hd : s.delivers n = true) (hr : (s.core n).reel = some r)
include hd hr

/-- An event of a reel does at a core that receives cycles what it says of the core and its reel. -/
theorem onReel_eq (k : Core → Reel → State) : onReel n s k = .next (k (s.core n) r) := by simp [onReel, hd, hr]

/-! ### Beats (R200, R208, R210) -/

/-- Away from the moment of the next beat nothing of a beat happens. -/
theorem beat_moments_only (h : (s.core n).beatTime r = false) :
    ∀ i ∈ [Instr.beatStart n, .beatMiss n, .holdCheck n, .reeloffEffect n], exec i s = .next s := by
  simp only [List.forall_mem_cons]
  refine ⟨?start, ?miss, ?check, ?off, List.forall_mem_nil _⟩
  case start =>
    change execBeatStart n s = _
    simp [execBeatStart, onReel_eq hd hr, h]
  case miss =>
    change execBeatMiss n s = _
    simp [execBeatMiss, onReel_eq hd hr, h]
  case check =>
    change execHoldCheck n s = _
    simp [execHoldCheck, onReel_eq hd hr, h]
  case off =>
    change execReeloffEffect n s = _
    simp [execReeloffEffect, onReel_eq hd hr, h]

theorem reeloff_stops (hoff : r.off = true) (ht : (s.core n).beatTime r = true) : exec (.reeloffEffect n) s = .next (s.setReel n r.stop) := by
  change execReeloffEffect n s = _
  simp [execReeloffEffect, onReel_eq hd hr, hoff, ht]

section
variable (hoff : r.off = false) (hsusp : r.suspending = false) (ht : (s.core n).beatTime r = true)
include hoff hsusp ht

theorem beat_starts (hhold : r.holding = false) (h : (s.core n).beatReady r = true) :
    exec (.beatStart n) s = .next (s.startBeat n (s.core n) r) := by
  change execBeatStart n s = _
  simp [execBeatStart, onReel_eq hd hr, hhold, hoff, hsusp, ht, h]

/-- A beat that is not ready stops a reel that aborts; its cause waits for a CP that has not halted and whose HALT has not issued (R208, R395). -/
theorem miss_aborts (hhold : r.holding = false) (h : (s.core n).beatReady r = false) (hp : r.abortPolicy = true) :
    exec (.beatMiss n) s = .next (((s.modCore n Core.noteMiss).modCore n (fun c =>
      { c.reelSticky 3 with reelAbort := if c.seqs.cp.run = .halted ∨ c.seqs.cp.halting.isSome = true then none else some c.reelBeat })).setReel n r.stop) := by
  change execBeatMiss n s = _
  simp [execBeatMiss, onReel_eq hd hr, hhold, hoff, hsusp, ht, h, hp, Core.cpDone]

theorem miss_holds (hhold : r.holding = false) (h : (s.core n).beatReady r = false) (hp : r.abortPolicy = false) :
    exec (.beatMiss n) s =
      .next ((s.modCore n Core.noteMiss).setReel n { r with holding := true, held := 1, next := r.next + BitVec.ofNat 64 r.period }) := by
  change execBeatMiss n s = _
  simp [execBeatMiss, onReel_eq hd hr, hhold, hoff, hsusp, ht, h, hp]

theorem held_starts (hhold : r.holding = true) (h : (s.core n).beatReady r = true) :
    exec (.holdCheck n) s = .next ((s.startBeat n (s.core n) r).modCore n (fun c => c.setSys 0x0D2 (c.sysreg 0x0D2 + BitVec.ofNat 64 r.held))) := by
  change execHoldCheck n s = _
  simp [execHoldCheck, onReel_eq hd hr, hhold, hoff, hsusp, ht, h]

theorem held_waits (hhold : r.holding = true) (h : (s.core n).beatReady r = false) :
    exec (.holdCheck n) s = .next (s.setReel n { r with held := r.held + 1, next := r.next + BitVec.ofNat 64 r.period }) := by
  change execHoldCheck n s = _
  simp [execHoldCheck, onReel_eq hd hr, hhold, hoff, hsusp, ht, h]

end

/-! ### Passes (R200, R204, R207) -/

/-- At the end of its occupancy the oldest pass that has not read its slot reads it, and its FILL is cleared. -/
theorem pass_reads {b : Beat} (hb : r.begun.find? (fun b => !b.read) = some b) (hc : (s.core n).cycle = b.start + BitVec.ofNat 64 r.occ) :
    ∃ r1, exec (.beatSlotRead n) s = .next (((s.spendBeat b).modCore n (fun c => c.setFill (b.num % 64) false)).setReel n r1) ∧
      r1.begun = markRead r.begun ((s.core n).readBeat r s.fresh) ∧ r1.read = r.read + 1 := by
  refine ⟨Reel.dueFills { r with begun := markRead r.begun ((s.core n).readBeat r s.fresh), read := r.read + 1 } n (s.core n).reelGen (s.core n).reelBeat 64,
    ?_, Reel.dueFills_passes ..⟩
  change execBeatSlotRead n s = _
  simp [execBeatSlotRead, onReel_eq hd hr, hb, hc]

/-- At the end of its latency the oldest pass is promoted. -/
theorem pass_promoted {b : Beat} {rest : List Beat} (hb : r.begun = b :: rest) (hread : b.read = true)
    (hc : (s.core n).cycle = b.start + BitVec.ofNat 64 r.latency) :
    exec (.reelPromotion n) s = .next ((s.modCore n (fun c => c.promoteBeat r b)).setReel n
      (Reel.promotedTo { r with begun := rest } n (s.core n).reelGen b.num)) := by
  change execReelPromotion n s = _
  simp [execReelPromotion, onReel_eq hd hr, hb, hread, hc]

/-! ### Cues leave (R202, R204) -/

section
variable {q : Cue} {rest : List Cue} (hq : r.due = q :: rest) (hsusp : r.susp = false) (hroom : s.cueRoom q.target = true)
include hq hsusp hroom

theorem drainCue_leaves (h : recordDrain q.record = true) : exec (.drainCueSend n) s = .next (s.modCore n (fun c =>
    { c with reel := some { r with due := rest, out := r.out ++ [q] }, cueWay := c.cueWay ++ [q] })) := by
  change execDrainCueSend n s = _
  simp [execDrainCueSend, onReel_eq hd hr, State.sendCue, hq, hsusp, hroom, h]

theorem fillCue_leaves (h : recordDrain q.record = false) : exec (.fillCueSend n) s = .next (s.modCore n (fun c =>
    ({ c with reel := some { r with due := rest, out := r.out ++ [q] }, cueWay := c.cueWay ++ [q] } : Core).setSys 0x0D1 (c.sysreg 0x0D1 + 1))) := by
  change execFillCueSend n s = _
  simp only [execFillCueSend, onReel_eq hd hr, State.sendCue, hq, hsusp, hroom, h, bne_self_eq_false, Bool.not_true, Bool.or_self, Bool.false_eq_true, if_false]
  rfl

end

/-! ### Ending and suspending (R209, R210, R212) -/

/-- A closed reel that awaits no drain record any more ends. -/
theorem reel_ends (hclosed : r.closed = true) (h : (r.due ++ r.out).all (fun q => !recordDrain q.record) = true) :
    exec (.reelEnd n) s = .next (((s.releasePermit n .cp .reel).withdrawAsk n .cp .reel).modCore n (fun c =>
      ({ c with reel := none } : Core).place .cp r.pushes)) := by
  have answered : (r.due ++ r.out).any (fun q => recordDrain q.record) = false := by
    simpa only [List.all_eq_true, List.any_eq_false, Bool.not_eq_true', Bool.not_eq_true] using h
  change execReelEnd n s = _
  simp only [execReelEnd, onReel_eq hd hr, hclosed, answered, Bool.not_false, Bool.and_self, if_true]

theorem reel_suspends (hs : r.suspending = true) (hsusp : r.susp = false) (hdrain : r.draining = false) (hc : (s.core n).cycle = r.next) :
    exec (.reelSuspend n) s = .next (s.modCore n (fun c =>
      { c with reel := some { r with susp := true, holding := false, held := 0, next := (s.core n).paused.getD r.next } })) := by
  change execReelSuspend n s = _
  simp [execReelSuspend, onReel_eq hd hr, hs, hsusp, hdrain, hc, State.modCore]

/-- A draining reel has no next start, and a reel is suspended at its next start alone. -/
theorem reel_not_suspended (h : r.draining = true ∨ (s.core n).cycle ≠ r.next) : exec (.reelSuspend n) s = .next s := by
  change execReelSuspend n s = _
  rcases h with hdrain | hc
  · simp [execReelSuspend, onReel_eq hd hr, hdrain]
  · simp [execReelSuspend, onReel_eq hd hr, hc]

end

/-! ### Records come back (R206) -/

section
variable {n : Nat} {s : State} {q : Cue}

/-- A record on its way back waits in a cycle whose beat has been judged not ready (R200). -/
theorem answer_waits (h : (s.core n).missedNow = true) : exec (.cuedoneArrive n) s = .next s := by
  change execCuedoneArrive n s = _
  simp [execCuedoneArrive, h]

/-- The one record that is on its way back arrives. -/
theorem answer_arrives (hm : (s.core n).missedNow = false) (hq : (s.core n).cueBack = [q]) (hctx : (s.core n).ctx.isSome = true) :
    exec (.cuedoneArrive n) s = .next ((s.modCore n (fun c => { c with cueBack := [] })).answerCue n q).spend := by
  have back : s.modCore n (fun c => { c with cueBack := dropFirst (fun p => p.target == q.target) c.cueBack }) =
      s.modCore n (fun c => { c with cueBack := [] }) := State.modCore_congr (by simp [hq, dropFirst])
  have held : (s.core n).ctx.isNone = false := by simpa using hctx
  change execCuedoneArrive n s = _
  simp [execCuedoneArrive, hm, hq, held, List.eraseDups_cons, back]

variable {r : Reel} (hr : (s.core n).reel = some r) (hgen : recordGen q.record = (s.core n).reelGen) (hout : q ∈ r.out)
include hr hgen hout

/-- A drain record frees its rows. -/
theorem State.answerCue_drain (h : recordDrain q.record = true) : s.answerCue n q = s.modCore n (fun c => { c with reel := some { r with
    out := dropFirst (fun x => x == q) r.out,
    busy := r.busy.filter (fun k => !(decide (recordRow q.record ≤ k) && decide (k ≤ recordRow q.record + recordCnt q.record))) } }) := by
  simp [State.answerCue, hr, hgen, hout, h]

/-- A fill record of a reel that does not drain sets FILL of its slot. -/
theorem State.answerCue_fill (h : recordDrain q.record = false) (hdrain : r.draining = false) : s.answerCue n q = s.modCore n (fun c =>
    ({ c with reel := some { r with out := dropFirst (fun x => x == q) r.out } } : Core).setFill (recordSlot q.record) true) := by
  simp [State.answerCue, hr, hgen, hout, h, hdrain]

end

theorem State.cueBack_modCore {s : State} {n : Nat} {g : Core → Core} (h : ∀ c, (g c).cueBack = c.cueBack) :
    ((s.modCore n g).core n).cueBack = (s.core n).cueBack := by
  rw [State.core_modCore_same]
  exact h _

/-- Nothing of an answer touches the records that are still on their way. -/
theorem State.answerCue_back (s : State) (n : Nat) (q : Cue) : ((s.answerCue n q).core n).cueBack = (s.core n).cueBack := by
  unfold State.answerCue
  dsimp only
  split
  next => rfl
  next r hr =>
    split_ifs
    case pos => rfl
    all_goals exact State.cueBack_modCore (fun _ => rfl)

/-! ### Cues arrive (R203) -/

/-- The one cue that is under way to a core with room and a context enters its queue. -/
theorem cue_enters {n m : Nat} {s : State} {q : Cue} (hs : Tab.sorted s.cores = true) (hq : (s.core n).cueWay = [q]) (ht : q.target = m)
    (hne : m ≠ n) (ho : ∀ k, k ≠ n → (s.core k).cueWay = []) (hctx : (s.core m).ctx.isSome = true) (hroom : (s.core m).cueq.length < 16) :
    ∃ t, exec (.cueDeliver m) s = .next t ∧ (t.core m).cueq = (s.core m).cueq ++ [q.record] ∧ (t.core n).cueWay = [] := by
  have sender : (s.cores.filter (fun p => p.2.cueWay.any (fun q => q.target == m))).map (fun p => p.1) = [n] :=
    Tab.keys_filter_one (g := fun c : Core => c.cueWay.any (fun q => q.target == m)) (d := Core.reset) hs rfl
      (by change (s.core n).cueWay.any _ = true; simp [hq, ht])
      (fun k hk => by change (s.core k).cueWay.any _ = false; simp [ho k hk])
  have held : (s.core m).ctx.isNone = false := by simpa using hctx
  refine ⟨(((s.modCore n (fun c => { c with cueWay := dropFirst (fun q => q.target == m) c.cueWay })).modCore m
    (fun c => { c with cueq := c.cueq ++ [q.record] })).spend), ?_, ?_, ?_⟩
  · change execCueDeliver m s = _
    simp [execCueDeliver, sender, held, hroom, hq, ht]
  · rw [State.core_spend, State.core_modCore_same, State.core_modCore_other _ _ _ _ hne]
  · rw [State.core_spend, State.core_modCore_other _ _ _ _ hne.symm, State.core_modCore_same]
    simp [hq, dropFirst, ht]

/-! ### The settlement -/

/-- Settles O36: each moment by its own equation; the pass that reads by what its slot mixes, the records by what they answer, the cue by the one core that sends it. -/
theorem reelEvents : Obligations.ReelEvents := by
  unfold Obligations.ReelEvents
  intro n s r hd hr
  refine ⟨beat_moments_only hd hr, ?due, ?held, ?reads, ?promoted, ?cues, reeloff_stops hd hr, reel_ends hd hr, ?suspends, reel_not_suspended hd hr,
    answer_waits, ?answers, fun q m hs hq ht hne ho hctx hroom => cue_enters hs hq ht hne ho hctx hroom⟩
  case due =>
    intro hhold hoff hsusp ht
    refine ⟨beat_starts hd hr hoff hsusp ht hhold, miss_aborts hd hr hoff hsusp ht hhold, ?_⟩
    rintro r1 h hp rfl
    exact miss_holds hd hr hoff hsusp ht hhold h hp
  case held =>
    intro hhold hoff hsusp ht
    refine ⟨held_starts hd hr hoff hsusp ht hhold, ?_⟩
    rintro r1 h rfl
    exact held_waits hd hr hoff hsusp ht hhold h
  case reads =>
    intro b hb hc
    obtain ⟨r1, run, begun, read⟩ := pass_reads hd hr hb hc
    obtain ⟨mem, count⟩ := markRead_reads (f := (s.core n).readBeat r s.fresh) hb rfl
    obtain ⟨columns, scale, pairs⟩ := (s.core n).readBeat_reads r s.fresh b
    rw [← begun] at mem count
    exact ⟨r1, run, read, count, _, mem, rfl, rfl, rfl, columns, rfl, scale, pairs⟩
  case promoted =>
    intro b rest hb hread hc
    exact ⟨_, pass_promoted hd hr hb hread hc, Reel.promotedTo_does ..⟩
  case cues =>
    rintro q rest r1 hq hsusp hroom rfl
    exact ⟨drainCue_leaves hd hr hq hsusp hroom, fillCue_leaves hd hr hq hsusp hroom⟩
  case suspends =>
    rintro r1 hs hsusp hdrain hc rfl
    exact reel_suspends hd hr hs hsusp hdrain hc
  case answers =>
    intro q hm hq hctx hgen hout
    set s1 := s.modCore n (fun c => { c with cueBack := [] })
    have core : s1.core n = { s.core n with cueBack := [] } := State.core_modCore_same ..
    have hr1 : (s1.core n).reel = some r := by rw [core]; exact hr
    have hgen1 : recordGen q.record = (s1.core n).reelGen := by rw [core]; exact hgen
    refine ⟨_, answer_arrives hm hq hctx, ?_, fun hfill hdrain => ?_, fun hdrain => ?_⟩
    · rw [State.core_spend, State.answerCue_back, core]
    · rw [State.core_spend, State.answerCue_fill hr1 hgen1 hout hfill hdrain, State.core_modCore_same]
      exact Core.fill_setFill_same ..
    · rw [State.core_spend, State.answerCue_drain hr1 hgen1 hout hdrain, State.core_modCore_same]
      refine ⟨_, rfl, fun k low high hk => ?_⟩
      simp [low, high] at hk

end Sys2Proof.Machine
end

section
/-! SUPPORT. What a write to plain memory does (R239, R380): each byte as an access under the write's key reads it afterwards, and what else of the machine it leaves. -/

namespace Sys2Proof.Machine

/-! ### The bytes of a block -/

/-- A number written in bytes has those bytes. -/
theorem digits_of_sum (d : Nat → Nat) (hd : ∀ i, d i < 256) (n : Nat) :
    (List.range n).foldl (fun v i => v + d i * 256 ^ i) 0 < 256 ^ n ∧ ∀ k < n, (List.range n).foldl (fun v i => v + d i * 256 ^ i) 0 / 256 ^ k % 256 = d k := by
  induction n with
  | zero => simp
  | succ n ih =>
    obtain ⟨bound, digit⟩ := ih
    rw [List.range_succ, List.foldl_append, List.foldl_cons, List.foldl_nil]
    refine ⟨?_, fun k hk => ?_⟩
    · have := Nat.mul_le_mul_right (256 ^ n) (Nat.le_of_lt_succ (hd n))
      rw [Nat.pow_succ]
      omega
    · rcases Nat.lt_succ_iff_lt_or_eq.1 hk with hk | rfl
      · rw [show d n * 256 ^ n = 256 ^ k * (256 * (d n * 256 ^ (n - k - 1))) by
          rw [show n = k + 1 + (n - k - 1) by omega, Nat.pow_add, Nat.pow_succ]
          simp only [show k + 1 + (n - k - 1) - k - 1 = n - k - 1 by omega]
          ring, Nat.add_mul_div_left _ _ (by positivity), Nat.add_mul_mod_self_left, digit k hk]
      · rw [Nat.add_mul_div_right _ _ (by positivity), Nat.div_eq_of_lt bound, Nat.zero_add, Nat.mod_eq_of_lt (hd k)]

/-- Byte i of a block is the listed byte. -/
theorem State.rawBlock_byte (s : State) (b : Nat) {i : Nat} (h : i < 16) : ((s.rawBlock b) >>> (8 * i)).setWidth 8 = Memory.get s.mem (16 * b + i) := by
  obtain ⟨bound, digit⟩ := digits_of_sum (fun i => (Memory.get s.mem (16 * b + i)).toNat) (fun i => (Memory.get s.mem (16 * b + i)).isLt) 16
  apply BitVec.eq_of_toNat_eq
  rw [BitVec.toNat_setWidth, BitVec.toNat_ushiftRight, State.rawBlock, BitVec.toNat_ofNat, Nat.shiftRight_eq_div_pow, Nat.pow_mul]
  exact (congrArg (fun n => n / 256 ^ i % 256) (Nat.mod_eq_of_lt bound)).trans (digit i h)

/-- A byte of a block that is written under this key, or under none, is the listed byte. -/
theorem State.plainByte_own {s : State} {key : Option Nat} {pa : Nat} (h : s.blockKey (pa / 16) = key) : s.plainByte key pa = Memory.get s.mem pa := by
  have view : s.viewBlock key (pa / 16) = s.rawBlock (pa / 16) := by
    cases key <;> simp [State.viewBlock, h]
  unfold State.plainByte
  split
  · rfl
  · rw [view, State.rawBlock_byte _ _ (Nat.mod_lt _ (by decide)), Nat.div_add_mod]

/-- A block of the same bytes under the same key reads alike under every key. -/
theorem State.plainByte_of_block {s t : State} {a : Nat} (hk : t.blockKey (a / 16) = s.blockKey (a / 16))
    (hm : ∀ c, c / 16 = a / 16 → Memory.get t.mem c = Memory.get s.mem c) (key : Option Nat) : t.plainByte key a = s.plainByte key a := by
  have sum (l : List Nat) (hl : ∀ i ∈ l, i < 16) (n : Nat) : l.foldl (fun n i => n + (Memory.get t.mem (16 * (a / 16) + i)).toNat * 256 ^ i) n =
      l.foldl (fun n i => n + (Memory.get s.mem (16 * (a / 16) + i)).toNat * 256 ^ i) n := List.foldl_ext _ _ n (fun v i hi => by
    rw [hm _ (by have := hl i hi; omega)])
  have raw : t.rawBlock (a / 16) = s.rawBlock (a / 16) := congrArg (BitVec.ofNat 128) (sum _ (fun i => List.mem_range.1) 0)
  simp only [State.plainByte, State.viewBlock, hk, raw, hm a rfl]

/-! ### A block that is written under another key -/

theorem Memory.get_fold_put (l : List Nat) (base : Nat) (v : Nat → Byte) (m : List Host.Cell) (a : Nat) :
    Memory.get (l.foldl (fun m i => Memory.put m (base + i) (v i)) m) a = if base ≤ a ∧ a - base ∈ l then v (a - base) else Memory.get m a := by
  induction l generalizing m with
  | nil => simp
  | cons i r ih =>
    rw [List.foldl_cons, ih]
    by_cases hr : base ≤ a ∧ a - base ∈ r
    · rw [if_pos hr, if_pos ⟨hr.1, List.mem_cons_of_mem _ hr.2⟩]
    · rw [if_neg hr]
      by_cases hi : a = base + i
      · rw [hi, Memory.get_put_same, if_pos ⟨by omega, by simp⟩, Nat.add_sub_cancel_left]
      · rw [Memory.get_put_other _ _ _ _ hi, if_neg]
        rintro ⟨low, mem⟩
        rcases List.mem_cons.1 mem with e | e
        · exact hi (by omega)
        · exact hr ⟨low, e⟩

theorem State.blockKey_rekey (s : State) (key : Option Nat) (b c : Nat) : (s.rekey key b).blockKey c = if c = b then key else s.blockKey c := by
  unfold State.rekey
  split
  next h =>
    split
    next e => rw [e, h]
    next => rfl
  next =>
    by_cases e : c = b
    · rw [if_pos e, e, State.blockKey, Tab.get_put0_same]
      cases key <;> rfl
    · rw [if_neg e, State.blockKey, Tab.get_put0_other _ _ _ _ _ _ e]
      rfl

/-- A byte read under its block's new key is the one read under that key before; other blocks stay. -/
theorem State.get_rekey (s : State) (key : Option Nat) (b a : Nat) : Memory.get (s.rekey key b).mem a = if a / 16 = b then s.plainByte key a else Memory.get s.mem a := by
  unfold State.rekey
  split
  next h =>
    split
    next e => rw [State.plainByte_own (e ▸ h)]
    next => rfl
  next h =>
    dsimp only
    rw [Memory.get_fold_put (List.range 16) (16 * b) (fun i => (s.viewBlock key b >>> (8 * i)).setWidth 8)]
    by_cases e : a / 16 = b
    · have other : ¬(key = none ∧ s.blockKey (a / 16) = none) := fun both => h (by rw [← e, both.1, both.2])
      rw [if_pos ⟨by omega, List.mem_range.2 (by omega)⟩, if_pos e, State.plainByte, if_neg other, e, show a - 16 * b = a % 16 by omega]
    · rw [if_neg (fun both => e (by have := List.mem_range.1 both.2; omega)), if_neg e]

/-! ### A write to plain memory -/

/-- What a write to plain memory leaves: it changes bytes, the marks of words, counters of corrections and error logs alone. -/
structure State.WritesPlain (s t : State) : Prop where
  cur   : t.cur = s.cur
  cores : t.cores = s.cores
  bays  : t.bays = s.bays
  stack : ∀ k, ∃ r, t.stack k = { s.stack k with sys := r }
  regs  : ∀ k num, num ≠ 0x2C1 → (t.stack k).sysreg num = (s.stack k).sysreg num
  pkg   : ∀ k, ∃ l, t.pkg k = { s.pkg k with errorLog := l }

theorem State.WritesPlain.of_marks {s t : State} (hc : t.cur = s.cur) (h : t.cores = s.cores) (hb : t.bays = s.bays) (hd : t.dies = s.dies) (hp : t.pkgs = s.pkgs) : s.WritesPlain t where
  cur := hc
  cores := h
  bays := hb
  stack k := ⟨(s.stack k).sys, by unfold State.stack; rw [hd]⟩
  regs k num _ := by unfold State.stack; rw [hd]
  pkg k := ⟨(s.pkg k).errorLog, by unfold State.pkg; rw [hp]⟩

theorem State.WritesPlain.refl (s : State) : s.WritesPlain s := .of_marks rfl rfl rfl rfl rfl

theorem State.WritesPlain.trans {s t u : State} (h : s.WritesPlain t) (g : t.WritesPlain u) : s.WritesPlain u where
  cur := g.cur.trans h.cur
  cores := g.cores.trans h.cores
  bays := g.bays.trans h.bays
  stack k := by
    obtain ⟨_, h₁⟩ := h.stack k
    obtain ⟨r, h₂⟩ := g.stack k
    exact ⟨r, by rw [h₂, h₁]⟩
  regs k num hn := (g.regs k num hn).trans (h.regs k num hn)
  pkg k := by
    obtain ⟨_, h₁⟩ := h.pkg k
    obtain ⟨l, h₂⟩ := g.pkg k
    exact ⟨l, by rw [h₂, h₁]⟩

theorem State.correct_writesPlain (s : State) (b : Nat) : s.WritesPlain (s.correct b) where
  cur := rfl
  cores := rfl
  bays := rfl
  stack := (s.correct_readsAlike b).stack
  regs k num hn := by
    change ((s.setStack _ _).stack k).sysreg num = _
    by_cases h : k = stackOf (vaultCore (8 * b))
    · rw [h, State.stack_setStack_same]
      exact Tab.get_put_other _ _ _ _ _ hn
    · rw [State.stack_setStack_other _ _ _ _ h]
  pkg := (s.correct_readsAlike b).pkg

theorem State.corrects_writesPlain (l : List Nat) (s : State) : s.WritesPlain (l.foldl State.correct s) := by
  induction l generalizing s with
  | nil => exact .refl s
  | cons b r ih => exact (s.correct_writesPlain b).trans (ih _)

theorem State.WritesPlain.core {s t : State} (h : s.WritesPlain t) (n : Nat) : t.core n = s.core n := by unfold State.core; rw [h.cores]
theorem State.WritesPlain.bay {s t : State} (h : s.WritesPlain t) (b : Nat) : t.bay b = s.bay b := by unfold State.bay; rw [h.bays]

/-- The map of addresses stays. -/
theorem State.WritesPlain.place {s t : State} (h : s.WritesPlain t) (pa : Nat) : t.place pa = s.place pa := by
  obtain ⟨l, hl⟩ := h.pkg (paPkg pa)
  have cap : (t.pkg (paPkg pa)).gddrcap = (s.pkg (paPkg pa)).gddrcap := by rw [hl]; rfl
  have gated (k d : Nat) : t.gatedDom k d = s.gatedDom k d := by
    obtain ⟨_, hk⟩ := h.stack k
    unfold State.gatedDom
    rw [hk]
  simp only [State.place, gated, h.bay, cap]

/-- The state in which a write to plain memory has been made, before it is noted. -/
def State.putPlain (s : State) (key : Option Nat) (pa size : Nat) (v : Word) : State :=
  let t := if key = none ∧ s.blockKey (pa / 16) = none then s else s.rekey key (pa / 16)
  { t with mem := (List.range size).foldl (fun m i => Memory.put m (pa + i) (valByte v i)) t.mem }

section
variable {s : State} (key : Option Nat) {pa : Nat} (size : Nat) (v : Word)

/-- A block under no key that is written without one needs no other form. -/
theorem State.putPlain_eq : s.putPlain key pa size v =
    { s.rekey key (pa / 16) with mem := (List.range size).foldl (fun m i => Memory.put m (pa + i) (valByte v i)) (s.rekey key (pa / 16)).mem } := by
  unfold State.putPlain
  split
  next h => simp [State.rekey, h.1, h.2]
  next => rfl

theorem State.physWrite_plain (h : s.place pa = .bytes) :
    s.physWrite key pa size v = if (s.putPlain key pa size v).bad.isEmpty && (s.putPlain key pa size v).weak.isEmpty then s.putPlain key pa size v
      else (s.putPlain key pa size v).writeNote pa size := by
  unfold State.physWrite
  rw [h]
  rfl

theorem State.putPlain_writesPlain : s.WritesPlain (s.putPlain key pa size v) := by
  rw [State.putPlain_eq]
  unfold State.rekey
  split <;> exact .of_marks rfl rfl rfl rfl rfl

theorem State.writeNote_writesPlain (s : State) (pa n : Nat) : s.WritesPlain (s.writeNote pa n) :=
  .trans (t := s.heal pa n) (.of_marks rfl rfl rfl rfl rfl)
    (.trans (t := (s.heal pa n).readNote pa n) (State.corrects_writesPlain _ _) (.of_marks rfl rfl rfl rfl rfl))

theorem State.physWrite_writesPlain (h : s.place pa = .bytes) : s.WritesPlain (s.physWrite key pa size v) := by
  rw [State.physWrite_plain key size v h]
  split
  · exact State.putPlain_writesPlain key size v
  · exact (State.putPlain_writesPlain key size v).trans (State.writeNote_writesPlain _ _ _)

/-- What a write notes leaves memory. -/
theorem State.writeNote_keyed (s : State) (pa n : Nat) : (s.writeNote pa n).keyed = s.keyed :=
  (State.corrects_readsAlike _ (s.heal pa n)).keyed

theorem State.physWrite_mem (h : s.place pa = .bytes) : (s.physWrite key pa size v).mem = (s.putPlain key pa size v).mem ∧
    (s.physWrite key pa size v).keyed = (s.putPlain key pa size v).keyed := by
  rw [State.physWrite_plain key size v h]
  split
  · exact ⟨rfl, rfl⟩
  · exact ⟨State.writeNote_mem _ _ _, State.writeNote_keyed _ _ _⟩

/-- The block of a write has its key afterwards, and every other block keeps its own (R380). -/
theorem State.blockKey_physWrite (h : s.place pa = .bytes) (b : Nat) : (s.physWrite key pa size v).blockKey b = if b = pa / 16 then key else s.blockKey b := by
  unfold State.blockKey
  rw [(State.physWrite_mem key size v h).2, State.putPlain_eq]
  exact s.blockKey_rekey key (pa / 16) b

/-- A write within one block: its bytes, and every other byte as an access under its key reads it (R239, R380). -/
theorem State.plainByte_physWrite (h : s.place pa = .bytes) (hfit : pa % 16 + size ≤ 16) (a : Nat) :
    (s.physWrite key pa size v).plainByte key a = if pa ≤ a ∧ a < pa + size then valByte v (a - pa) else s.plainByte key a := by
  have get : Memory.get (s.physWrite key pa size v).mem a = if pa ≤ a ∧ a - pa ∈ List.range size then valByte v (a - pa) else
      if a / 16 = pa / 16 then s.plainByte key a else Memory.get s.mem a := by
    rw [(State.physWrite_mem key size v h).1, State.putPlain_eq, ← State.get_rekey]
    exact Memory.get_fold_put (List.range size) pa (valByte v) _ a
  by_cases e : a / 16 = pa / 16
  · have own : (s.physWrite key pa size v).blockKey (a / 16) = key := by rw [State.blockKey_physWrite key size v h, if_pos e]
    rw [State.plainByte_own own, get, if_pos e]
    exact if_congr (by rw [List.mem_range]; omega) rfl rfl
  · rw [if_neg (fun both => e (by omega))]
    refine State.plainByte_of_block (by rw [State.blockKey_physWrite key size v h, if_neg e]) (fun c hc => ?_) key
    rw [(State.physWrite_mem key size v h).1, State.putPlain_eq]
    refine (Memory.get_fold_put (List.range size) pa (valByte v) _ c).trans ?_
    rw [if_neg (fun both => e (by have := List.mem_range.1 both.2; omega)), State.get_rekey, if_neg (by omega)]

end

end Sys2Proof.Machine
end

section
/-! PROOFS. The fault queue of a stack (R233, R315, R380, Table 15.3). -/

namespace Sys2Proof.Machine

/-! ### A slot lies in one place -/

theorem ite_bytes {c : Prop} [Decidable c] : (if c then Place.bytes else Place.bad) = Place.bytes ↔ c := by
  by_cases h : c <;> simp [h]

/-- What an address of plain memory names, the rest of its 64 bytes names too (R214). -/
theorem State.place_slot {s : State} {pa : Nat} (h : s.place pa = .bytes) (ha : pa % 64 = 0) {i : Nat} (hi : i < 64) : s.place (pa + i) = .bytes := by
  have pkg : paPkg (pa + i) = paPkg pa := by unfold paPkg; omega
  have space : paSpace (pa + i) = paSpace pa := by unfold paSpace; omega
  have off : (pa + i) % 2 ^ 44 = pa % 2 ^ 44 + i := by omega
  unfold State.place at h ⊢
  rw [pkg, space, off]
  have aligned : pa % 2 ^ 44 % 64 = 0 := by omega
  generalize pa % 2 ^ 44 = r at h aligned ⊢
  have q42 : (r + i) / 2 ^ 42 = r / 2 ^ 42 := by omega
  have q40 : (r + i) / 2 ^ 40 = r / 2 ^ 40 := by omega
  have q38 : (r + i) / 2 ^ 38 = r / 2 ^ 38 := by omega
  have q34 : (r + i) / 2 ^ 34 = r / 2 ^ 34 := by omega
  simp only [q42, q40, q38, q34]
  split at h
  case h_1 =>
    obtain ⟨low, installed⟩ := ite_bytes.1 h
    exact ite_bytes.2 ⟨by omega, by omega⟩
  case h_2 =>
    obtain ⟨high, low, awake⟩ := ite_bytes.1 h
    exact ite_bytes.2 ⟨high, by omega, awake⟩
  case h_3 =>
    obtain ⟨high, low, sized, awake⟩ := ite_bytes.1 h
    exact ite_bytes.2 ⟨high, by omega, by omega, awake⟩
  case h_4 =>
    dsimp only at h
    split at h <;> cases h
  case h_13 =>
    dsimp only at h
    split at h <;> cases h
  case h_14 => cases h
  all_goals rfl

/-! ### Words one after the other -/

/-- Words written one after the other to plain memory under one key: each reads back, what stood before them stays, and every block that they meet has the key. -/
theorem State.words_written (key : Option Nat) (pa : Nat) (ha : pa % 8 = 0) (l : List Word) (k : Nat) (s t : State) (hp : ∀ i < l.length, s.place (pa + 8 * (k + i)) = .bytes)
    (ht : (l.zipIdx k).foldl (fun t p => t.physWrite key (pa + 8 * p.2) 8 p.1) s = t) :
    s.WritesPlain t ∧ (∀ a < pa + 8 * k, t.plainByte key a = s.plainByte key a) ∧ (∀ b, s.blockKey b = key → t.blockKey b = key) ∧
    ∀ i (hi : i < l.length), ∀ j < 8, t.plainByte key (pa + 8 * (k + i) + j) = valByte l[i] j ∧ t.blockKey ((pa + 8 * (k + i) + j) / 16) = key := by
  induction l generalizing k s with
  | nil =>
    obtain rfl : s = t := ht
    exact ⟨.refl s, fun _ _ => rfl, fun _ h => h, fun i hi => absurd hi (Nat.not_lt_zero i)⟩
  | cons w rest ih =>
    have here : s.place (pa + 8 * k) = .bytes := hp 0 (Nat.succ_pos _)
    have first := State.physWrite_writesPlain key 8 w here
    have byte := State.plainByte_physWrite key 8 w here (by omega)
    have keys := State.blockKey_physWrite key 8 w here
    obtain ⟨writes, before, kept, words⟩ := ih (k + 1) (s.physWrite key (pa + 8 * k) 8 w) (fun i hi => by
      rw [first.place, show pa + 8 * (k + 1 + i) = pa + 8 * (k + (i + 1)) by omega]
      exact hp (i + 1) (Nat.succ_lt_succ hi)) ht
    refine ⟨first.trans writes, fun a h => ?_, fun b h => kept b ?_, fun i hi j hj => ?_⟩
    · rw [before a (by omega), byte, if_neg (by omega)]
    · rw [keys]
      split
      · rfl
      · exact h
    · cases i with
      | zero =>
        refine ⟨?_, kept _ ?_⟩
        · rw [before _ (by omega), byte, if_pos (by omega), show pa + 8 * (k + 0) + j - (pa + 8 * k) = j by omega]
          rfl
        · rw [keys, if_pos (by omega)]
      | succ i =>
        rw [show pa + 8 * (k + (i + 1)) + j = pa + 8 * (k + 1 + i) + j by omega]
        exact words i (Nat.lt_of_succ_lt_succ hi) j hj

/-! ### An entry that is written -/

theorem State.noteFqWalk_writesPlain (s : State) (k : Nat) : s.WritesPlain (s.noteFqWalk k) := by
  unfold State.noteFqWalk
  dsimp only
  split
  · exact .refl s
  · exact State.corrects_writesPlain _ s

theorem State.noteFqWalk_mem (s : State) (k : Nat) : (s.noteFqWalk k).mem = s.mem := by
  unfold State.noteFqWalk
  dsimp only
  split
  · rfl
  · exact (State.corrects_readsAlike _ s).mem

/-- Both die control cores of the stack get the event (R315, R321). -/
theorem State.signalDccs_latch (s : State) (k : Nat) {d : Nat} (hd : d < 2) : ((s.signalDccs k).seq (dccKey (k / 4) (k % 4) d) .ld).latch = true := by
  unfold State.signalDccs
  have apart : dccKey (k / 4) (k % 4) 0 ≠ dccKey (k / 4) (k % 4) 1 := by unfold dccKey; omega
  obtain rfl | rfl : d = 0 ∨ d = 1 := by omega
  · rw [State.modSeq, State.seq_setSeq_other _ _ _ _ _ _ (fun h => apart h.1), State.seq_modSeq_same]
  · rw [State.seq_modSeq_same]

/-- The event is all that they get. -/
theorem State.signalDccs_fqWait (s : State) (k n : Nat) : ((s.signalDccs k).core n).fqWait = (s.core n).fqWait := by
  have one (s : State) (m : Nat) (g : Seq → Seq) : ((s.modSeq m .ld g).core n).fqWait = (s.core n).fqWait := by
    by_cases h : n = m
    · rw [h, State.core_modSeq_same]; rfl
    · rw [State.core_modSeq_other _ _ _ _ _ h]
  exact (one _ _ _).trans (one s _ _)


section
variable {s : State} {n k : Nat} {e : FqEntry}

/-- No entry that is written waits in its core. -/
theorem State.postFault_written {pa : Nat} (hn : stackOf n = k) (hroom : (s.stack k).fqUsed + 1 ≠ (s.stack k).fqSize) (hslot : s.fqSlot k = some pa) (hstays : s.drainHit pa = false) :
    s.postFault n e = s.fqWrite k pa e := by
  subst hn
  simp only [State.postFault, if_neg hroom, hslot, hstays, Bool.false_eq_true, if_false]

/-- An entry whose slot a drain moves waits in its core (R233). -/
theorem State.postFault_drained {pa : Nat} (hn : stackOf n = k) (hroom : (s.stack k).fqUsed + 1 ≠ (s.stack k).fqSize) (hslot : s.fqSlot k = some pa) (hmoves : s.drainHit pa = true) :
    s.postFault n e = s.modCore n (fun c => { c with fqWait := c.fqWait ++ [e] }) := by
  subst hn
  simp only [State.postFault, if_neg hroom, hslot, hmoves, if_true]

/-- An entry waits in its core and is counted in FQOVF (R315). -/
def State.holdEntry (s : State) (n k : Nat) (e : FqEntry) : State :=
  (s.modCore n (fun c => { c with fqWait := c.fqWait ++ [e] })).setStack k ((s.stack k).setSys 0x2B4 ((s.stack k).sysreg 0x2B4 + 1))

theorem State.postFault_full (hn : stackOf n = k) (hfull : (s.stack k).fqUsed + 1 = (s.stack k).fqSize) : s.postFault n e = s.holdEntry n k e := by
  subst hn
  exact if_pos hfull

theorem State.postFault_unmapped (hn : stackOf n = k) (hroom : (s.stack k).fqUsed + 1 ≠ (s.stack k).fqSize) (hslot : s.fqSlot k = none) :
    s.postFault n e = ((s.noteFqWalk k).holdEntry n k e).signalDccs k := by
  subst hn
  simp only [State.postFault, if_neg hroom, hslot]
  rfl

theorem State.holdEntry_holds (s : State) (n k : Nat) (e : FqEntry) : ((s.holdEntry n k e).core n).fqWait = (s.core n).fqWait ++ [e] ∧
    ((s.holdEntry n k e).stack k).sysreg 0x2B4 = (s.stack k).sysreg 0x2B4 + 1 ∧ ((s.holdEntry n k e).stack k).sysreg 0x2B3 = (s.stack k).sysreg 0x2B3 := by
  refine ⟨?_, ?_, ?_⟩
  · exact congrArg Core.fqWait (State.core_modCore_same s n (fun c => { c with fqWait := c.fqWait ++ [e] }))
  · rw [State.holdEntry, State.stack_setStack_same]
    exact Tab.get_put_same ..
  · rw [State.holdEntry, State.stack_setStack_same]
    exact Tab.get_put_other _ _ _ _ _ (by decide)

end

/-- The state in which the words of an entry stand in its slot. -/
def State.fqWords (s : State) (k pa : Nat) (e : FqEntry) : State :=
  (e.words.zipIdx).foldl (fun t p => t.physWrite (s.fqSlotKey k) (pa + 8 * p.2) 8 p.1) (s.noteFqWalk k)

/-- A slot of plain memory takes the words of its entry (Table 15.3). -/
theorem State.fqWords_written (s : State) (k : Nat) {pa : Nat} (e : FqEntry) (hp : s.place pa = .bytes) (ha : pa % 64 = 0) : s.WritesPlain (s.fqWords k pa e) ∧
    ∀ i (hi : i < e.words.length), ∀ j < 8, (s.fqWords k pa e).plainByte (s.fqSlotKey k) (pa + 8 * i + j) = valByte e.words[i] j ∧
      (s.fqWords k pa e).blockKey ((pa + 8 * i + j) / 16) = s.fqSlotKey k := by
  have walk := s.noteFqWalk_writesPlain k
  obtain ⟨writes, -, -, words⟩ := State.words_written (s.fqSlotKey k) pa (by omega) e.words 0 (s.noteFqWalk k) (s.fqWords k pa e) (fun i hi => by
    rw [walk.place]
    exact State.place_slot hp ha (by have : i < 8 := hi; omega)) rfl
  refine ⟨walk.trans writes, fun i hi j hj => ?_⟩
  simpa using words i hi j hj

/-- What follows the words leaves memory, and the cores but for their latches (R315). -/
theorem State.fqWrite_eq (s : State) (k pa : Nat) (e : FqEntry) : ∃ p, s.fqWrite k pa e =
    (({ s.fqWords k pa e with pkgs := p } : State).setStack k (((s.fqWords k pa e).stack k).setSys 0x2B3
      (BitVec.ofNat 64 ((((s.fqWords k pa e).stack k).fqTail + 1) % ((s.fqWords k pa e).stack k).fqSize)))).signalDccs k := ⟨_, rfl⟩

/-- A slot at which an entry can be written is plain memory. -/
theorem State.place_fqSlot {s : State} {k pa : Nat} (h : s.fqSlot k = some pa) : s.place pa = .bytes := by
  unfold State.fqSlot at h
  split at h
  · cases h
  · split at h
    · rename_i ok
      cases h
      simp only [Bool.and_eq_true, beq_iff_eq] at ok
      exact ok.1.2
    · cases h

/-- Settles O11: a written entry by its eight words and by what follows them, one that waits by what holds it. -/
theorem faultQueueEntries : Obligations.FaultQueueEntries := by
  unfold Obligations.FaultQueueEntries
  rintro s n k e size hn rfl
  refine ⟨?written, fun pa hroom hslot hmoves => State.postFault_drained hn hroom hslot hmoves, ?waits⟩
  case written =>
    rintro pa t hroom hslot hstays ha rfl
    rw [State.postFault_written hn hroom hslot hstays]
    obtain ⟨writes, words⟩ := s.fqWords_written k e (State.place_fqSlot hslot) ha
    obtain ⟨p, written⟩ := s.fqWrite_eq k pa e
    have stack : (s.fqWrite k pa e).stack k = ((s.fqWords k pa e).stack k).setSys 0x2B3
        (BitVec.ofNat 64 ((((s.fqWords k pa e).stack k).fqTail + 1) % ((s.fqWords k pa e).stack k).fqSize)) := by
      rw [written]
      exact State.stack_setStack_same _ _ _
    have reg (num : Nat) (hnum : num ≠ 0x2B3) (hcount : num ≠ 0x2C1) : ((s.fqWrite k pa e).stack k).sysreg num = (s.stack k).sysreg num := by
      rw [stack]
      exact (Tab.get_put_other _ _ _ _ _ hnum).trans (writes.regs k num hcount)
    have byte (i : Nat) (hi : i < 8) (j : Nat) (hj : j < 8) : (s.fqWrite k pa e).plainByte (s.fqSlotKey k) (pa + 8 * i + j) = valByte e.words[i] j ∧
        (s.fqSlotKey k = none → Memory.get (s.fqWrite k pa e).mem (pa + 8 * i + j) = valByte e.words[i] j) := by
      obtain ⟨value, key⟩ := words i hi j hj
      rw [written]
      refine ⟨value, fun none => ?_⟩
      rw [← value, none]
      exact (State.plainByte_own (key.trans none)).symm
    refine ⟨?_, ?_, reg 0x2B2 (by decide) (by decide), reg 0x2B4 (by decide) (by decide), ?_, ?_⟩
    · simp only [List.forall_mem_cons]
      exact ⟨byte 0 (by decide), byte 1 (by decide), byte 2 (by decide), byte 3 (by decide), byte 4 (by decide), byte 5 (by decide), byte 6 (by decide), byte 7 (by decide), List.forall_mem_nil _⟩
    · rw [stack]
      refine (Tab.get_put_same ..).trans ?_
      rw [Stack.fqTail, Stack.fqSize, writes.regs k _ (by decide), writes.regs k _ (by decide)]
    · rw [written, State.signalDccs_fqWait]
      exact congrArg Core.fqWait (writes.core n)
    · intro d hd
      rw [written]
      exact State.signalDccs_latch _ _ hd
  case waits =>
    rintro t hwaits rfl
    by_cases hfull : (s.stack k).fqUsed + 1 = (s.stack k).fqSize
    · rw [State.postFault_full hn hfull]
      obtain ⟨waits, count, tail⟩ := s.holdEntry_holds n k e
      exact ⟨waits, count, tail, rfl, fun hroom => absurd hfull hroom⟩
    · rw [State.postFault_unmapped hn hfull (hwaits.resolve_left hfull)]
      have walk := s.noteFqWalk_writesPlain k
      obtain ⟨waits, count, tail⟩ := (s.noteFqWalk k).holdEntry_holds n k e
      refine ⟨?_, ?_, ?_, s.noteFqWalk_mem k, fun _ d hd => State.signalDccs_latch _ _ hd⟩
      · rw [State.signalDccs_fqWait, waits, walk.core]
      · exact count.trans (congrArg (· + 1) (walk.regs k _ (by decide)))
      · exact tail.trans (walk.regs k _ (by decide))

end Sys2Proof.Machine
end

section
/-! PROOFS. Vector loads and stores, SDEF and PREF (R225 to R227, R232, R408). -/

namespace Sys2Proof.Machine

/-- A VLD whose accesses are clear writes the elements that it reads together (R225, R226). -/
theorem vectorLoad_does {i : Instr} {c : Code} {f : Fields} {meets : Nat → Bool} {va : State → Fields → Nat → Nat → Word} {s v t : State} {w : Nat} {vas : List Word}
    (he : exec i s = vectorLoad c f meets va s) (hr : s.ready c f = true) (hv : s.view c f = v) (hw : w = intWidth f.q.toNat) (hvas : vas = v.lanes.map (va v f (w / 8)))
    (hclear : v.clear Want.load (w / 8) vas = true) (ht : v.passed Want.load (w / 8) vas = t) :
    Does i c f s { st := t.loadLanes t.node f.e f.d w meets ((vas.zipIdx).map (fun p => (p.2, BitVec.ofNat 64 (t.load t.node p.1 (w / 8))))) } := by
  subst hv hw hvas ht
  exact issued_does he hr (State.access_clear _ hclear)

/-- A VST whose accesses are clear stores the low bytes of its lanes (R226, R227). -/
theorem vectorStore_does {i : Instr} {c : Code} {f : Fields} {va : State → Fields → Nat → Nat → Word} {s v t : State} {w : Nat} {vas : List Word}
    (he : exec i s = vectorStore c f va s) (hr : s.ready c f = true) (hv : s.view c f = v) (hw : w = intWidth f.q.toNat) (hvas : vas = v.lanes.map (va v f (w / 8)))
    (hclear : v.clear Want.store (w / 8) vas = true) (ht : v.passed Want.store (w / 8) vas = t) :
    Does i c f s { st := t, stores := (vas.zipIdx).flatMap (fun p => t.mkStore t.node p.1 (w / 8) (v.myCore.laneWord f.d p.2)) } := by
  subst hv hw hvas ht
  exact issued_does he hr (State.access_clear _ hclear)

/-- A descriptor that does not lie at a multiple of 64 is cause 0x12 (R408). -/
theorem readDescriptor_misaligned {s : State} {va : Word} (h : va.toNat % 64 ≠ 0) (k : State → List W32 → Eff) : readDescriptor s va k = .trap 0x12 va := if_pos h

/-- Else its sixteen words are read, where those accesses are clear (R408). -/
theorem readDescriptor_clear {s : State} {va : Word} (h : va.toNat % 64 = 0) (hclear : s.clear Want.load 4 (units va 4 16) = true) (k : State → List W32 → Eff) :
    readDescriptor s va k = k (s.passed Want.load 4 (units va 4 16))
      ((units va 4 16).map (fun a => BitVec.ofNat 32 ((s.passed Want.load 4 (units va 4 16)).load (s.passed Want.load 4 (units va 4 16)).node a 4))) := by
  rw [readDescriptor, if_neg (not_not_intro h), State.access_clear _ hclear]

/-- Settles O37: VLD and VST by their one form each, SDEF by where its descriptor lies, PREF by its empty body. -/
theorem vectorLoadAndStoreResults : Obligations.VectorLoadAndStoreResults := by
  unfold Obligations.VectorLoadAndStoreResults
  refine ⟨?loads, ?stores, ?sdef, ?pref⟩
  case loads =>
    simp only [List.forall_mem_cons]
    exact ⟨fun _ _ _ _ _ _ => vectorLoad_does (va := unitVa) rfl, fun _ _ _ _ _ _ => vectorLoad_does (va := strideVa) rfl,
      fun _ _ _ _ _ _ => vectorLoad_does (va := gatherVa) rfl, List.forall_mem_nil _⟩
  case stores =>
    simp only [List.forall_mem_cons]
    exact ⟨fun _ _ _ _ _ _ => vectorStore_does (va := unitVa) rfl, fun _ _ _ _ _ _ => vectorStore_does (va := strideVa) rfl,
      fun _ _ _ _ _ _ => vectorStore_does (va := gatherVa) rfl, List.forall_mem_nil _⟩
  case sdef =>
    rintro f s v va hr rfl rfl
    refine ⟨fun misaligned => issued_trap hr (readDescriptor_misaligned misaligned _), ?_⟩
    rintro t aligned hclear rfl
    exact issued_does rfl hr (readDescriptor_clear aligned hclear _)
  case pref =>
    rintro f s v hr rfl
    exact issued_does rfl hr rfl

end Sys2Proof.Machine
end

section
/-! PROOFS. The copies as they issue (R228, R230, R231, R249, R297). -/

namespace Sys2Proof.Machine

/-! ### The checks of a copy -/

/-- A TLD or TST that passes its checks joins its queue (R228). -/
theorem tileIssue_queues {v : State} {f : Fields} {load : Bool} {d : List W32} {va : Word} {n : Nat} (hd : v.released (f.x.toNat % 16) = d) (hn : n = intWidth f.q.toNat / 8)
    (hva : va = streamBase d + v.sreg f.a) (hfree : v.copiesInto 6 = false) (hrows : opIndex f.d + v.mySeq.rows ≤ 128) (hgood : streamFault d = none)
    (haligned : va.toNat % n = 0) (hpitch : (streamPitch d).toNat % n = 0) :
    tileIssue v f load = issueCopy v f (.tile load f.e f.d (8 * n) v.mySeq.rows v.mySeq.cols va (streamPitch d)) false := by
  subst hd hn hva
  simp only [tileIssue, hfree, hgood, haligned, hpitch, if_neg (Nat.not_lt.2 hrows), ne_eq, not_true_eq_false, Bool.false_eq_true, if_false]

/-- A CPYW that passes its checks joins its queue (R231). -/
theorem cpyw_queues {v : State} {f : Fields} {d : List W32} {index : Nat} {s : State} (hr : s.ready 0x860 f = true) (hv : s.view 0x860 f = v)
    (hd : v.released (f.x.toNat % 16) = d) (hgood : streamFault d = none) (hfmt : streamFmt d = 12 ∨ streamFmt d = 0)
    (hindex : index = scaleIndex d ((v.sreg f.b).toNat % 2 ^ 32) ((v.sreg f.b).toNat / 2 ^ 32)) (hscale : streamScaled d = true → index < word d 7)
    (hfree : v.copiesInto 6 = false) :
    ∃ e, Does (.cpyw f) 0x860 f s e ∧ issueCopy v f (.weights d (streamBase d + v.sreg f.a) v.mySeq.klen v.mySeq.cols
      (if streamScaled d then some (scaleAddr d index) else none) (f.x.getLsbD 4) (!v.myCore.mx.active)) false = .done e := by
  subst hv hindex hd
  have fmt : (streamFmt ((s.view 0x860 f).released (f.x.toNat % 16)) == 12 || streamFmt ((s.view 0x860 f).released (f.x.toNat % 16)) == 0) = true := by simpa using hfmt
  have scale : (streamScaled ((s.view 0x860 f).released (f.x.toNat % 16)) && decide (word ((s.view 0x860 f).released (f.x.toNat % 16)) 7 ≤
      scaleIndex ((s.view 0x860 f).released (f.x.toNat % 16)) (((s.view 0x860 f).sreg f.b).toNat % 2 ^ 32) (((s.view 0x860 f).sreg f.b).toNat / 2 ^ 32))) = false := by
    simpa using hscale
  refine ⟨_, issued_does rfl hr ?_, rfl⟩
  simp only [hfree, hgood, fmt, scale, Bool.not_true, Bool.false_eq_true, if_false]
  rfl

section
variable {v : State} {f : Fields} {farSrc farDst grid : Bool} {len : Nat} (hdst : (v.sreg f.d).toNat % 4 = 0) (hsrc : (v.sreg f.a).toNat % 4 = 0) (hlen : len = (v.sreg f.b).toNat)
  (hwords : len % 4 = 0) (hmax : len ≤ 2 ^ 40) (hapart : rangesMeet (v.sreg f.d) (v.sreg f.a) len = false)
include hdst hsrc hlen hwords hmax hapart

/-- A copy that passes its checks is done where it has no bytes, joins its queue up to 1 MiB, and needs a permit of weight 2 above (R230, R297). -/
theorem bytesIssue_checked : bytesIssue v f farSrc farDst grid =
    if len = 0 then .done { st := if farSrc || farDst then v.modMyCore (fun c => c.setSys 0x240 (c.sysreg 0x240 + 1)) else v, atOnce := true }
    else if len ≤ 2 ^ 20 then issueCopy v f (.bytes (v.sreg f.d) (v.sreg f.a) len farSrc farDst grid) false
    else v.withPermit .copy 2 (fun t => issueCopy t f (.bytes (v.sreg f.d) (v.sreg f.a) len farSrc farDst grid) true) := by
  subst hlen
  have fits : ¬((v.sreg f.b).toNat % 4 ≠ 0 ∨ 2 ^ 40 < (v.sreg f.b).toNat) := by omega
  rw [bytesIssue]
  simp only [hdst, hsrc, fits, hapart, ne_eq, not_true_eq_false, Bool.false_eq_true, if_false]

/-- So it is for the instruction that issues it. -/
theorem bytesIssue_does {i : Instr} {c : Code} {s : State} (he : exec i s = issued c f (fun s => bytesIssue s f farSrc farDst grid) s) (hr : s.ready c f = true) (hv : s.view c f = v) :
    (len = 0 → Does i c f s { st := if farSrc || farDst then v.modMyCore (fun c => c.setSys 0x240 (c.sysreg 0x240 + 1)) else v, atOnce := true }) ∧
    (len ≠ 0 → len ≤ 2 ^ 20 → ∃ e, Does i c f s e ∧ issueCopy v f (.bytes (v.sreg f.d) (v.sreg f.a) len farSrc farDst grid) false = .done e) ∧
    (2 ^ 20 < len → v.permitFree 2 = true → ∃ e, Does i c f s e ∧ issueCopy (v.permitted .copy 2) f (.bytes (v.sreg f.d) (v.sreg f.a) len farSrc farDst grid) true = .done e) := by
  have checked := bytesIssue_checked (farSrc := farSrc) (farDst := farDst) (grid := grid) hdst hsrc hlen hwords hmax hapart
  subst hv
  refine ⟨fun none => issued_does he hr (checked.trans (if_pos none)), fun some short => ?_, fun long free => ?_⟩
  · exact ⟨_, issued_does he hr ((checked.trans (if_neg some)).trans (if_pos short)), rfl⟩
  · refine ⟨_, issued_does he hr ?_, rfl⟩
    rw [checked, if_neg (by omega), if_neg (by omega), State.withPermit_free free]
    rfl

end

/-- A TLD, TST or CPYW stalls while an own copy that writes stream registers is under way (R97, R242, R249). -/
theorem stalls_on_copy {i : Instr} {c : Code} {f : Fields} {body : State → Eff} {s v : State} (he : exec i s = issued c f body s) (hr : s.ready c f = true) (hv : s.view c f = v)
    (hb : body v = .stall v) : exec i s = .next v.endWait := by
  subst hv
  rw [he, issued_eq hr, hb]
  rfl

/-! ### The queue that a copy joins (R229, R249) -/

/-- LD and ST have a queue of transfers. -/
theorem Core.transfers_setTransfers (c : Core) {q : SeqId} (h : q = .ld ∨ q = .st) (l : List Transfer) : (c.setTransfers q l).transfers q = l := by
  rcases h with rfl | rfl <;> rfl

/-- A transfer joins its sequencer's queue behind those that stand in it. -/
theorem issueCopy_joins {s t : State} {f : Fields} {c : Copy} {p : Bool} {e : Done} (h : issueCopy s f c p = .done e) (ht : s.drainQueue s.node s.me = t) (hq : s.me = .ld ∨ s.me = .st) :
    e.engine = true ∧ (e.st.core s.node).transfers s.me = (t.core s.node).transfers s.me ++
      [{ tag := s.nextTag, copy := c, chunk := 0, pc := s.mySeq.pc, pushes := pushList f.push, paused := false, pausing := false, permit := p, stalled := false }] := by
  subst ht
  obtain rfl := Eff.done.inj h
  have node : (s.drainQueue s.node s.me).node = s.node := congrArg Prod.fst (State.drainQueue_keepsNegatives s s.node s.me).cur
  have joined (x : Transfer) : ((s.drainQueue s.node s.me).modMyCore (fun k => k.setTransfers s.me (k.transfers s.me ++ [x]))).core s.node =
      ((s.drainQueue s.node s.me).core s.node).setTransfers s.me (((s.drainQueue s.node s.me).core s.node).transfers s.me ++ [x]) := by
    rw [State.modMyCore, node, State.core_modCore_same]
  exact ⟨rfl, (congrArg (fun k => Core.transfers k s.me) (joined _)).trans (Core.transfers_setTransfers _ hq _)⟩

/-- Settles O38: TLD and TST by their checks, the copies of bytes by theirs and by their length, CPYW by its own, the stalls before all of them, and the queue by what joins it. -/
theorem copyInstructionsQueue : Obligations.CopyInstructionsQueue := by
  unfold Obligations.CopyInstructionsQueue
  refine ⟨?tiles, ?bytes, ?weights, ?stalls, fun s f c p e t => issueCopy_joins⟩
  case tiles =>
    simp only [List.forall_mem_cons]
    refine ⟨?_, ?_, List.forall_mem_nil _⟩ <;>
    · rintro f s v d va n hr rfl hd hn hva hfree hrows hgood haligned hpitch
      exact ⟨_, issued_does rfl hr (tileIssue_queues hd hn hva hfree hrows hgood haligned hpitch), rfl⟩
  case bytes =>
    simp only [List.forall_mem_cons]
    refine ⟨?_, ?_, ?_, List.forall_mem_nil _⟩ <;>
    · intro f s v len hr hv hdst hsrc hlen hwords hmax hapart
      exact bytesIssue_does hdst hsrc hlen hwords hmax hapart rfl hr hv
  case weights =>
    intro f s v d index hr hv hd hgood hfmt hindex hscale hfree
    exact cpyw_queues hr hv hd hgood hfmt hindex hscale hfree
  case stalls =>
    simp only [List.forall_mem_cons]
    exact ⟨fun f s v hr hv into => stalls_on_copy rfl hr hv (if_pos into), fun f s v hr hv into => stalls_on_copy rfl hr hv (if_pos into),
      fun f s v hr hv into => stalls_on_copy rfl hr hv (if_pos into), List.forall_mem_nil _⟩

end Sys2Proof.Machine
end

section
/-! PROOFS. The copy unit (R229, R231): what a chunk counts as it translates may change the tables by which its own reads are translated (R217, R219), and then it reads other bytes than were there. -/

namespace Sys2Proof.Machine

/-- The chunk of a CPYW that fills a tile scale from an address, where that read is allowed. -/
theorem State.copyChunk_scale {s : State} {n : Nat} {d : List W32} {va a : Word} {klen cols : Nat} {sparse bank : Bool} (h : s.judge n (accs Want.load 4 [a]) = .allowed) :
    s.copyChunk n (.weights d va klen cols (some a) sparse bank) 128 = .done ((s.noteAccs n (accs Want.load 4 [a])).fillBankScale n (bitNat bank) (some a)) := by
  simp only [State.copyChunk, State.weightsChunk, Nat.lt_irrefl, if_false, if_true, State.chunk, h]

/-- An address whose level-0 index is 0x341, the number of TLBMISS. -/
def missIndexed : Word := 0x341 * 2 ^ 42

/-- Core 0 with no TLB entry, and its level-0 table in window 0x0B of its own registers, where the walk reads it: TLBMISS, which is 5, maps the 2^42 bytes from physical address 0 on for reading.
The byte there is 7. -/
def tableInRegisters : State :=
  ({ Tests.at0 .ld with mem := [(0, 7)] } : State).modCore 0 (fun c =>
    { c with tlb := [], sys := [(0x2A0, BitVec.ofNat 64 (windowAddr 0 11 0)), (0x341, 5)] })

/-- The chunk of a CPYW that fills the tile scale of bank 0 from that address. -/
def scaleChunk : Copy := .weights [] 0 1 1 (some missIndexed) false false

theorem tableInRegisters_plain : tableInRegisters.Plain 0 missIndexed 4 := ⟨⟨0, 42, 1⟩, by decide +kernel, by decide +kernel⟩

theorem tableInRegisters_load : tableInRegisters.load 0 missIndexed 4 = 7 := by decide +kernel

/-- The same once a TLB miss is counted: 6 is no valid entry. -/
def missCounted : State := tableInRegisters.modCore 0 (fun c => c.setSys 0x341 (c.sysreg 0x341 + BitVec.ofNat 64 1))

theorem missCounted_load : missCounted.load 0 missIndexed 4 = 0 := by decide +kernel

/-- The one access of the chunk is a TLB miss. -/
theorem scaleChunk_notes : tableInRegisters.noteAccs 0 (accs Want.load 4 [missIndexed]) = missCounted := by
  have one : tableInRegisters.misses 0 ((accs Want.load 4 [missIndexed]).map (fun a => a.va)) = 1 := by decide +kernel
  have quiet : missCounted.weak.isEmpty = true := rfl
  rw [State.noteAccs, State.countMisses, one, if_neg Nat.one_ne_zero]
  exact if_pos quiet

theorem scaleChunk_done : tableInRegisters.copyChunk 0 scaleChunk 128 = .done (missCounted.fillBankScale 0 (bitNat false) (some missIndexed)) := by
  rw [← scaleChunk_notes]
  exact State.copyChunk_scale (by decide +kernel)

/-- The tile scale is what a read finds once the miss is counted. -/
theorem scaleChunk_tile : Tab.get ((missCounted.fillBankScale 0 (bitNat false) (some missIndexed)).core 0).mx.tile (bitNat false) 0 =
    BitVec.ofNat 32 (missCounted.load 0 missIndexed 4) := by
  rw [State.fillBankScale, State.core_modCore_same, Core.setTile, Tab.get_put0_same]

/-- Refutes O39: in the clause about the tile scale of a CPYW, a word that is plain memory when the chunk begins need not be read as it was then. Where the context's level-0 table
stands in window 0x0B, the count of the chunk's own TLB misses changes the entry by which the word is translated. The clause lacks the hypothesis that State.Run has: that the
translations stand in a TLB or in the window map. -/
theorem not_copyChunks : ¬ Obligations.CopyChunks := by
  unfold Obligations.CopyChunks
  intro h
  obtain ⟨-, -, -, -, -, -, -, -, weights⟩ := h 0 .ld tableInRegisters (by decide)
  obtain ⟨-, scale, -, -⟩ := weights [] 0 1 1 (some missIndexed) false false 128 _ (bitNat false) scaleChunk_done rfl
  have read : BitVec.ofNat 32 (missCounted.load 0 missIndexed 4) = BitVec.ofNat 32 (tableInRegisters.load 0 missIndexed 4) := scaleChunk_tile.symm.trans (scale rfl (fun a ha => by
    obtain rfl : missIndexed = a := Option.some.inj ha
    exact tableInRegisters_plain))
  rw [missCounted_load, tableInRegisters_load] at read
  exact absurd read (by decide)

end Sys2Proof.Machine
end

section
/-! SUPPORT. The canonical form of memory (DESIGN CHOICE, log 6) is kept by what every instruction shares: writes, faults, waits, issue, permits, signals and fetching. Only State.physWrite and what takes bytes out of memory change the list of bytes; each operation keeps the form because those that it is made of do. -/

namespace Sys2Proof.Machine

/-- Where memory is canonical in s, it is in t. -/
def State.KeepsForm (s t : State) : Prop := Memory.wf s.mem = true → Memory.wf t.mem = true

theorem State.KeepsForm.refl (s : State) : s.KeepsForm s := id

namespace State.KeepsForm

variable {b s t : State} (h : b.KeepsForm s)
include h

/-! ### The shapes of which operations are made -/

theorem of_mem (hm : t.mem = s.mem) : b.KeepsForm t := fun wf => hm ▸ h wf

theorem ite {c : Prop} [Decidable c] (g : b.KeepsForm t) : b.KeepsForm (if c then s else t) := by split <;> assumption

theorem foldl {β : Type} {l : List β} {g : State → β → State} (hg : ∀ t x, b.KeepsForm t → b.KeepsForm (g t x)) : b.KeepsForm (l.foldl g s) := by
  induction l generalizing s with
  | nil => exact h
  | cons x r ih => exact ih (hg _ _ h)

theorem modCore {n : Nat} {g : Core → Core} : b.KeepsForm (s.modCore n g) := h
theorem setCore {n : Nat} {c : Core} : b.KeepsForm (s.setCore n c) := h
theorem modMyCore {g : Core → Core} : b.KeepsForm (s.modMyCore g) := h
theorem modSeq {n : Nat} {q : SeqId} {g : Seq → Seq} : b.KeepsForm (s.modSeq n q g) := h
theorem setSeq {n : Nat} {q : SeqId} {v : Seq} : b.KeepsForm (s.setSeq n q v) := h
theorem modMe {g : Seq → Seq} : b.KeepsForm (s.modMe g) := h
theorem setBay {k : Nat} {v : Bay} : b.KeepsForm (s.setBay k v) := h
theorem setQuad {k : Nat} {v : Quad} : b.KeepsForm (s.setQuad k v) := h
theorem setStack {k : Nat} {v : Stack} : b.KeepsForm (s.setStack k v) := h
theorem setPkg {k : Nat} {v : Pkg} : b.KeepsForm (s.setPkg k v) := h
theorem spend : b.KeepsForm s.spend := h
theorem useFree {free : Bool} : b.KeepsForm (s.useFree free) := by unfold State.useFree; split <;> exact h

/-! ### Bytes and their errors (R214, R217, R239, R378) -/

theorem charge {n bits : Nat} : b.KeepsForm (s.charge n bits) := h.of_mem (s.charge_mem n bits)
theorem logError {pa : Nat} {kind : ErrorKind} : b.KeepsForm (s.logError pa kind) := h
theorem correct {w : Nat} : b.KeepsForm (s.correct w) := h
theorem corrects {l : List Nat} : b.KeepsForm (l.foldl State.correct s) := h.foldl fun _ _ ht => ht.correct
theorem heal {pa n : Nat} : b.KeepsForm (s.heal pa n) := h
theorem mailbox {n : Nat} {v : Word} : b.KeepsForm (s.mailbox n v) := h.of_mem (s.mailbox_mem n v)
theorem deviceWrite {p off size : Nat} {v : Word} : b.KeepsForm (s.deviceWrite p off size v) := fun wf => s.deviceWrite_wf p off size v (h wf)
theorem windowWrite {n w off size : Nat} {v : Word} : b.KeepsForm (s.windowWrite n w off size v) := fun wf => s.windowWrite_wf n w off size v (h wf)
theorem physWrite {key : Option Nat} {pa size : Nat} {v : Word} : b.KeepsForm (s.physWrite key pa size v) := fun wf => s.physWrite_wf key pa size v (h wf)
theorem performStore {st : Store} : b.KeepsForm (s.performStore st) := h.physWrite
theorem performAll {l : List Store} : b.KeepsForm (s.performAll l) := h.foldl fun _ _ ht => ht.performStore
theorem drainQueue {n : Nat} {q : SeqId} : b.KeepsForm (s.drainQueue n q) := h.modSeq.performAll
theorem drainPaths {n : Nat} {q : SeqId} {v w : Bool} : b.KeepsForm (s.drainPaths n q v w) := h.modSeq.performAll
theorem behindWrites {n : Nat} {q : SeqId} {vas : List Word} : b.KeepsForm (s.behindWrites n q vas) := h.drainPaths
theorem behind {n : Nat} {q : SeqId} {size : Nat} {vas : List Word} : b.KeepsForm (s.behind n q size vas) := h.drainQueue.ite h
theorem engineWrite {n : Nat} {va : Word} {size : Nat} {v : Word} : b.KeepsForm (s.engineWrite n va size v) := h.performAll
theorem loadLanes {n : Nat} {e : Bool} {o : BitVec 12} {w : Nat} {meets : Nat → Bool} {vals : List (Nat × Word)} : b.KeepsForm (s.loadLanes n e o w meets vals) :=
  h.setCore.charge

/-- Bytes that are taken out of memory (R18, R233, R234). -/
theorem zeroRange {lo hi : Nat} : b.KeepsForm (s.zeroRange lo hi) := fun wf => Memory.filter_wf _ _ (h wf)

/-! ### What accesses leave beside their data (R13, R221, R378) -/

theorem countMisses {n : Nat} {vas : List Word} : b.KeepsForm (s.countMisses n vas) := h.ite h.modCore
theorem noteAccess {n : Nat} {read : Bool} {size : Nat} {vas : List Word} : b.KeepsForm (s.noteAccess n read size vas) :=
  h.countMisses.ite (h.countMisses.corrects)
theorem fillL1 {n : Nat} {read : Bool} {vas : List Word} : b.KeepsForm (s.fillL1 n read vas) := h.modCore.ite h
theorem noteData {n : Nat} {read : Bool} {size : Nat} {vas : List Word} : b.KeepsForm (s.noteData n read size vas) := h.fillL1.noteAccess
theorem takeLine {n : Nat} {va : Word} : b.KeepsForm (s.takeLine n va) := by
  obtain ⟨l, same⟩ := s.takeLine_frame n va
  rw [same]
  exact h

/-! ### The fault queue (R315) -/

theorem noteFqWalk {stack : Nat} : b.KeepsForm (s.noteFqWalk stack) := h.ite h.corrects

theorem fqWrite {stack pa : Nat} {e : FqEntry} : b.KeepsForm (s.fqWrite stack pa e) := by
  have hw : b.KeepsForm (e.words.zipIdx.foldl (fun t p => t.physWrite (s.fqSlotKey stack) (pa + 8 * p.2) 8 p.1) (s.noteFqWalk stack)) :=
    h.noteFqWalk.foldl fun _ _ ht => ht.physWrite
  exact hw

theorem postFault {n : Nat} {e : FqEntry} : b.KeepsForm (s.postFault n e) := by
  unfold State.postFault
  dsimp only
  split
  · exact h
  · split
    · exact .ite h.modCore h.fqWrite
    · exact h.noteFqWalk

theorem flushCore {n : Nat} {l : List FqEntry} : b.KeepsForm (s.flushCore n l) := by
  induction l generalizing s with
  | nil => exact h
  | cons e rest ih =>
    unfold State.flushCore
    dsimp only
    split
    · exact h
    · split
      · exact h.noteFqWalk
      · exact .ite h (ih h.fqWrite)

theorem flushStack {stack : Nat} : b.KeepsForm (s.flushStack stack) := h.foldl fun _ _ ht => ht.flushCore.ite ht
theorem flushFaults {pkg : Nat} : b.KeepsForm (s.flushFaults pkg) := h.foldl fun _ _ ht => ht.flushStack

/-! ### Faults (R49, R103, R235, R312, R352) -/

theorem faultAt {n : Nat} {q : SeqId} {cause : Nat} {ufaddr epc : Word} {straddle : Bool} : b.KeepsForm (s.faultAt n q cause ufaddr epc straddle) :=
  .ite h.setSeq (.postFault (.ite (h.setSeq.modCore) h.setSeq))

theorem notePermit {p : Permit} {kind : PermitKind} : b.KeepsForm (s.notePermit p kind) := h
theorem notePermits {l : List Permit} {kind : PermitKind} : b.KeepsForm (s.notePermits l kind) := h.foldl fun _ _ ht => ht.notePermit
theorem withdrawPermits {n : Nat} {q : SeqId} {clst : Bool} : b.KeepsForm (s.withdrawPermits n q clst) := .ite (h.setQuad.notePermits) h
theorem leaveLine {n : Nat} {q : SeqId} : b.KeepsForm (s.leaveLine n q) := .ite h.setBay h

theorem withdraw {n : Nat} {q : SeqId} : b.KeepsForm (s.withdraw n q) :=
  h.ite (.ite ((h.modCore.withdrawPermits).leaveLine) (h.withdrawPermits.leaveLine))

theorem noteBad {n cause : Nat} {va : Word} : b.KeepsForm (s.noteBad n cause va) := by
  unfold State.noteBad
  split
  · exact .ite h.logError h
  · exact .ite h.logError h
  · exact h

theorem takeFault {cause : Nat} {ufaddr : Word} : b.KeepsForm (s.takeFault cause ufaddr) := .faultAt (.ite (h.withdraw.noteBad) h.withdraw)

theorem freezeCore {n : Nat} {q : SeqId} {fz : Freeze} {cause : Nat} {va pc : Word} {chunk : Nat} : b.KeepsForm (s.freezeCore n q fz cause va pc chunk) :=
  (h.noteBad.modCore).postFault

theorem timeOut {kind : Nat} {id : Word} : b.KeepsForm (s.timeOut kind id) := h.notePermits.takeFault

theorem waitFor {kind : Nat} {id : Word} : b.KeepsForm (s.waitFor kind id) := by
  unfold State.waitFor
  dsimp only
  split
  · exact h
  · exact .ite h.modMe (.ite h.timeOut h.modMe)

theorem endWait : b.KeepsForm s.endWait := by
  unfold State.endWait
  split
  · exact h.ite h
  · exact h

theorem stallDrain {cnt : Nat} : b.KeepsForm (s.stallDrain cnt) := h.ite h

/-! ### Issue (R49, R90, R97, R100, R242) -/

theorem interlock {uses : List Res} : b.KeepsForm (s.interlock uses) := .ite h.modMyCore h

theorem addFlags {fl : Nat} : b.KeepsForm (s.addFlags fl) := h.ite h
theorem addAtFlags {n : Nat} {q : SeqId} {fl : Nat} : b.KeepsForm (s.addAtFlags n q fl) := h.ite h

omit h in
/-- What follows an instruction's own effect keeps the form. -/
theorem commit {d : Done} (h : b.KeepsForm d.st) {s : State} {c : Code} {f : Fields} : b.KeepsForm (s.commit c f d) := fun wf => s.commit_wf c f d (h wf)

/-! ### Registers (R280, R315, R316) -/

theorem writeFqSetup {writer stack num : Nat} {v : Word} : b.KeepsForm (s.writeFqSetup writer stack num v) := by
  unfold State.writeFqSetup
  dsimp only
  split
  · exact h
  · exact h.setStack.flushStack

theorem writeFqHead {stack : Nat} {v : Word} : b.KeepsForm (s.writeFqHead stack v) := h.setStack.flushStack

theorem writeBayReg {n : Nat} {q : SeqId} {num : Nat} {v : Word} : b.KeepsForm (s.writeBayReg n q num v) := by
  unfold State.writeBayReg
  dsimp only
  split
  · exact h
  · split <;> exact h

theorem writeStackReg {writer n num : Nat} {r : RegInfo} {v : Word} : b.KeepsForm (s.writeStackReg writer n num r v) := by
  unfold State.writeStackReg
  dsimp only
  split
  · exact h.writeFqSetup
  · exact h.writeFqSetup
  · exact h.writeFqHead
  · exact h

theorem writeReg {writer n : Nat} {q : SeqId} {num : Nat} {v : Word} : b.KeepsForm (s.writeReg writer n q num v) := by
  unfold State.writeReg
  split
  · exact h
  · split
    · exact h
    · split
      case h_3 => exact h.writeBayReg
      case h_5 => exact h.writeStackReg
      all_goals exact h

/-! ### Permits (R351 to R353, R356) -/

theorem addGrant {quad : Nat} {asks : List Permit} {p : Permit} : b.KeepsForm (s.addGrant quad asks p) := h
theorem addAsk {quad : Nat} {p : Permit} : b.KeepsForm (s.addAsk quad p) := h

theorem releaseFirst {quad : Nat} {test : Permit → Bool} : b.KeepsForm (s.releaseFirst quad test) := by
  unfold State.releaseFirst
  dsimp only
  split <;> exact h

theorem releasePermit {n : Nat} {q : SeqId} {holder : Holder} : b.KeepsForm (s.releasePermit n q holder) := h.releaseFirst
theorem releaseTransfer {n : Nat} {q : SeqId} {tag : Nat} : b.KeepsForm (s.releaseTransfer n q tag) := h.releaseFirst
theorem askAgain {n : Nat} {q : SeqId} {holder : Holder} {weight tag : Nat} : b.KeepsForm (s.askAgain n q holder weight tag) := h
theorem reaskPermit {n : Nat} {q : SeqId} {holder : Holder} {weight : Nat} : b.KeepsForm (s.reaskPermit n q holder weight) := h.releasePermit.askAgain
theorem reaskTransfer {n : Nat} {q : SeqId} {tag : Nat} : b.KeepsForm (s.reaskTransfer n q tag) := h.releaseTransfer.askAgain
theorem withdrawAsk {n : Nat} {q : SeqId} {holder : Holder} : b.KeepsForm (s.withdrawAsk n q holder) := h
theorem dropExplicit {n : Nat} {q : SeqId} : b.KeepsForm (s.dropExplicit n q) := h.ite (h.releasePermit.modSeq)
theorem haltMe : b.KeepsForm s.haltMe := h.dropExplicit.modMe

/-! ### The stream controller's signals and entries (R335, R338, R347) -/

theorem asIssuer {e : Entry} : b.KeepsForm (s.asIssuer e) := h
theorem backFrom {e : Entry} {old : State} : b.KeepsForm (s.backFrom e old) := h
theorem noteController {e : Entry} {size : Nat} {vas : List Word} : b.KeepsForm (s.noteController e size vas) := h.ite h.corrects
theorem flushPosted {stack : Nat} : b.KeepsForm (s.flushPosted stack) := h.drainQueue
theorem putSignal {stack : Nat} {e : Entry} {v : Word} : b.KeepsForm (s.putSignal stack e v) := .ite h.modSeq h.asIssuer.performAll.backFrom

theorem succeed {stack : Nat} {e : Entry} : b.KeepsForm (s.succeed stack e) := by
  unfold State.succeed
  split
  · exact h
  · split
    · exact h
    · exact .ite (h.noteController.putSignal) h.noteController

theorem failSignal {stack : Nat} {e : Entry} : b.KeepsForm (s.failSignal stack e) := h.ite h.putSignal
theorem leaveBoard {stack : Nat} {e : Entry} {old : State} : b.KeepsForm (s.leaveBoard stack e old) := by unfold State.leaveBoard; split <;> exact h
theorem failEntry {stack : Nat} {e : Entry} : b.KeepsForm (s.failEntry stack e) := h.ite ((h.failSignal.leaveBoard).setStack)
theorem endEntry {stack : Nat} {e : Entry} : b.KeepsForm (s.endEntry stack e) := h.succeed.leaveBoard
/-- What R315 leaves open takes fresh values. -/
theorem takeFresh {k : Nat} : b.KeepsForm { s with fresh := k } := h
theorem controllerFault {stack : Nat} {e : Entry} {cause : Nat} {info : Word} : b.KeepsForm (s.controllerFault stack e cause info) :=
  (h.takeFresh (k := s.fresh + 6)).postFault

/-! ### Cycles and fetching (R22, R26, R50, R51, R208, R320, R325) -/

theorem tick {n : Nat} : b.KeepsForm (s.tick n) := by unfold State.tick; dsimp only; split <;> exact h
theorem tickControl {n ctrl : Nat} : b.KeepsForm (s.tickControl n ctrl) := h.ite h
theorem noteFetched {n : Nat} {pc : Word} : b.KeepsForm (s.noteFetched n pc) := h.noteAccess
theorem noteFetch {cause : Nat} {a : Word} : b.KeepsForm (s.noteFetch cause a) := .ite (.ite h.logError h.noteBad) h
theorem takeBreakpoint {i : Nat} : b.KeepsForm (s.takeBreakpoint i) := h.takeFault

theorem before (ht : s.before = some t) : b.KeepsForm t := by
  unfold State.before at ht
  split at ht
  · cases ht
  · split at ht
    · cases ht
      exact h.modMe.takeFault
    · split at ht
      · cases ht
        exact h.modMyCore.takeFault
      · split at ht
        · cases ht
          exact h.takeBreakpoint
        · cases ht

theorem takeMark {cause : Nat} {straddle : Bool} {a : Word} : b.KeepsForm (s.takeMark cause straddle a) := ((h.withdraw.modMyCore).noteFetch).faultAt

end State.KeepsForm

end Sys2Proof.Machine
end

section
/-! SUPPORT. What instructions do: an effect (Eff) and an outcome (Out) keep the canonical form of memory where every state in them does, and an outcome answers where it is a state, no fault or refusal of the model's own. -/

namespace Sys2Proof.Machine

/-- The effect of an instruction keeps the form: each state that it hands on does. -/
def State.KeepsEff (b : State) : Eff → Prop
  | .done d => b.KeepsForm d.st
  | .waitWith t _ _ => b.KeepsForm t
  | .stall t => b.KeepsForm t
  | .whole t => b.KeepsForm t
  | _ => True

/-- The outcome is a state, and that state keeps the form. -/
def State.Answers (b : State) : Out → Prop
  | .next t => b.KeepsForm t
  | _ => False

theorem State.Answers.exists_next {b : State} {o : Out} (h : b.Answers o) : ∃ t, o = .next t ∧ b.KeepsForm t := by
  cases o with
  | next t => exact ⟨t, rfl, h⟩
  | fault r => exact h.elim
  | refused r => exact h.elim

theorem State.Answers.ite {b : State} {o o' : Out} {c : Prop} [Decidable c] (h : b.Answers o) (h' : b.Answers o') : b.Answers (if c then o else o') := by
  split <;> assumption

theorem State.KeepsEff.ite {b : State} {e e' : Eff} {c : Prop} [Decidable c] (h : b.KeepsEff e) (h' : b.KeepsEff e') : b.KeepsEff (if c then e else e') := by
  split <;> assumption

namespace State.KeepsForm

variable {b s t : State} {c : Code} {f : Fields} (h : b.KeepsForm s)
include h

/-! ### Issue (R49, R90, R100) -/

theorem settleEff {e : Eff} (he : b.KeepsEff e) : b.KeepsForm (s.settleEff c f e) := by
  cases e with
  | done d => exact .ite h.endWait (.commit he)
  | trap => exact h.takeFault
  | trapOpen => exact h.spend.takeFault
  | wait => exact h.waitFor
  | waitWith => exact KeepsForm.waitFor he
  | stall => exact KeepsForm.endWait he
  | whole => exact he

theorem execute {body : State → Eff} (hb : ∀ t, b.KeepsForm t → b.KeepsEff (body t)) : b.KeepsForm (s.execute c f body) := by
  have own : b.KeepsForm (s.settleEff c f (s.runBody c f body)) := h.settleEff (hb _ h.interlock)
  have missed : b.KeepsForm ((s.modMe Seq.countMiss).settleEff c f ((s.modMe Seq.countMiss).runBody c f body)) := h.modMe.settleEff (hb _ h.modMe.interlock)
  unfold State.execute
  split
  · exact own
  · exact own.ite (h.takeFault.ite (own.ite missed))

theorem issue {body : State → Eff} (hb : ∀ t, b.KeepsForm t → b.KeepsEff (body t)) : b.KeepsForm (s.issue c f body) := by
  unfold State.issue
  split
  · exact h.takeFault
  · exact h.waitFor.ite (h.waitFor.ite (h.execute hb))

theorem issued {body : State → Eff} (hb : ∀ t, b.KeepsForm t → b.KeepsEff (body t)) : b.Answers (issued c f body s) := h.issue hb

/-! ### What bodies share (R85, R97, R105, R158, R216, R351) -/

theorem putReg {o : BitVec 12} {v : Word} : b.KeepsEff (putReg s o v) := h
theorem writeLanes {e : Bool} {d : BitVec 12} {w : Nat} {meets : Nat → Bool} {vals : List (Nat × Nat)} : b.KeepsEff (.done (s.writeLanes e d w meets vals)) := h.charge

theorem withFlags {l : List FpEvent} {k : State → Eff} (hk : ∀ t, b.KeepsForm t → b.KeepsEff (k t)) : b.KeepsEff (s.withFlags l k) :=
  .ite trivial (hk _ h.addFlags)

theorem access {want : Want} {size : Nat} {vas : List Word} {k : State → Eff} (hk : ∀ t, b.KeepsForm t → b.KeepsEff (k t)) :
    b.KeepsEff (s.access want size vas k) := by
  unfold State.access
  dsimp only
  refine .ite h (.ite h.stallDrain ?_)
  split
  · trivial
  · exact hk _ (KeepsForm.noteData (.ite h.behind h))

theorem judged {l : List Acc} {j : Judged} {k : State → Eff} (hk : ∀ t, b.KeepsForm t → b.KeepsEff (k t)) : b.KeepsEff (s.judged l j k) := by
  unfold State.judged
  refine .ite h ?_
  cases j with
  | stalls n => exact h.stallDrain
  | fault cause va => trivial
  | allowed => exact hk _ (KeepsForm.noteData (.ite h.behindWrites h.behind))

theorem withPermit {p : Holder} {weight : Nat} {k : State → Eff} (hk : ∀ t, b.KeepsForm t → b.KeepsEff (k t)) : b.KeepsEff (s.withPermit p weight k) := by
  unfold State.withPermit
  dsimp only
  split
  · exact hk _ h.setQuad
  · split
    · exact .ite (hk _ h.notePermit.addGrant) h.addAsk
    · exact .ite (hk _ h.addGrant) (.ite trivial h.addAsk)

theorem release {k : State → Eff} (hk : ∀ t, b.KeepsForm t → b.KeepsEff (k t)) : b.KeepsEff (s.release k) := .ite h (hk _ h.drainQueue)

theorem readDescriptor {va : Word} {k : State → List W32 → Eff} (hk : ∀ t l, b.KeepsForm t → b.KeepsEff (k t l)) : b.KeepsEff (readDescriptor s va k) :=
  .ite trivial (h.access fun _ ht => hk _ _ ht)

/-! ### Control instructions (R68 to R93) -/

theorem regReg {op : Word → Word → Word} : b.Answers (regReg c f op s) := h.issued fun _ ht => ht.putReg
theorem regImm {op : Word → Word → Word} : b.Answers (regImm c f op s) := h.issued fun _ ht => ht.putReg
theorem regOne {op : Word → Word} : b.Answers (regOne c f op s) := h.issued fun _ ht => ht.putReg
theorem branchReg {cond : Word → Word → Bool} : b.Answers (branchReg c f cond s) := h.issued fun _ ht => ht
theorem branchImm {cond : Word → Word → Bool} : b.Answers (branchImm c f cond s) := h.issued fun _ ht => ht

theorem jumpTo {va : Word} {link : Option Word} : b.KeepsEff (jumpTo s va link) := by
  unfold Machine.jumpTo
  refine .ite trivial ?_
  split <;> exact h

theorem execHalt : b.Answers (execHalt f s) := h.issued fun _ ht => .ite ht.haltMe ht
theorem execWaitc : b.Answers (execWaitc f s) := h.issued fun _ ht => .ite trivial ht
theorem execMfs : b.Answers (execMfs f s) := h.issued fun _ ht => ht.useFree.putReg
theorem execMts : b.Answers (execMts f s) := h.issued fun _ ht => .ite trivial ht.writeReg
theorem execLds : b.Answers (execLds f s) := h.issued fun _ ht => ht.access fun _ hu => hu.putReg
theorem execSts : b.Answers (execSts f s) := h.issued fun _ ht => ht.access fun _ hu => hu

/-! ### Vector instructions (R105 to R125) -/

theorem vec1 {op : Nat → Nat → Nat} : b.Answers (vec1 c f op s) := h.issued fun _ ht => ht.writeLanes
theorem vec2 {op : Nat → Nat → Nat → Nat → Nat} : b.Answers (vec2 c f op s) := h.issued fun _ ht => ht.writeLanes
theorem vecRed {op : Nat → Nat → Nat → Nat → Nat} : b.Answers (vecRed c f op s) := h.issued fun _ ht => ht.writeLanes
theorem vecIn {op : Nat → Nat → Nat → Nat → Nat} : b.Answers (vecIn c f op s) := h.issued fun _ ht => ht
theorem vecPerm {src : State → Nat → Option Nat} : b.Answers (vecPerm c f src s) := h.issued fun _ ht => ht
theorem execVsel : b.Answers (execVsel f s) := h.issued fun _ ht => ht.writeLanes
theorem execVmulin : b.Answers (execVmulin f s) := h.issued fun _ ht => .ite trivial ht
theorem execErase : b.Answers (execErase f s) := h.issued fun _ ht => ht.writeLanes

theorem keepPlane {p : Plane} {lands : List Land} : b.KeepsEff (keepPlane s p lands) := .ite trivial h.modMyCore

theorem popPlane {k : State → Plane → Eff} (hk : ∀ t p, b.KeepsForm t → b.KeepsEff (k t p)) : b.KeepsEff (popPlane s k) := by
  unfold Machine.popPlane
  split
  · trivial
  · exact hk _ _ h.modMyCore

theorem planeRange {want : Want} {va : Word} {n : Nat} {k : State → Eff} (hk : ∀ t, b.KeepsForm t → b.KeepsEff (k t)) : b.KeepsEff (planeRange s want va n k) :=
  .ite trivial (h.access hk)

theorem keepPair {before : Nat → Nat → Nat → Bool} : b.Answers (keepPair c f before s) := h.issued fun _ ht => ht.keepPlane
theorem execVabsk : b.Answers (execVabsk f s) := h.issued fun _ ht => ht.keepPlane
theorem execVuncx : b.Answers (execVuncx f s) := h.issued fun _ ht => ht.popPlane fun _ _ hu => hu.charge
theorem execVunabs : b.Answers (execVunabs f s) := h.issued fun _ ht => ht.popPlane fun _ _ hu => hu.charge
theorem execNpush : b.Answers (execNpush f s) := h.issued fun _ ht => ht.keepPlane
theorem execNunpush : b.Answers (execNunpush f s) := h.issued fun _ ht => ht.popPlane fun _ _ hu => hu.charge
theorem execNpop : b.Answers (execNpop f s) := h.issued fun _ ht => ht.popPlane fun _ _ hu => hu.charge
theorem execNdrop : b.Answers (execNdrop f s) := h.issued fun _ ht => .ite trivial ht.modMyCore.charge
theorem execNspill : b.Answers (execNspill f s) := h.issued fun _ ht => .ite trivial (ht.planeRange fun _ hu => hu.modMyCore)
theorem execNfill : b.Answers (execNfill f s) := h.issued fun _ ht => .ite trivial (ht.planeRange fun _ hu => hu.modMyCore)

/-! ### Floating point and conversions (R145 to R170) -/

theorem fpResult {w : Nat} {srcs : List (BitVec 12)} {lane : Nat → FpOut} : b.KeepsEff (fpResult s f w srcs lane) := h.withFlags fun _ ht => ht.writeLanes
theorem vf1 {op : Fmt → FpEnv → Nat → FpOut} : b.Answers (vf1 c f op s) := h.issued fun _ ht => ht.fpResult
theorem vf2 {op : Fmt → FpEnv → Nat → Nat → FpOut} : b.Answers (vf2 c f op s) := h.issued fun _ ht => ht.fpResult
theorem vf3 {wide : Fmt} {negP negC : Bool} : b.Answers (vf3 c f wide negP negC s) := h.issued fun _ ht => ht.fpResult
theorem vfRed {abs : Bool} {op : Fmt → FpEnv → Nat → Nat → FpOut} : b.Answers (vfRed c f abs op s) := h.issued fun _ ht => ht.withFlags fun _ hu => hu.writeLanes
theorem execVcvt : b.Answers (execVcvt f s) := h.issued fun _ ht => ht.fpResult
theorem execVqnt : b.Answers (execVqnt f s) := h.issued fun _ ht => ht.fpResult
theorem execVdqnt : b.Answers (execVdqnt f s) := h.issued fun _ ht => ht.fpResult
theorem execVscl : b.Answers (execVscl f s) := h.issued fun _ ht => ht.withFlags fun _ hu => hu.writeLanes
theorem execVpack : b.Answers (execVpack f s) := h.issued fun _ ht => ht.writeLanes
theorem execVunpk : b.Answers (execVunpk f s) := h.issued fun _ ht => ht.writeLanes
theorem execVsplit : b.Answers (execVsplit f s) := h.issued fun _ ht => ht.fpResult

/-! ### The matrix array (R171 to R186) -/

theorem execMtt : b.Answers (execMtt f s) := h.issued fun _ ht => ht.drainQueue.modMyCore
theorem execMma : b.Answers (execMma f s) := h.issued fun _ ht => .ite ht ht.modMyCore
theorem execMlda : b.Answers (execMlda f s) := h.issued fun _ ht => .ite ht ht.modMyCore
theorem execWswap : b.Answers (execWswap f s) := h.issued fun _ ht => .ite ht ht.modMyCore
theorem execAclr : b.Answers (execAclr f s) := h.issued fun _ ht => .ite ht ht.modMyCore

omit h in
/-- The rows of an ADRN, one after the other. -/
theorem foldDone {β : Type} {l : List β} {g : Done → β → Done} {d : Done} (hd : b.KeepsForm d.st) (hg : ∀ d x, b.KeepsForm d.st → b.KeepsForm (g d x).st) :
    b.KeepsForm (l.foldl g d).st := by
  induction l generalizing d with
  | nil => exact hd
  | cons x r ih => exact ih (hg d x hd)

theorem execAdrn : b.Answers (execAdrn f s) :=
  h.issued fun _ ht => .ite ht (ht.withFlags fun _ hu => foldDone hu fun _ _ hd => hd.charge)

end State.KeepsForm

end Sys2Proof.Machine
end

section
/-! SUPPORT. The canonical form of memory through the data instructions: copies and their chunks, vector accesses, descriptors, the PHASE drain, grids, rings, buffers, flags, atomics and CLST. -/

namespace Sys2Proof.Machine

/-- A chunk keeps the form where it is done. -/
def State.KeepsChunk (b : State) : Chunk → Prop
  | .done t => b.KeepsForm t
  | _ => True

theorem State.KeepsChunk.ite {b : State} {k k' : Chunk} {c : Prop} [Decidable c] (h : b.KeepsChunk k) (h' : b.KeepsChunk k') : b.KeepsChunk (if c then k else k') := by
  split <;> assumption

namespace State.KeepsForm

variable {b s t : State} {c : Code} {f : Fields} (h : b.KeepsForm s)
include h

/-! ### Vector accesses and descriptors (R225 to R227) -/

theorem vectorLoad {meets : Nat → Bool} {va : State → Fields → Nat → Nat → Word} : b.Answers (vectorLoad c f meets va s) :=
  h.issued fun _ ht => ht.access fun _ hu => hu.loadLanes
theorem vectorStore {va : State → Fields → Nat → Nat → Word} : b.Answers (vectorStore c f va s) := h.issued fun _ ht => ht.access fun _ hu => hu
theorem execSdef : b.Answers (execSdef f s) := h.issued fun _ ht => ht.readDescriptor fun _ _ hu => hu.modMyCore

/-! ### Copies and their chunks (R228 to R235, R249, R297) -/

theorem issueCopy {k : Copy} {permit : Bool} : b.KeepsEff (issueCopy s f k permit) := h.drainQueue

theorem tileIssue {load : Bool} : b.KeepsEff (tileIssue s f load) := by
  unfold Machine.tileIssue
  refine .ite h (.ite trivial ?_)
  split
  · trivial
  · exact .ite trivial (.ite trivial h.issueCopy)

theorem bytesIssue {farSrc farDst grid : Bool} : b.KeepsEff (bytesIssue s f farSrc farDst grid) := by
  have none : b.KeepsForm (if farSrc || farDst then s.modMyCore (fun c => c.setSys 0x240 (c.sysreg 0x240 + 1)) else s) := .ite h.modMyCore h
  exact .ite trivial (.ite trivial (.ite trivial (.ite trivial (.ite none (.ite h.issueCopy (h.withPermit fun _ ht => ht.issueCopy))))))

theorem execTld : b.Answers (execTld f s) := h.issued fun _ ht => ht.tileIssue
theorem execTst : b.Answers (execTst f s) := h.issued fun _ ht => ht.tileIssue
theorem execCpy : b.Answers (execCpy f s) := h.issued fun _ ht => ht.bytesIssue
theorem execXput : b.Answers (execXput f s) := h.issued fun _ ht => ht.bytesIssue
theorem execXget : b.Answers (execXget f s) := h.issued fun _ ht => ht.bytesIssue

theorem execCpyw : b.Answers (execCpyw f s) := h.issued fun t ht => by
  dsimp only
  refine .ite ht ?_
  split
  · trivial
  · exact .ite trivial (.ite trivial ht.issueCopy)

theorem noteAccs {n : Nat} {l : List Acc} : b.KeepsForm (s.noteAccs n l) := h.countMisses.ite h.countMisses.corrects

theorem chunk {n : Nat} {l : List Acc} {k : State → State} (hk : ∀ t, b.KeepsForm t → b.KeepsForm (k t)) : b.KeepsChunk (s.chunk n l k) := by
  unfold State.chunk
  split
  · trivial
  · trivial
  · exact hk _ h.noteAccs

theorem healChunk {n : Nat} {start : Word} {len : Nat} : b.KeepsForm (s.healChunk n start len) := by
  unfold State.healChunk
  refine h.ite (h.foldl fun t va ht => ?_)
  split <;> exact ht

theorem engineWrites {β : Type} {l : List β} {n : Nat} {va : β → Word} {size : Nat} {v : β → Word} :
    b.KeepsForm (l.foldl (fun u p => u.engineWrite n (va p) size (v p)) s) := h.foldl fun _ _ ht => ht.engineWrite

theorem tileChunk {n : Nat} {load e : Bool} {field : BitVec 12} {width cols : Nat} {va pitch : Word} {j : Nat} :
    b.KeepsChunk (s.tileChunk n load e field width cols va pitch j) :=
  .ite (h.chunk fun _ ht => ht.loadLanes) (h.chunk fun _ ht => ht.healChunk.engineWrites)

theorem bytesChunk {n : Nat} {dst src : Word} {len : Nat} {farSrc farDst grid : Bool} {j : Nat} : b.KeepsChunk (s.bytesChunk n dst src len farSrc farDst grid j) := by
  unfold State.bytesChunk
  exact h.chunk fun _ ht => ht.healChunk.engineWrites

theorem fillBankRow {n bk k : Nat} {row : Word} {live : Nat} : b.KeepsForm (s.fillBankRow n bk k row live) := h
theorem fillBankIndex {n bk : Nat} {va : Word} : b.KeepsForm (s.fillBankIndex n bk va) := h
theorem fillBankScale {n bk : Nat} {scale : Option Word} : b.KeepsForm (s.fillBankScale n bk scale) := h

theorem weightsChunk {n : Nat} {d : List W32} {va : Word} {klen cols : Nat} {scale : Option Word} {bank : Bool} {j : Nat} :
    b.KeepsChunk (s.weightsChunk n d va klen cols scale bank j) := by
  unfold State.weightsChunk
  generalize 4096 = count
  dsimp only
  split
  · exact h.chunk fun _ ht => ht.fillBankRow
  · split
    · exact h.chunk fun _ ht => ht.fillBankScale
    · exact h.chunk fun _ ht => ht.fillBankIndex

theorem copyChunk {n : Nat} {k : Copy} {j : Nat} : b.KeepsChunk (s.copyChunk n k j) := by
  cases k with
  | tile => exact h.tileChunk
  | bytes => exact h.bytesChunk
  | weights => exact h.weightsChunk

theorem setTransfer {n : Nat} {q : SeqId} {x : Transfer} : b.KeepsForm (s.setTransfer n q x) := h
theorem retireCopy {n : Nat} {q : SeqId} {x : Transfer} : b.KeepsForm (s.retireCopy n q x) :=
  KeepsForm.modCore (s := if x.permit then s.releaseTransfer n q x.tag else s) (.ite h.releaseTransfer h)

theorem runChunk {n : Nat} {q : SeqId} {x : Transfer} : b.KeepsForm (s.runChunk n q x) := by
  unfold State.runChunk
  refine h.ite (.ite (h.ite h.reaskTransfer.setTransfer) ?_)
  have done : b.KeepsChunk (s.copyChunk n x.copy x.chunk) := h.copyChunk
  split
  · exact h.ite h.modCore.setTransfer
  · exact h.freezeCore
  next e =>
    rw [e] at done
    exact .ite (KeepsForm.setTransfer done) (KeepsForm.retireCopy done)

theorem streamChunk {stack : Nat} {e : Entry} : b.KeepsForm (s.streamChunk stack e) := by
  unfold State.streamChunk
  have done : b.KeepsChunk ((s.asIssuer e).bytesChunk e.node (e.at 0x08) (e.at 0x00) e.copyLen false false true e.chunk) := h.asIssuer.bytesChunk
  split
  · exact h
  · exact h.ite h.controllerFault.failEntry
  next he =>
    rw [he] at done
    exact (KeepsForm.backFrom done).setStack

theorem streamTurn {stack : Nat} : b.KeepsForm (s.streamTurn stack) := by
  unfold State.streamTurn
  dsimp only
  split
  · exact h.ite h.spend.streamChunk
  · exact h

theorem execCopyChunk {n : Nat} {q : SeqId} : b.Answers (execCopyChunk n q s) := by
  refine KeepsForm.ite (h.streamTurn.ite h) (KeepsForm.ite ?_ h)
  split
  · exact h.runChunk
  · exact h

/-! ### The PHASE drain, VAULTF and SMARK (R18, R233, R234, R244) -/

theorem resizeBay {bay size : Nat} : b.KeepsForm (s.resizeBay bay size) := h.zeroRange.setBay

theorem zeroRanges {β : Type} {l : List β} {lo hi : β → Nat} : b.KeepsForm (l.foldl (fun t x => t.zeroRange (lo x) (hi x)) s) := h.foldl fun _ _ ht => ht.zeroRange

theorem execPhase : b.Answers (execPhase f s) := h.issued fun _ ht => .ite trivial (.ite ht (.ite ht ht.setBay))

theorem execPhaseDrainEnd {bay : Nat} : b.Answers (execPhaseDrainEnd bay s) := by
  unfold Machine.execPhaseDrainEnd
  dsimp only [State.Answers]
  split
  · exact h
  · exact .ite h.resizeBay.modCore.flushFaults h

theorem execVaultf : b.Answers (execVaultf f s) :=
  h.issued fun _ ht => .ite trivial (.ite trivial (.ite trivial (.ite ht.drainQueue.zeroRanges ht.drainQueue.zeroRange)))

theorem issueMarks {fs : List (SeqId × Fields)} : b.KeepsForm (s.issueMarks fs) := h.foldl fun _ _ ht => commit ht

theorem execSmark : b.Answers (execSmark f s) := h.issued fun _ ht => .ite ht.drainQueue.issueMarks ht.drainQueue.modMe

/-! ### Grids (R257 to R273) -/

theorem noteVoid {void : Bool} : b.KeepsForm (s.noteVoid void) := by
  unfold State.noteVoid
  split <;> exact h

theorem withGrid {k : State → List W32 → Eff} (hk : ∀ t d, b.KeepsForm t → b.KeepsEff (k t d)) : b.KeepsEff (withGrid s f k) := by
  unfold Machine.withGrid
  dsimp only
  split
  · trivial
  · exact .ite trivial (hk _ _ h)

theorem gridCommand {k : State → List W32 → Eff} (hk : ∀ t d, b.KeepsForm t → b.KeepsEff (k t d)) : b.KeepsEff (gridCommand s f k) :=
  .ite h (h.drainQueue.withGrid hk)

theorem gridWeights {k : State → List W32 → Eff} (hk : ∀ t d, b.KeepsForm t → b.KeepsEff (k t d)) : b.KeepsEff (gridWeights s f k) := by
  unfold Machine.gridWeights
  refine .ite h (KeepsForm.withGrid ?_ hk)
  exact .ite h.drainQueue h

theorem execHgdef : b.Answers (execHgdef f s) := h.issued fun _ ht => ht.readDescriptor fun _ _ hu => by
  split
  · trivial
  · exact hu

theorem writeOutputs {outs : List (Nat × List (Nat × Nat))} : b.KeepsForm (writeOutputs s f outs) := h.foldl fun _ _ ht => ht.loadLanes

theorem execHgl : b.Answers (execHgl f s) :=
  h.issued fun _ ht => ht.gridCommand fun _ _ hu => .ite trivial (.ite trivial (hu.judged fun _ hv => hv.writeOutputs.noteVoid))

theorem execHgw : b.Answers (execHgw f s) := h.issued fun _ ht => ht.gridWeights fun _ _ hu => .ite trivial (.ite trivial hu.writeOutputs.noteVoid)

theorem gridAdd {n : Nat} {d : List W32} {va : Word} {v : Nat} : b.KeepsForm (s.gridAdd n d va v) := h.takeLine.engineWrite.addAtFlags

theorem gridAdds {d : List W32} {l : List (Word × Nat)} : b.KeepsForm (l.foldl (fun t p => t.gridAdd t.node d p.1 p.2) s) := h.foldl fun _ _ ht => ht.gridAdd

theorem scatter {merge : Bool} : b.KeepsEff (scatter f merge s) :=
  h.gridCommand fun _ _ ht => .ite trivial (ht.judged fun _ hu => hu.takeFresh.gridAdds.modMyCore.noteVoid)

theorem execHgsDet : b.Answers (execHgsDet f s) := h.issued fun _ ht => ht.scatter
theorem execHgsRel : b.Answers (execHgsRel f s) := h.issued fun _ ht => ht.scatter

/-! ### Rings, buffers, flags and fences (R248, R277 to R284) -/

theorem ringWait {id : Word} {ready : Bool} {k : State → Eff} (hk : ∀ t, b.KeepsForm t → b.KeepsEff (k t)) : b.KeepsEff (s.ringWait id ready k) :=
  .ite (hk _ h.setBay) (.ite trivial h.setBay)

theorem setRing {e : Nat} {r : Ring} : b.KeepsForm (s.setRing e r) := h
theorem execRngclaim : b.Answers (execRngclaim f s) := h.issued fun _ ht => ht.ringWait fun _ hu => hu.setRing.putReg
theorem execRngwait : b.Answers (execRngwait f s) := h.issued fun _ ht => ht.ringWait fun _ hu => hu.setRing.putReg
theorem execRngfill : b.Answers (execRngfill f s) := h.issued fun _ ht => .ite trivial (ht.release fun _ hu => KeepsForm.ite hu.setRing hu.setRing.spend)
theorem execRngfree : b.Answers (execRngfree f s) := h.issued fun _ ht => .ite trivial (ht.release fun _ hu => hu.setRing)
theorem execBacq : b.Answers (execBacq f s) := h.issued fun _ ht => .ite ht.modMyCore.putReg trivial
theorem execBrel : b.Answers (execBrel f s) := h.issued fun _ ht => ht.release fun _ hu => hu.modMyCore

theorem behindFlag {k : Nat} : b.KeepsForm (s.behindFlag k) := h.drainQueue.ite h

omit h in
theorem flagsReached {k : Nat} {ms : List Nat} {go : Eff} (hg : b.KeepsEff go) : b.KeepsEff (s.flagsReached k ms go) := by
  unfold State.flagsReached
  split
  · trivial
  · exact hg

theorem execRfadd : b.Answers (execRfadd f s) :=
  h.issued fun _ ht => .ite trivial (.ite trivial (flagsReached (ht.release fun _ hu => hu.modCore)))
theorem execMfset : b.Answers (execMfset f s) :=
  h.issued fun _ ht => flagsReached (ht.release fun _ hu => hu.foldl fun _ _ hv => hv.modCore)
theorem execFlagw : b.Answers (execFlagw f s) := h.issued fun _ ht => .ite ht (.ite ht.behindFlag.putReg ht.behindFlag)
theorem execFlagclr : b.Answers (execFlagclr f s) := h.issued fun _ ht => .ite ht ht
theorem execFlagrd : b.Answers (execFlagrd f s) := h.issued fun _ ht => .ite ht ht.behindFlag.putReg
theorem execFence : b.Answers (execFence f s) := h.issued fun _ ht => .ite ht (.ite ht (.ite ht.drainPaths ht.drainQueue))

/-! ### Atomics and scopes (R285 to R291) -/

theorem atomAt {op : AtomOp} {q w : Nat} {va : Word} {v cmp : Nat} : b.KeepsForm (s.atomAt op q w va v cmp).2 := h.takeLine.engineWrite.addAtFlags

theorem atomWord {op : AtomOp} : b.Answers (atomWord c f op s) :=
  h.issued fun _ ht => ht.judged fun _ hu => .ite (KeepsForm.putReg hu.atomAt) hu.atomAt

omit h in
/-- The lanes of a VATOM, one after the other. -/
theorem foldPair {α β : Type} {l : List β} {g : α × State → β → α × State} {p : α × State} (hp : b.KeepsForm p.2)
    (hg : ∀ p x, b.KeepsForm p.2 → b.KeepsForm (g p x).2) : b.KeepsForm (l.foldl g p).2 := by
  induction l generalizing p with
  | nil => exact hp
  | cons x r ih => exact ih (hg p x hp)

theorem atomLanes {op : AtomOp} : b.Answers (atomLanes c f op s) :=
  h.issued fun _ ht => ht.judged fun _ hu => by
    refine .ite (KeepsForm.loadLanes ?_) ?_
    · exact foldPair hu fun _ _ hp => hp.atomAt
    · exact foldPair hu fun _ _ hp => hp.atomAt

theorem execScopeset : b.Answers (execScopeset f s) := h.issued fun t ht => by
  dsimp only
  refine .ite ht ?_
  split
  · exact ht.stallDrain
  · trivial
  · exact .ite trivial ht.behind.noteData.modMyCore

/-! ### CLST (R302 to R306) -/

theorem collective {fn : Nat} : b.Answers (collective fn f s) :=
  h.issued fun _ ht => .ite ht (.ite trivial (.ite trivial (ht.withPermit fun _ hu => .ite hu.modMyCore hu.modMyCore)))

theorem asMember {m : Nat} {k : State → State} (hk : ∀ t, b.KeepsForm t → b.KeepsForm (k t)) : b.KeepsForm (s.asMember m k) := hk { s with cur := (m, .cp) } h
theorem leaveClst {m : Nat} : b.KeepsForm (s.leaveClst m) := h.modCore.releasePermit

theorem setHold {x : Bool} : b.KeepsForm { s with hold := x } := h

theorem memberResult {a : Arrival} {outs : List (Nat × FpOut)} : b.KeepsForm (s.memberResult a outs) := by
  have missed : b.KeepsForm (if (s.clstMiss s.node a).isSome then s.modMe Seq.countMiss else s) := .ite h.modMe h
  unfold State.memberResult
  dsimp only
  exact commit missed.leaveClst.modMyCore.addFlags.setHold.charge

theorem combine {a : Arrival} {l : List (Nat × Arrival)} : b.KeepsForm (s.combine a l) := by
  unfold State.combine
  refine .ite (h.foldl fun _ _ ht => ht.asMember fun _ hu => hu.leaveClst.takeFault) (.ite ?_ (h.foldl fun _ _ ht => ht.asMember fun _ hu => hu.leaveClst.takeFault))
  exact h.foldl fun _ _ ht => ht.asMember fun _ hu => hu.memberResult

theorem combineIf {n : Nat} {test : Nat → Bool} : b.KeepsForm (s.combineIf n test) := by
  unfold State.combineIf
  split
  · exact h
  · split
    · exact h
    · exact h.combine.ite h

theorem execClstCombine {n : Nat} : b.Answers (execClstCombine n s) := h.combineIf
theorem combineAtStop {n : Nat} : b.KeepsForm (s.combineAtStop n) := KeepsForm.combineIf (s := { s with hold := true }) h

end State.KeepsForm

end Sys2Proof.Machine
end

section
/-! SUPPORT. The canonical form of memory through the fabric and the host, nests, reels, and the system's own instructions and events. -/

namespace Sys2Proof.Machine

namespace State.KeepsForm

variable {b s t : State} {c : Code} {f : Fields} (h : b.KeepsForm s)
include h

theorem setCur {p : Nat × SeqId} : b.KeepsForm { s with cur := p } := h
theorem setCurHold {p : Nat × SeqId} {x : Bool} : b.KeepsForm { s with cur := p, hold := x } := h

theorem foldl_mem {β : Type} {l : List β} {g : State → β → State} (hg : ∀ t, ∀ x ∈ l, b.KeepsForm t → b.KeepsForm (g t x)) : b.KeepsForm (l.foldl g s) := by
  induction l generalizing s with
  | nil => exact h
  | cons x r ih => exact ih (hg _ x (.head r) h) fun t y hy => hg t y (.tail x hy)

/-! ### Links, the host port and the domain (R294 to R310) -/

theorem lostFlit {n : Nat} {p : SeqId × List Nat} : b.KeepsForm (State.lostFlit n s p) := by
  unfold State.lostFlit
  split
  · exact h
  · exact KeepsForm.ite h.freezeCore.spend.spend h.spend.spend

theorem lostAtomic {n : Nat} {p : SeqId × List Nat} : b.KeepsForm (State.lostAtomic n s p) := by
  unfold State.lostAtomic
  exact .ite h.setCur.takeFault.setCur.spend.spend h.spend.spend

theorem lostFlits {n : Nat} : b.KeepsForm (s.lostFlits n) := (h.foldl fun _ _ ht => ht.lostAtomic).foldl fun _ _ ht => ht.lostFlit

theorem execLinkReplay {pkg link : Nat} : b.Answers (execLinkReplay pkg link s) :=
  KeepsForm.ite h (.ite (h.setPkg.spend.foldl fun _ _ ht => ht.lostFlits) h.setPkg.spend)

theorem setVf {pkg fn : Nat} {v : Partition} : b.KeepsForm (s.setVf pkg fn v) := .ite h.setPkg h

theorem hostByte {pkg fn pa : Nat} {v : Byte} : b.KeepsForm (s.hostByte pkg fn pa v) := by
  unfold State.hostByte
  split
  · exact .ite h.physWrite h
  · split
    · exact .ite h.deviceWrite h
    · exact .ite h.deviceWrite h
  · exact h

theorem hostHeal {pkg fn addr cnt : Nat} : b.KeepsForm (s.hostHeal pkg fn addr cnt) := .ite h.heal h

theorem hostWrite {pkg fn addr : Nat} {data : List Byte} : b.KeepsForm (s.hostWrite pkg fn addr data) :=
  .ite h (h.hostHeal.foldl fun _ _ ht => ht.hostByte)

theorem execHostTlp {pkg fn addr : Nat} {op : HostOp} : b.Answers (execHostTlp pkg fn addr op s) := by
  cases op with
  | write data => exact h.hostWrite
  | ideFail =>
    dsimp only [Machine.execHostTlp]
    split
    · exact h.setVf
    · exact h
  | tdi state =>
    dsimp only [Machine.execHostTlp]
    split
    · exact h.setVf
    · exact h
  | configure vf config => exact KeepsForm.ite h.setVf h

theorem execFabricDomainFormation {pkgs : List Nat} : b.Answers (execFabricDomainFormation pkgs s) := h

/-! ### Nests (R188 to R195) -/

theorem keepScale {n : Nat} {o : Option Word} : b.KeepsForm (s.keepScale n o) := by
  unfold State.keepScale
  split
  · exact h
  · exact h.ite h.modCore

theorem fillBankRows {n bk : Nat} {row : Nat → Word} {live : Nat → Nat} {l : List Nat} : b.KeepsForm (l.foldl (fun t k => t.fillBankRow n bk k (row k) (live k)) s) :=
  h.foldl fun _ _ ht => ht.fillBankRow

theorem nestBank {n : Nat} {x : Nest} : b.KeepsForm (s.nestBank n x) := by
  unfold State.nestBank
  extract_lets bk l t1 t2 t3
  have h2 : b.KeepsForm t2 := h.fillBankRows.modCore.keepScale
  have h3 : b.KeepsForm t3 := .ite h2.fillBankIndex h2
  exact h3.modCore

theorem nestStart {n : Nat} {x : Nest} : b.KeepsForm (s.nestStart n x) := h.modCore
theorem nestSlot {n slot : Nat} {row : Word} {live : Nat} {scale : Option Word} : b.KeepsForm (s.nestSlot n slot row live scale) := h.keepScale.modCore
theorem nestSlots {n : Nat} {x : Nest} : b.KeepsForm (s.nestSlots n x) := .ite h.nestSlot.nestSlot h.nestSlot

theorem nestPass {n : Nat} {x : Nest} : b.KeepsForm (s.nestPass n x) := by
  unfold State.nestPass
  extract_lets t1 t2 t3 occ
  have h1 : b.KeepsForm t1 := .ite h.nestBank h
  have h2 : b.KeepsForm t2 := .ite h1.nestStart h1
  exact h2.nestSlots.modCore

theorem nestDrainRow {n : Nat} {x : Nest} : b.KeepsForm (s.nestDrainRow n x) := h.healChunk.engineWrites.modCore
theorem endNest {n : Nat} {x : Nest} : b.KeepsForm (s.endNest n x) := h.releasePermit.withdrawAsk.modCore
theorem setNest {n : Nat} {x : Nest} : b.KeepsForm (s.setNest n x) := h

theorem advanceNest {n : Nat} {x : Nest} : b.KeepsForm (s.advanceNest n x) := by
  unfold State.advanceNest
  refine .ite h.setNest ?_
  split
  · exact h.setNest
  · exact h.endNest

theorem runNest {n : Nat} {x : Nest} : b.KeepsForm (s.runNest n x) := by
  unfold State.runNest
  refine h.ite (.ite (h.ite h.reaskPermit.setNest) (h.ite ?_))
  dsimp only
  split
  · exact h.ite h.modCore.setNest
  · exact h.freezeCore
  · exact KeepsForm.advanceNest (.ite h.noteAccs.nestPass h.noteAccs.nestDrainRow)

theorem execNestPass {n : Nat} : b.Answers (execNestPass n s) := by
  refine KeepsForm.ite ?_ h
  split
  · exact h.runNest
  · exact h

theorem execMgo : b.Answers (execMgo f s) := h.issued fun t ht => by
  dsimp only
  split
  · trivial
  · split
    · trivial
    · exact .ite trivial (.ite trivial (.ite ht (ht.withPermit fun _ hu => hu.drainQueue.modMyCore)))

theorem execMabort : b.Answers (execMabort f s) := h.issued fun t ht => by
  split
  · exact ht
  · exact ht.modMyCore.endNest

/-! ### Reels (R196 to R213) -/

theorem setReel {n : Nat} {r : Reel} : b.KeepsForm (s.setReel n r) := h.modCore

theorem sendCue {n : Nat} {drain : Bool} {r : Reel} : b.KeepsForm (s.sendCue n drain r) := by
  unfold State.sendCue
  split
  · exact h
  · exact h.ite h.modCore

theorem sendCues {n fuel : Nat} : b.KeepsForm (s.sendCues n fuel) := by
  induction fuel generalizing s with
  | zero => exact h
  | succ k ih =>
    unfold State.sendCues
    split
    · exact h
    · split
      · exact h
      · exact h.ite (ih h.sendCue)

theorem onReel {n : Nat} {k : Core → Reel → State} (hk : ∀ c r, b.KeepsForm (k c r)) : b.Answers (onReel n s k) := by
  refine KeepsForm.ite ?_ h
  split
  · exact hk _ _
  · exact h

theorem spendBeat {p : Beat} : b.KeepsForm (s.spendBeat p) := by
  unfold State.spendBeat
  split <;> exact h

theorem startBeat {n : Nat} {k : Core} {r : Reel} : b.KeepsForm (s.startBeat n k r) := h.modCore.setReel
theorem execFillCueSend {n : Nat} : b.Answers (execFillCueSend n s) := h.onReel fun _ _ => h.sendCue
theorem execDrainCueSend {n : Nat} : b.Answers (execDrainCueSend n s) := h.onReel fun _ _ => h.sendCue
theorem sendDue {n : Nat} : b.Answers (sendDue n s) := h.onReel fun _ _ => h.sendCues
theorem execBeatStart {n : Nat} : b.Answers (execBeatStart n s) := h.onReel fun _ _ => .ite h.startBeat h
theorem execHoldCheck {n : Nat} : b.Answers (execHoldCheck n s) := h.onReel fun _ _ => .ite (.ite h.startBeat.modCore h.setReel) h
theorem execBeatMiss {n : Nat} : b.Answers (execBeatMiss n s) := h.onReel fun _ _ => .ite (.ite h.modCore.modCore.setReel h.modCore.setReel) h
theorem execReeloffEffect {n : Nat} : b.Answers (execReeloffEffect n s) := h.onReel fun _ _ => .ite h.setReel h
theorem execReelEnd {n : Nat} : b.Answers (execReelEnd n s) := h.onReel fun _ _ => .ite h.releasePermit.withdrawAsk.modCore h
theorem execReelSuspend {n : Nat} : b.Answers (execReelSuspend n s) := h.onReel fun _ _ => .ite h.modCore h

theorem execBeatSlotRead {n : Nat} : b.Answers (execBeatSlotRead n s) := h.onReel fun k r => by
  split
  · exact h
  · exact .ite h.spendBeat.modCore.setReel h

theorem execReelPromotion {n : Nat} : b.Answers (execReelPromotion n s) := h.onReel fun k r => by
  split
  · exact h
  · exact .ite h.modCore.setReel h

theorem execCueDeliver {n : Nat} : b.Answers (execCueDeliver n s) := by
  refine KeepsForm.ite h ?_
  dsimp only
  split
  · exact h
  · exact h.modCore.modCore.spend

theorem resumeReel {n : Nat} : b.KeepsForm (s.resumeReel n) := h.ite h.modCore

omit h in
theorem reelMoves_answer {n : Nat} {m : Nat → State → Out} (hm : m ∈ reelMoves) (h : b.KeepsForm s) : b.Answers (m n s) := by
  simp only [reelMoves, List.mem_cons, List.not_mem_nil, or_false] at hm
  rcases hm with rfl | rfl | rfl | rfl | rfl | rfl | rfl | rfl | rfl
  · exact h.execBeatSlotRead
  · exact h.execReelPromotion
  · exact h.execReelSuspend
  · exact h.execReeloffEffect
  · exact h.execBeatStart
  · exact h.execHoldCheck
  · exact h.execBeatMiss
  · exact h.sendDue
  · exact h.execReelEnd

theorem reelCycle {n : Nat} : b.KeepsForm (s.reelCycle n) := h.foldl_mem fun t m hm ht => by
  obtain ⟨u, ho, hu⟩ := (reelMoves_answer (n := n) hm ht).exists_next
  rw [ho]
  exact hu

theorem reelJudged {n : Nat} {q : SeqId} : b.KeepsForm (s.reelJudged n q) := .ite h.reelCycle h

theorem execReelon : b.Answers (execReelon f s) := h.issued fun t ht => by
  dsimp only
  split
  · trivial
  · split
    · trivial
    · exact .ite ht (ht.withPermit fun _ hu => hu.drainQueue.modMyCore.setReel)

theorem execReeloff : b.Answers (execReeloff f s) := h.issued fun t ht => by
  split
  · exact ht
  · exact .ite ht ht.modMyCore

theorem takeCue {w : Word} : b.KeepsEff (takeCue s f w) := h.modMyCore.putReg

theorem execCuew : b.Answers (execCuew f s) := h.issued fun t ht => by
  split
  · trivial
  · exact ht.takeCue

theorem execCuepoll : b.Answers (execCuepoll f s) := h.issued fun t ht => by
  split
  · exact ht.putReg
  · exact ht.takeCue

theorem execCuedone : b.Answers (execCuedone f s) := h.issued fun _ ht => ht.drainQueue.modCore

theorem answerCue {n : Nat} {q : Cue} : b.KeepsForm (s.answerCue n q) := by
  unfold State.answerCue
  dsimp only
  split
  · exact h
  · exact h.ite (.ite (.ite h.modCore h.modCore) h.modCore)

theorem execCuedoneArrive {n : Nat} : b.Answers (execCuedoneArrive n s) := by
  refine KeepsForm.ite h ?_
  dsimp only
  split
  · exact h
  · exact h.modCore.answerCue.spend

/-! ### Traps, events and maintenance (R313, R318 to R323) -/

theorem trapBehind {cause : Nat} : b.KeepsForm (s.trapBehind f cause) := h.withdraw.faultAt
theorem execTrap : b.Answers (execTrap f s) := h.issued fun _ ht => ht.trapBehind
theorem execEret : b.Answers (execEret f s) := h.issued fun _ ht => .ite ht.modMyCore.modMe trivial
theorem execBrk : b.Answers (execBrk f s) := h.issued fun _ ht => .ite ht.trapBehind trivial

theorem execHardwareBreakpoint {n : Nat} {q : SeqId} : b.Answers (execHardwareBreakpoint n q s) := by
  refine KeepsForm.ite h ?_
  split
  · exact h.setCur.takeBreakpoint.setCur
  · exact h

theorem execWfe : b.Answers (execWfe f s) := h.issued fun _ ht => .ite ht.modMe trivial
theorem sendEvent {n : Nat} {q : SeqId} : b.KeepsForm (s.sendEvent n q) := .ite h.modCore h.modSeq
theorem execEvsig : b.Answers (execEvsig f s) :=
  h.issued fun _ ht => .ite trivial (.ite (.ite trivial (.ite trivial ht.sendEvent)) (.ite trivial ht.sendEvent))
theorem execEventDeliver {n : Nat} {q : SeqId} : b.Answers (execEventDeliver n q s) := KeepsForm.ite h.modCore.modSeq h
theorem execSynci : b.Answers (execSynci f s) := h.issued fun _ ht => ht.release fun _ hu => hu.modMyCore

theorem drainAll {n : Nat} {l : List SeqId} : b.KeepsForm (l.foldl (fun t q => t.drainQueue n q) s) := h.foldl fun _ _ ht => ht.drainQueue
theorem drainPackage {pkg : Nat} : b.KeepsForm (s.drainPackage pkg) := h.foldl fun _ _ ht => .ite ht.drainAll ht
theorem execTlbi : b.Answers (execTlbi f s) := h.issued fun _ ht => .ite ht ht.drainPackage

/-! ### Sequencers stopped, started and reached from afar (R316, R324) -/

theorem thaw {n : Nat} : b.KeepsForm (s.thaw n) := h

theorem resumeSeq {n : Nat} {q : SeqId} {skip xo : Bool} : b.KeepsForm (s.resumeSeq n q skip xo) := by
  unfold State.resumeSeq
  extract_lets t pc u
  have ht : b.KeepsForm t := .ite h.thaw h
  have hu : b.KeepsForm u := ht.modCore.modSeq
  exact ht.ite (hu.resumeReel.ite hu)

theorem recalled {n : Nat} {q : SeqId} {r : RemoteReq} : b.KeepsForm (s.recall n q r) := h.modCore.modSeq

theorem recallAny {n : Nat} {q : SeqId} : b.KeepsForm (s.recallAny n q) := by
  unfold State.recallAny
  split
  · exact h.recalled
  · exact h

theorem killSeq {n : Nat} {q : SeqId} : b.KeepsForm (s.killSeq n q) := by
  unfold State.killSeq
  extract_lets t u
  have hu : b.KeepsForm u := h.recallAny.withdraw.dropExplicit.modSeq.modCore
  exact hu.resumeReel.ite hu

theorem seqctl {n : Nat} {q : SeqId} {v : Word} : b.KeepsForm (s.seqctl n q v) := by
  unfold State.seqctl
  split
  · exact h.resumeSeq
  · exact h.killSeq
  · exact h

theorem execSeqctlResume {n : Nat} {q : SeqId} : b.Answers (execSeqctlResume n q s) := h.resumeSeq
theorem execSeqctlResumeXo {n : Nat} {q : SeqId} : b.Answers (execSeqctlResumeXo n q s) := h.resumeSeq
theorem execSeqctlKill {n : Nat} {q : SeqId} : b.Answers (execSeqctlKill n q s) := h.killSeq

omit h in
theorem remoteChecked {k : Nat → SeqId → Eff} (hk : ∀ n q, b.KeepsEff (k n q)) : b.KeepsEff (remoteChecked s f k) :=
  .ite trivial (.ite trivial (.ite trivial (hk _ _)))

theorem serveRead : b.KeepsEff (serveRead s f) := remoteChecked fun _ _ => h.useFree.putReg
theorem serveWrite : b.KeepsEff (serveWrite s f) := remoteChecked fun _ _ => .ite trivial (KeepsForm.ite h.seqctl h.writeReg)
theorem sendRequest {write : Bool} : b.KeepsForm (s.sendRequest f write) := h.modMyCore.modMe

theorem remoteIssue {write : Bool} {serve : State → Fields → Eff} (hs : b.KeepsEff (serve s f)) : b.KeepsEff (remoteIssue s f write serve) :=
  .ite (remoteChecked fun _ _ => h.sendRequest) hs

theorem execMfp : b.Answers (execMfp f s) := h.issued fun _ ht => ht.remoteIssue ht.serveRead
theorem execMtp : b.Answers (execMtp f s) := h.issued fun _ ht => ht.remoteIssue ht.serveWrite

theorem answer {r : RemoteReq} {e : Eff} (he : b.KeepsEff e) : b.KeepsForm (s.answer r e) := by
  cases e with
  | done d =>
    have own : b.KeepsForm (d.st.modMyCore fun k => k.unreserve s.me (pushList r.fields.push)) := he
    refine KeepsForm.modMe (commit ?_)
    exact own
  | trap => exact h.recalled.takeFault
  | trapOpen => exact h.recalled.spend.takeFault
  | wait => exact h
  | waitWith => exact h
  | stall => exact h
  | whole => exact h

theorem execRemoteRequestArrive {n : Nat} {q : SeqId} : b.Answers (execRemoteRequestArrive n q s) := by
  unfold Machine.execRemoteRequestArrive
  split
  · exact h
  next r _ =>
    refine KeepsForm.ite h ?_
    extract_lets taken t answered
    have ht : b.KeepsForm t := h
    have served : b.KeepsEff (t.runBody (remoteCode r.write) r.fields fun s => if r.write then Machine.serveWrite s r.fields else Machine.serveRead s r.fields) :=
      .ite ht.interlock.serveWrite ht.interlock.serveRead
    have ha : b.KeepsForm answered := ht.answer served
    exact ha.setCur

theorem execYield : b.Answers (execYield f s) := h.issued fun _ ht => KeepsForm.ite ht.modMyCore ht

/-! ### What the schedule brings (R91, R221, R249, R316) -/

theorem execInstructionRetire {n : Nat} {q : SeqId} {tag : Nat} : b.Answers (execInstructionRetire n q tag s) := by
  unfold Machine.execInstructionRetire
  dsimp only
  split
  · exact h
  · exact KeepsForm.ite h h.modCore

theorem execAccessPerform {n : Nat} {q : SeqId} {path : Nat} : b.Answers (execAccessPerform n q path s) := by
  unfold Machine.execAccessPerform
  dsimp only
  split
  · exact h
  · split
    · exact h
    · exact h.modSeq.performStore.useFree

theorem noteWalk {n : Nat} {va : Word} : b.KeepsForm (s.noteWalk n va) := h.corrects

theorem execPageWalk {n : Nat} {va : Word} : b.Answers (execPageWalk n va s) := by
  have hw : b.KeepsForm (s.noteWalk n va) := h.noteWalk
  refine KeepsForm.ite h ?_
  dsimp only
  split
  · exact hw
  · exact hw.ite (.ite hw.modCore hw.modCore.setBay)

theorem execIcacheFill {n : Nat} {pc : Word} : b.Answers (execIcacheFill n pc s) := KeepsForm.ite h h.noteFetched.modCore.spend

theorem endHalt {n : Nat} {q : SeqId} : b.KeepsForm (s.endHalt n q) := by
  unfold State.endHalt
  dsimp only
  split
  · exact h
  · have halted : b.KeepsForm (State.haltMe { s with cur := (n, q), hold := false }) := h.setCurHold.haltMe
    exact KeepsForm.ite (KeepsForm.setCurHold (commit halted)) h

theorem execFqheadWrite {n : Nat} {v : Word} : b.Answers (execFqheadWrite n v s) := h.writeFqHead
theorem execFqResetWrite {n num : Nat} {v : Word} : b.Answers (execFqResetWrite n num v s) := KeepsForm.ite h.writeFqSetup h
theorem execRngcfgWrite {n : Nat} {q : SeqId} {v : Word} : b.Answers (execRngcfgWrite n q v s) := h.writeReg
theorem execBufcfgWrite {n : Nat} {q : SeqId} {v : Word} : b.Answers (execBufcfgWrite n q v s) := h.writeReg
theorem execSysregWrite {n : Nat} {q : SeqId} {num : Nat} {v : Word} : b.Answers (execSysregWrite n q num v s) := KeepsForm.ite h h.writeReg

end State.KeepsForm

end Sys2Proof.Machine
end

section
/-! SUPPORT. The canonical form of memory through saves and restores, launches and the scoreboard, boot and fatal errors, and permits and power. -/

namespace Sys2Proof.Machine

namespace State.KeepsForm

variable {b s t : State} {c : Code} {f : Fields} (h : b.KeepsForm s)
include h

/-! ### CSAVE and CREST (R326 to R330, R354) -/

theorem stopIssue {n : Nat} : b.KeepsForm (s.stopIssue n) := (h.combineAtStop.foldl fun _ _ ht => ht.withdraw.modSeq).modCore

theorem execPreemptGraceEnd {n : Nat} : b.Answers (execPreemptGraceEnd n s) := by
  unfold Machine.execPreemptGraceEnd
  dsimp only
  split
  · exact h
  · exact KeepsForm.ite h.stopIssue h

theorem finishBeat {n : Nat} {p : Beat} : b.KeepsForm (s.finishBeat n p) := by
  unfold State.finishBeat
  split
  · exact h
  · exact h.spendBeat.modCore

theorem suspendReel {n : Nat} : b.KeepsForm (s.suspendReel n) := by
  unfold State.suspendReel
  split
  · exact h
  next r _ =>
    have ht : b.KeepsForm (r.begun.foldl (fun t p => t.finishBeat n p) s) := h.foldl fun _ _ ht => ht.finishBeat
    dsimp only
    split
    · exact ht
    · exact ht.setReel

theorem serveRequests {n : Nat} : b.KeepsForm (s.serveRequests n) := by
  unfold State.serveRequests
  refine .ite (KeepsForm.setHold (h.setHold.foldl fun t q ht => ?_)) h
  obtain ⟨u, ho, hu⟩ := (ht.execRemoteRequestArrive (n := n) (q := q)).exists_next
  rw [ho]
  exact hu

theorem stopCore {n : Nat} {keep : Bool} : b.KeepsForm (s.stopCore n keep) := by
  unfold State.stopCore
  extract_lets t1 t2 t3 t4 lease t5 qd gone t6 t7
  have h1 : b.KeepsForm t1 := h.ite h.stopIssue
  have h3 : b.KeepsForm t3 := h1.serveRequests.foldl fun _ _ ht => ht.drainQueue.modSeq
  have h6 : b.KeepsForm t6 := h3.suspendReel.modCore.setQuad.notePermits
  have h7 : b.KeepsForm t7 := h6.foldl fun _ _ ht => .ite ht.modSeq ht
  exact h7.ite (h7.foldl fun _ _ ht => ht.endHalt)

theorem saveCore {n : Nat} {area : Word} {code : Bool} {e : Eff} (he : s.saveCore f n area code = e) : b.KeepsEff e := by
  rw [← he]
  unfold State.saveCore
  extract_lets now t1 t words accs u blob v
  have ht : b.KeepsForm t := h.stopCore.modCore
  clear_value t words accs
  split
  · exact h.stallDrain
  · trivial
  · trivial
  · have hu : b.KeepsForm u := ht.noteAccs.drainQueue.foldl fun _ _ hv => hv.engineWrite
    have hv : b.KeepsForm v := hu
    exact hv.modCore

theorem giveNotice {n grace : Nat} : b.KeepsForm (s.giveNotice n grace) := h.modCore.foldl fun _ _ ht => ht.modSeq

theorem execCsave : b.Answers (execCsave f s) := h.issued fun t ht => by
  extract_lets d n area code k
  generalize hs : t.saveCore f n area code = e
  have saved : b.KeepsEff e := ht.saveCore hs
  refine .ite trivial (.ite trivial (.ite ht (.ite (.ite ?_ saved) (.ite ht ht.giveNotice))))
  exact KeepsForm.ite ht ht.stopIssue

theorem movePlacement {entry : Option (Nat × Nat)} {old new : Nat} : b.KeepsForm (s.movePlacement entry old new) := h

theorem reaskAll {n : Nat} : b.KeepsForm (s.reaskAll n) := by
  unfold State.reaskAll
  extract_lets k t1 wake t2
  have h1 : b.KeepsForm t1 := by
    dsimp only [t1]
    split
    · exact h.reaskPermit.modCore
    · exact h
  have hw : ∀ t q, b.KeepsForm t → b.KeepsForm (wake t q) := fun t q ht => KeepsForm.modCore (ht.foldl fun _ _ hu => .ite hu.reaskTransfer hu)
  have h2 : b.KeepsForm t2 := hw _ _ (hw _ _ h1)
  split
  · exact h2.reaskPermit
  · exact h2

theorem restoreLease {n origin : Nat} : b.KeepsForm (s.restoreLease n origin) := h.ite (.ite h.modCore h.modCore)

theorem restoreRings {n : Nat} {r : Option (Tab Ring)} : b.KeepsForm (s.restoreRings n r) := by
  unfold State.restoreRings
  split <;> exact h

theorem installCore {n : Nat} {area : Word} {w : Nat → Nat} : b.KeepsForm (s.installCore n area w) := by
  unfold State.installCore
  extract_lets blob known base origin old made k entry t1 p t2
  have h1 : b.KeepsForm t1 := h.setCore.movePlacement
  have h2 : b.KeepsForm t2 := .ite (h1.foldl fun _ _ ht => ht.windowWrite) h1
  exact h2.reaskAll.restoreLease.restoreRings

theorem execCrest : b.Answers (execCrest f s) := h.issued fun t ht => by
  extract_lets d n area u v
  have hu : b.KeepsForm u := ht.drainQueue
  generalize areaAccs Want.load area (restoreOffsets v) = l
  refine .ite trivial ?_
  split
  · exact ht.stallDrain
  · trivial
  · exact .ite trivial (.ite trivial hu.noteAccs.installCore)

theorem execSnapshotLand {n : Nat} : b.Answers (execSnapshotLand n s) := by
  unfold Machine.execSnapshotLand
  dsimp only
  split
  · exact h
  · exact KeepsForm.ite h.modCore h

/-! ### Mailboxes, signals and entries (R333 to R341) -/

theorem execMboxWrite {box : Mailbox} {v : Word} : b.Answers (execMboxWrite box v s) := KeepsForm.ite h.mailbox h

theorem withSignal {va : Word} {k : State → Eff} (hk : ∀ t, b.KeepsForm t → b.KeepsEff (k t)) : b.KeepsEff (withSignal s va k) := h.access fun _ ht => hk _ ht.drainQueue
theorem execSigAdd : b.Answers (execSigAdd f s) := h.issued fun _ ht => ht.withSignal fun _ hu => hu.engineWrite
theorem execSigSet : b.Answers (execSigSet f s) := h.issued fun _ ht => ht.withSignal fun _ hu => hu.engineWrite
theorem execSigWait : b.Answers (execSigWait f s) := h.issued fun _ ht => ht.withSignal fun _ hu => .ite hu.putReg hu

theorem withDescriptor {va : Word} {cnt : Nat} {k : State → List W32 → Eff} (hk : ∀ t d, b.KeepsForm t → b.KeepsEff (k t d)) : b.KeepsEff (withDescriptor s va cnt k) :=
  .ite trivial (h.access fun _ ht => hk _ _ ht.drainQueue)

theorem enter {e : Entry} : b.KeepsEff (enter s f e) := .ite h.putReg h.setStack.setPkg.putReg

theorem execKrun : b.Answers (execKrun f s) := h.issued fun _ ht => ht.withDescriptor fun u d hu => by
  dsimp only
  split
  · trivial
  · exact hu.enter

theorem execStrm : b.Answers (execStrm f s) := h.issued fun _ ht => ht.withDescriptor fun u d hu => by
  dsimp only
  split
  · trivial
  · exact hu.enter

/-! ### Starting a kernel (R339 to R345, R365, R396, R401) -/

theorem putCode {n off : Nat} {bs : List Byte} : b.KeepsForm (s.putCode n off bs) := fun wf => Memory.fold_put_wf _ _ _ _ (h wf)

theorem applyRecord {base : Nat → Word} {n : Nat} {r : Record} : b.KeepsForm (s.applyRecord base n r) := by
  unfold State.applyRecord
  dsimp only
  split
  · exact h.putCode
  · exact h.foldl fun _ _ ht => ht.engineWrite
  · exact h.modCore
  · exact .ite h.modCore h.setBay
  · exact h

theorem splitBlock {table sh old : Nat} : b.KeepsForm (s.splitBlock table sh old) := h.foldl fun _ _ ht => ht.physWrite

/-- A page is entered level by level. The recursion is taken as the recursor has it: its unfolding equation is too deep to state. -/
theorem mapPage {pkg : Nat} {shifts : List Nat} {table va entry : Nat} : b.KeepsForm (s.mapPage pkg shifts table va entry) := by
  delta State.mapPage
  induction shifts generalizing s table with
  | nil => exact h
  | cons sh rest ih =>
    have hr : b.KeepsForm ((s.symbolsIn (table + 8 * (va / 2 ^ sh % 8192)) 8).foldl State.correct s) := h.corrects
    refine hr.ite ?_
    split
    · exact hr.physWrite
    · refine .ite (ih hr) ?_
      split
      · exact hr
      · exact ih (KeepsForm.spend (KeepsForm.physWrite (.ite hr.splitBlock hr)))

theorem dropPage {pkg page : Nat} : b.KeepsForm (s.dropPage pkg page) := h

theorem countLaunch {pkg : Nat} {image cores : List Nat} : b.KeepsForm (s.countLaunch pkg image cores) := by
  unfold State.countLaunch
  split <;> exact h

theorem leavePlaced {pkg k : Nat} {image cores : List Nat} : b.KeepsForm (s.leavePlaced pkg k image cores) := h

theorem takeMiss {pkg : Nat} {image cores : List Nat} : b.KeepsForm (s.takeMiss pkg image cores) := by
  unfold State.takeMiss
  split
  next m _ => exact KeepsForm.countLaunch (s := { s with missed := s.missed.erase m }) h
  · exact h

theorem takeMisses {pkg : Nat} {image cores : List Nat} : b.KeepsForm (s.takeMisses pkg image cores) := h.foldl fun _ _ ht => ht.takeMiss

theorem setPlaced {l : List Placed} : b.KeepsForm { s with placed := l } := h

theorem openPlaced {stack : Nat} {e : Entry} {rs : List Record} {all : List Nat} : b.KeepsForm (s.openPlaced stack e rs all) := by
  unfold State.openPlaced
  extract_lets pkg image r k l join
  have hr : b.KeepsForm r := h.takeMisses
  refine KeepsForm.countLaunch ?_
  split
  · exact hr
  · exact KeepsForm.spend (KeepsForm.setPlaced (hr.foldl fun _ _ ht => ht.takeMiss))

theorem loadPage {pkg root spad : Nat} {conf : Bool} {rs : List Record} {tier i : Nat} : b.KeepsForm (s.loadPage pkg root spad conf rs tier i) := by
  unfold State.loadPage
  extract_lets p page owner core copy home t
  have ht : b.KeepsForm t := by
    dsimp only [t]
    split
    · exact h
    · split <;> exact h
  split
  · exact ht
  · exact ht.mapPage.dropPage

theorem loadData {stack : Nat} {e : Entry} {conf : Bool} {rs : List Record} {all : List Nat} : b.KeepsForm (s.loadData stack e conf rs all) :=
  h.openPlaced.foldl fun _ _ ht => ht.foldl fun _ _ hu => hu.loadPage

theorem createCore {stack : Nat} {e : Entry} {rs : List Record} {all : List Nat} {n lcore : Nat} : b.KeepsForm (s.createCore stack e rs all n lcore) := h
theorem carveBay {spad bay : Nat} : b.KeepsForm (s.carveBay spad bay) := h.resizeBay.setBay

theorem startKernel {stack : Nat} {e : Entry} {rs : List Record} {all : List Nat} : b.KeepsForm (s.startKernel stack e rs all) := by
  unfold State.startKernel
  extract_lets mine t1 t2 base t3 linked t4
  have h1 : b.KeepsForm t1 := h.foldl fun _ _ ht => ht.carveBay
  have h3 : b.KeepsForm t3 := h1.loadData.foldl fun _ _ ht => ht.createCore
  have h4 : b.KeepsForm t4 := h3.foldl fun _ _ ht => ht.foldl fun _ _ hu => by
    split
    · exact .ite hu.applyRecord hu
    · exact hu
  exact h4.setStack

theorem noteObject {e : Entry} : b.KeepsForm (s.noteObject e) := h.noteController

theorem missLaunch {stack : Nat} {e : Entry} : b.KeepsForm (s.missLaunch stack e) := by
  unfold State.missLaunch
  refine h.ite ?_
  dsimp only
  split
  · exact h.leavePlaced.countLaunch
  · split
    · exact h.leavePlaced.countLaunch
    · exact h

theorem failStart {stack : Nat} {e : Entry} {cause : Nat} {info : Word} : b.KeepsForm (s.failStart stack e cause info) :=
  h.ite h.missLaunch.controllerFault.failEntry
theorem failInvalid {stack : Nat} {e : Entry} : b.KeepsForm (s.failInvalid stack e) := h.spend.failStart
theorem noteLaunch {stack : Nat} : b.KeepsForm (s.noteLaunch stack) := h
theorem noteMap {e : Entry} : b.KeepsForm (s.noteMap e) := h.ite h.noteController

theorem tryKernel {stack : Nat} {e : Entry} : b.KeepsForm (s.tryKernel stack e) := by
  unfold State.tryKernel
  refine h.ite (h.ite ?_)
  split
  · exact h
  · exact h.failStart.noteLaunch
  · exact h.noteMap.failInvalid.noteLaunch
  · exact h
  · split
    · exact h
    · exact h.noteMap.noteObject.failStart.noteLaunch
    · exact h.noteMap.noteObject.failInvalid.noteLaunch
    · exact h.noteMap.noteObject.startKernel

theorem startStream {stack : Nat} {e : Entry} : b.KeepsForm (s.startStream stack e) := .ite h.failStart (.ite h.failStart (.ite h.spend.failStart h.setStack))

theorem execEntryIssue {stack entry : Nat} : b.Answers (execEntryIssue stack entry s) := by
  unfold Machine.execEntryIssue
  extract_lets r
  have hr : b.KeepsForm r := h.flushPosted
  split
  · exact hr
  · exact KeepsForm.ite hr (.ite (.ite hr.startStream hr)
      (.ite hr.noteController.missLaunch.failEntry (.ite hr.noteController.tryKernel hr.noteController)))

theorem execEntryPromotion {stack entry : Nat} : b.Answers (execEntryPromotion stack entry s) := by
  unfold Machine.execEntryPromotion
  dsimp only
  split
  · exact h
  · exact KeepsForm.ite h.setStack h

/-! ### Ends of kernels (R346, R348, R350) -/

theorem discard {n : Nat} : b.KeepsForm (s.discard n) := h

theorem destroyKeys {gone : Ctx → Bool} : b.KeepsForm (s.destroyKeys gone) := by
  unfold State.destroyKeys
  dsimp only
  split <;> exact h

theorem discardEntry {stack k : Nat} : b.KeepsForm (s.discardEntry stack k) := h.destroyKeys

theorem execKernelFinish {stack entry : Nat} : b.Answers (execKernelFinish stack entry s) := by
  unfold Machine.execKernelFinish
  split
  · exact h
  · split
    · exact KeepsForm.ite h.setStack h
    · refine KeepsForm.ite h (KeepsForm.endEntry ?_)
      exact .ite (KeepsForm.discardEntry (h.flushPosted.foldl fun _ _ ht => ht.discard)) h.flushPosted

theorem finishDrain {n : Nat} : b.KeepsForm (s.finishDrain n) := by
  unfold State.finishDrain
  split
  · exact .ite h.resizeBay.flushFaults h
  · exact h

theorem abortCore {n : Nat} : b.KeepsForm (s.abortCore n) := h.stopCore.finishDrain.discard

theorem execKabort : b.Answers (execKabort f s) := h.issued fun t ht => by
  refine .ite trivial ?_
  split
  · exact ht
  next stack e _ =>
    have gone : b.KeepsForm (((t.coresOf stack (t.sreg f.a).toNat).foldl State.abortCore (t.flushPosted stack)).discardEntry stack (t.sreg f.a).toNat) :=
      KeepsForm.discardEntry (ht.flushPosted.foldl fun _ _ hu => hu.abortCore)
    exact .ite ht (.ite ht gone.setHold.missLaunch.failEntry.setHold)

theorem execStkmap : b.Answers (execStkmap f s) :=
  h.issued fun _ ht => .ite trivial (KeepsForm.setPkg (ht.foldl fun _ _ hu => hu.setStack))

/-! ### Boot, reports and fatal errors (R375 to R384) -/

theorem setBoot {pkg : Nat} {w : Word} : b.KeepsForm (s.setBoot pkg w) := h
theorem forgetLaunches {pkg : Nat} : b.KeepsForm (s.forgetLaunches pkg) := h
theorem powerOn {pkg : Nat} : b.KeepsForm (s.powerOn pkg) := by
  unfold State.powerOn
  extract_lets p mine cap t
  have ht : b.KeepsForm t := h
  exact ht.destroyKeys.forgetLaunches.setPkg

theorem verifyFirmware {pkg : Nat} : b.KeepsForm (s.verifyFirmware pkg) := h.setBoot.spend
theorem logVaults {pkg : Nat} {l : List Nat} {kind : ErrorKind} : b.KeepsForm (s.logVaults pkg l kind) := h.foldl fun _ _ ht => ht.logError
theorem repairVaults {pkg : Nat} : b.KeepsForm (s.repairVaults pkg) := h.setBoot.logVaults.takeFresh
theorem zeroMemories {pkg : Nat} : b.KeepsForm (s.zeroMemories pkg) := fun wf => Memory.filter_wf _ _ (h wf)

theorem testVaults {pkg : Nat} : b.KeepsForm (s.testVaults pkg) :=
  .ite h.takeFresh.setBoot (KeepsForm.logVaults (KeepsForm.setBoot (KeepsForm.takeFresh h.setPkg)))

theorem coldBoot {pkg : Nat} : b.KeepsForm (s.coldBoot pkg) := by
  unfold State.coldBoot
  refine .ite h.powerOn ?_
  split
  · exact h.verifyFirmware
  · exact h.testVaults
  · exact h.repairVaults
  · exact h.zeroMemories
  · exact h.powerOn

theorem execColdBoot {pkg : Nat} : b.Answers (execColdBoot pkg s) := h.coldBoot

theorem setWeak {l : List Nat} : b.KeepsForm { s with weak := l } := h
theorem execVaultScrub {pkg : Nat} : b.Answers (execVaultScrub pkg s) := KeepsForm.ite h.corrects.setWeak h
theorem execGetMeasurements {pkg : Nat} {nonce : List Byte} {dcc : Option Nat} : b.Answers (execGetMeasurements pkg nonce dcc s) := h.setPkg
theorem writeDump {pkg source base : Nat} : b.KeepsForm (s.writeDump pkg source base) := h.zeroRange.foldl fun _ _ ht => ht.physWrite
theorem haltPackage {pkg source : Nat} : b.KeepsForm (s.haltPackage pkg source) := h

theorem execFatalError {pkg source : Nat} : b.Answers (execFatalError pkg source s) := by
  refine KeepsForm.ite h ?_
  split
  · exact h.haltPackage
  · exact h.writeDump.haltPackage

/-! ### Permits, leases and power (R351 to R362) -/

theorem execPermit : b.Answers (execPermit f s) := h.issued fun _ ht => .ite trivial (ht.dropExplicit.withPermit fun _ hu => hu.modMe)
theorem execPrel : b.Answers (execPrel f s) := h.issued fun _ ht => ht.dropExplicit

theorem wakeEngine {p : Permit} : b.KeepsForm (s.wakeEngine p) := by
  unfold State.wakeEngine
  split
  · exact h.modCore
  · exact h.modCore
  · exact h.resumeReel
  · exact h

theorem execPermitGrant {quad : Nat} : b.Answers (execPermitGrant quad s) := by
  unfold Machine.execPermitGrant
  dsimp only
  split
  · exact h
  · exact KeepsForm.ite (h.addGrant.ite h.addGrant.wakeEngine) h

theorem noteExpiry {quad : Nat} {p : Permit} : b.KeepsForm (s.noteExpiry quad p) := h.setQuad.notePermit

theorem expire {quad : Nat} {p : Permit} : b.KeepsForm (State.expire quad s p) := by
  unfold State.expire
  split
  · exact h.noteExpiry.modCore
  · exact h.noteExpiry.modCore
  · exact h.notePermit.releasePermit.modSeq
  · exact h

theorem expireAll {quad : Nat} : b.KeepsForm (s.expireAll quad) := h.foldl fun _ _ ht => ht.expire
theorem execPermitLeaseExpiry {quad : Nat} : b.Answers (execPermitLeaseExpiry quad s) := h.expireAll
theorem execLease : b.Answers (execLease f s) := h.issued fun _ ht => .ite trivial (.ite ht.putReg ht.modMyCore.putReg)
theorem execBoostLeaseExpiry {n : Nat} : b.Answers (execBoostLeaseExpiry n s) := KeepsForm.ite h.modCore h
theorem leasesDue {stack : Nat} : b.KeepsForm (s.leasesDue stack) := (h.foldl fun _ _ ht => ht.expireAll).foldl fun _ _ ht => ht.modCore

theorem execOpset : b.Answers (execOpset f s) :=
  h.issued fun _ ht => .ite trivial (.ite (.ite trivial (.ite trivial ht.setStack)) (.ite trivial (.ite trivial ht.setQuad)))

theorem loseQuad {quad : Nat} : b.KeepsForm (s.loseQuad quad) := by
  unfold State.loseQuad
  extract_lets bays cores t1 t2
  clear_value bays cores
  have h1 : b.KeepsForm t1 := h.zeroRanges
  have h2 : b.KeepsForm t2 := h1.zeroRanges
  exact h2

theorem loseVaults {stack : Nat} : b.KeepsForm (s.loseVaults stack) := by
  unfold State.loseVaults
  refine KeepsForm.foldl ?_ fun _ _ ht => ht.zeroRange
  exact h

theorem execGate : b.Answers (execGate f s) :=
  h.issued fun _ ht => .ite trivial (.ite trivial (.ite trivial (.ite ht.setStack (.ite ht (.ite trivial (KeepsForm.setStack (.ite ht.loseVaults ht.loseQuad)))))))

theorem execBreakEvenHoldEnd {stack dom : Nat} : b.Answers (execBreakEvenHoldEnd stack dom s) := by
  unfold Machine.execBreakEvenHoldEnd
  dsimp only
  split
  · exact h
  · exact h.setStack

theorem wakeUp {stack dom : Nat} : b.KeepsForm (s.wakeUp stack dom) := h.ite h.loseQuad

theorem wakeNext {stack : Nat} : b.KeepsForm (s.wakeNext stack) := by
  unfold State.wakeNext
  dsimp only
  split
  · exact h
  · exact h.wakeUp.setStack

theorem execDomainWake {stack : Nat} : b.Answers (execDomainWake stack s) := KeepsForm.ite h.wakeNext h

theorem powerMoves {stack fuel : Nat} : b.KeepsForm (s.powerMoves stack fuel) := by
  induction fuel generalizing s with
  | zero => exact h
  | succ k ih =>
    unfold State.powerMoves
    dsimp only
    split
    · exact .ite (ih h.wakeNext) (ih h.setStack)
    · exact .ite (ih h.wakeNext) h

theorem powerDue {stack : Nat} : b.KeepsForm (s.powerDue stack) := h.leasesDue.powerMoves
theorem execClockThrottle {quad dt : Nat} : b.Answers (execClockThrottle quad dt s) := h.setStack.powerDue

end State.KeepsForm

end Sys2Proof.Machine
end

section
/-! SUPPORT. Every instruction and event answers with a state that keeps the canonical form of memory; so do a cycle, the arbiter and the step. -/

namespace Sys2Proof.Machine

namespace State.KeepsForm

variable {b s t : State} {c : Code} {f : Fields} (h : b.KeepsForm s)
include h

theorem endWaitAt {n : Nat} {q : SeqId} : b.KeepsForm (s.endWaitAt n q) := by
  unfold State.endWaitAt
  dsimp only
  split
  · exact h
  · refine h.ite ?_
    split
    · exact h
    · exact h.setCur.timeOut.setCur

theorem execWaitTimeout {n : Nat} {q : SeqId} : b.Answers (execWaitTimeout n q s) := h.endWaitAt

/-! ### Dispatch

An instruction that hands its group a function written in place gets a lemma by its name, so that dispatch meets names only. -/

theorem vecCmp {cond : Nat → Nat → Nat → Bool} : b.Answers (vecCmp c f cond s) := h.vec2
theorem execVmov : b.Answers (execVmov f s) := h.vec1
theorem execVabs : b.Answers (execVabs f s) := h.vec1
theorem execVpopc : b.Answers (execVpopc f s) := h.vec1
theorem execVcmpEq : b.Answers (execVcmpEq f s) := h.vecCmp
theorem execVcmpNe : b.Answers (execVcmpNe f s) := h.vecCmp
theorem execVcmpLt : b.Answers (execVcmpLt f s) := h.vecCmp
theorem execVcmpGe : b.Answers (execVcmpGe f s) := h.vecCmp
theorem execVcmpLtn : b.Answers (execVcmpLtn f s) := h.vecCmp
theorem execVcmpGen : b.Answers (execVcmpGen f s) := h.vecCmp
theorem execVnegin : b.Answers (execVnegin f s) := h.vecIn
theorem execVnotin : b.Answers (execVnotin f s) := h.vecIn
theorem execVrotin : b.Answers (execVrotin f s) := h.vecIn
theorem execVbrevin : b.Answers (execVbrevin f s) := h.vecIn
theorem execVmaxk : b.Answers (execVmaxk f s) := h.keepPair
theorem execVmink : b.Answers (execVmink f s) := h.keepPair
theorem execVmaxnk : b.Answers (execVmaxnk f s) := h.keepPair
theorem execVminnk : b.Answers (execVminnk f s) := h.keepPair
theorem execVffloor : b.Answers (execVffloor f s) := h.vf1
theorem execVfceil : b.Answers (execVfceil f s) := h.vf1
theorem execVftrunc : b.Answers (execVftrunc f s) := h.vf1
theorem execVfrint : b.Answers (execVfrint f s) := h.vf1
theorem execVfcmpEq : b.Answers (execVfcmpEq f s) := h.vf2
theorem execVfcmpNe : b.Answers (execVfcmpNe f s) := h.vf2
theorem execVfcmpLt : b.Answers (execVfcmpLt f s) := h.vf2
theorem execVfcmpLe : b.Answers (execVfcmpLe f s) := h.vf2
theorem execVfcmpGt : b.Answers (execVfcmpGt f s) := h.vf2
theorem execVfcmpGe : b.Answers (execVfcmpGe f s) := h.vf2
theorem execVfcmpUnord : b.Answers (execVfcmpUnord f s) := h.vf2
theorem execVfcmpOrd : b.Answers (execVfcmpOrd f s) := h.vf2

/-- Each instruction by the group that its meaning belongs to, each event by itself. -/
theorem exec (i : Instr) : b.Answers (exec i s) :=
  match i with
  | .nop .. | .br .. | .loop .. | .call .. | .sel .. | .li .. | .lui .. | .mov .. | .tokw .. | .toks .. | .nop2b .. | .mov2b .. | .vswap .. | .vcswap .. | .ndepth ..
  | .vswap4b .. | .vfnegin4b .. | .vfnegin .. | .pref .. => h.issued fun _ ht => ht
  | .halt .. => h.execHalt
  | .waitc .. => h.execWaitc
  | .brcEq .. | .brcNe .. | .brcLt .. | .brcGe .. | .brcLtn .. | .brcGen .. | .brcBset .. | .brcBclr .. => h.branchReg
  | .brciEq .. | .brciNe .. | .brciLt .. | .brciGe .. | .brciLtn .. | .brciGen .. | .brciBset .. | .brciBclr .. => h.branchImm
  | .jmpr .. | .callr .. | .ret .. => h.issued fun _ ht => ht.jumpTo
  | .add .. | .sub .. | .and .. | .or .. | .xor .. | .andn .. | .shl .. | .shr .. | .sar .. | .rol .. | .min .. | .max .. | .minn .. | .maxn .. | .slt .. | .sltn ..
  | .mul .. | .mulh .. | .mulhn .. | .div .. | .divn .. | .rem .. | .remn .. | .add2b .. | .sub2b .. | .and2b .. | .or2b .. | .xor2b .. | .andn2b .. | .shl2b ..
  | .shr2b .. | .sar2b .. | .rol2b .. | .min2b .. | .max2b .. | .minn2b .. | .maxn2b .. | .slt2b .. | .sltn2b .. | .mul2b .. | .mulh2b .. | .mulhn2b .. | .div2b ..
  | .divn2b .. | .rem2b .. | .remn2b .. => h.regReg
  | .addi .. | .subi .. | .andi .. | .ori .. | .xori .. | .andni .. | .shli .. | .shri .. | .sari .. | .roli .. | .mini .. | .maxi .. | .minni .. | .maxni .. | .slti ..
  | .sltni .. => h.regImm
  | .clz .. | .ctz .. | .popc .. | .brev .. | .sext .. | .zext .. | .clz2b .. | .ctz2b .. | .popc2b .. | .brev2b .. | .sextI82b .. | .sextI162b .. | .sextI322b .. => h.regOne
  | .mfs .. => h.execMfs
  | .mts .. => h.execMts
  | .lds .. => h.execLds
  | .sts .. => h.execSts
  | .vmov .. | .vmov4b .. | .vmovE4b .. => h.execVmov
  | .vand .. | .vor .. | .vxor .. | .vandn .. | .vadd .. | .vsub .. | .vmin .. | .vmax .. | .vminn .. | .vmaxn .. | .vmul .. | .vmulh .. | .vshl .. | .vshr .. | .vsar ..
  | .vavg .. | .vand4b .. | .vor4b .. | .vxor4b .. | .vandn4b .. | .vadd4b .. | .vsub4b .. | .vmul4b .. | .vmin4b .. | .vmax4b .. | .vminn4b .. | .vmaxn4b ..
  | .vshl4b .. | .vshr4b .. | .vsar4b .. | .vavg4b .. | .vaddI164b .. | .vsubI164b .. | .vaddI84b .. | .vsubI84b .. | .vmaxI164b .. | .vminI164b .. | .vmulI164b ..
  | .vmulhI164b .. | .vaddE4b .. => h.vec2
  | .vcmpEq .. => h.execVcmpEq
  | .vcmpNe .. => h.execVcmpNe
  | .vcmpLt .. => h.execVcmpLt
  | .vcmpGe .. => h.execVcmpGe
  | .vcmpLtn .. => h.execVcmpLtn
  | .vcmpGen .. => h.execVcmpGen
  | .vsel .. => h.execVsel
  | .vabs .. | .vabs4b .. => h.execVabs
  | .vclz .. => h.vec1
  | .vpopc .. | .vpopc4b .. => h.execVpopc
  | .vredAdd .. | .vredMin .. | .vredMax .. | .vredMinn .. | .vredMaxn .. | .vredAnd .. | .vredOr .. | .vredXor .. => h.vecRed
  | .vaddin .. | .vsubin .. | .vaddin4b .. | .vsubin4b .. => h.vecIn
  | .vnegin .. | .vnegin4b .. => h.execVnegin
  | .vnotin .. | .vnotin4b .. => h.execVnotin
  | .vrotin .. => h.execVrotin
  | .vmulin .. => h.execVmulin
  | .vbrevin .. => h.execVbrevin
  | .vrevl .. | .vrotl .. | .vbfly .. | .vrevl4b .. => h.vecPerm
  | .vmaxk .. | .vmaxk4b .. => h.execVmaxk
  | .vmink .. | .vmink4b .. => h.execVmink
  | .vmaxnk .. | .vmaxnk4b .. => h.execVmaxnk
  | .vminnk .. | .vminnk4b .. => h.execVminnk
  | .vabsk .. | .vabsk4b .. => h.execVabsk
  | .vuncx .. | .vuncx4b .. => h.execVuncx
  | .vunabs .. | .vunabs4b .. => h.execVunabs
  | .npush .. => h.execNpush
  | .nunpush .. => h.execNunpush
  | .npop .. => h.execNpop
  | .ndrop .. => h.execNdrop
  | .nspill .. => h.execNspill
  | .nfill .. => h.execNfill
  | .erase .. | .erase4b .. => h.execErase
  | .vfadd4b .. | .vfsub4b .. | .vfmul4b .. | .vfmin4b .. | .vfmax4b .. | .vfdiv4b .. | .vfaddBf164b .. | .vfaddE4b .. | .vfmulE4b .. | .vfadd .. | .vfsub .. | .vfmul ..
  | .vfmin .. | .vfmax .. | .vfdiv .. | .vfscale .. | .vfcopysign .. => h.vf2
  | .vfma4b .. | .vfms4b .. | .vfnma4b .. | .vfmacE4b .. | .vfmaBf164b .. | .vfmaE4b .. | .vfma .. | .vfms .. | .vfnma .. | .vfmac .. => h.vf3
  | .vfsqrt4b .. | .vfrcp4b .. | .vfrsq4b .. | .vfexp24b .. | .vflog24b .. | .vfabs4b .. | .vfabs .. | .vfsqrt .. | .vfrcp .. | .vfrsq .. | .vfexp2 .. | .vflog2 ..
  | .vfclass .. => h.vf1
  | .vffloor .. => h.execVffloor
  | .vfceil .. => h.execVfceil
  | .vftrunc .. => h.execVftrunc
  | .vfrint .. => h.execVfrint
  | .vfcmpEq .. => h.execVfcmpEq
  | .vfcmpNe .. => h.execVfcmpNe
  | .vfcmpLt .. => h.execVfcmpLt
  | .vfcmpLe .. => h.execVfcmpLe
  | .vfcmpGt .. => h.execVfcmpGt
  | .vfcmpGe .. => h.execVfcmpGe
  | .vfcmpUnord .. => h.execVfcmpUnord
  | .vfcmpOrd .. => h.execVfcmpOrd
  | .vfredAdd .. | .vfredMax .. | .vfredMin .. | .vfredAmax .. => h.vfRed
  | .vcvt .. => h.execVcvt
  | .vqnt .. => h.execVqnt
  | .vdqnt .. => h.execVdqnt
  | .vscl .. => h.execVscl
  | .vpack .. => h.execVpack
  | .vunpk .. => h.execVunpk
  | .vsplit .. => h.execVsplit
  | .mtt .. => h.execMtt
  | .mgo .. => h.execMgo
  | .mabort .. => h.execMabort
  | .mma .. => h.execMma
  | .mlda .. => h.execMlda
  | .wswap .. => h.execWswap
  | .adrn .. => h.execAdrn
  | .aclr .. => h.execAclr
  | .reelon .. => h.execReelon
  | .reeloff .. => h.execReeloff
  | .cuew .. => h.execCuew
  | .cuedone .. => h.execCuedone
  | .cuepoll .. => h.execCuepoll
  | .hgdef .. => h.execHgdef
  | .hgl .. => h.execHgl
  | .hgsDet .. => h.execHgsDet
  | .hgsRel .. => h.execHgsRel
  | .hgw .. => h.execHgw
  | .vldUnit .. | .vldStrd .. | .vldGath .. => h.vectorLoad
  | .vstUnit .. | .vstStrd .. | .vstScat .. => h.vectorStore
  | .tld .. => h.execTld
  | .tst .. => h.execTst
  | .sdef .. => h.execSdef
  | .cpy .. => h.execCpy
  | .cpyw .. => h.execCpyw
  | .smark .. => h.execSmark
  | .phase .. => h.execPhase
  | .vaultf .. => h.execVaultf
  | .rngclaim .. => h.execRngclaim
  | .rngfill .. => h.execRngfill
  | .rngwait .. => h.execRngwait
  | .rngfree .. => h.execRngfree
  | .bacq .. => h.execBacq
  | .brel .. => h.execBrel
  | .rfadd .. => h.execRfadd
  | .mfset .. => h.execMfset
  | .flagw .. => h.execFlagw
  | .flagclr .. => h.execFlagclr
  | .flagrd .. => h.execFlagrd
  | .fence .. => h.execFence
  | .atomAdd .. | .atomAnd .. | .atomOr .. | .atomXor .. | .atomMin .. | .atomMax .. | .atomMinn .. | .atomMaxn .. | .atomXchg .. | .atomCas .. | .atomFadd ..
  | .atomFmin .. | .atomFmax .. => h.atomWord
  | .vatomAdd .. | .vatomAnd .. | .vatomOr .. | .vatomXor .. | .vatomMin .. | .vatomMax .. | .vatomMinn .. | .vatomMaxn .. | .vatomXchg .. | .vatomCas .. | .vatomFadd ..
  | .vatomFmin .. | .vatomFmax .. => h.atomLanes
  | .scopeset .. => h.execScopeset
  | .xput .. => h.execXput
  | .xget .. => h.execXget
  | .clstFadd .. | .clstFmax .. | .clstFmin .. | .clstIadd .. | .clstImax .. => h.collective
  | .trap .. => h.execTrap
  | .eret .. => h.execEret
  | .brk .. => h.execBrk
  | .wfe .. => h.execWfe
  | .evsig .. => h.execEvsig
  | .synci .. => h.execSynci
  | .tlbi .. => h.execTlbi
  | .csave .. => h.execCsave
  | .crest .. => h.execCrest
  | .mfp .. => h.execMfp
  | .mtp .. => h.execMtp
  | .yield .. => h.execYield
  | .krun .. => h.execKrun
  | .strm .. => h.execStrm
  | .sigAdd .. => h.execSigAdd
  | .sigSet .. => h.execSigSet
  | .sigWait .. => h.execSigWait
  | .kabort .. => h.execKabort
  | .stkmap .. => h.execStkmap
  | .permit .. => h.execPermit
  | .prel .. => h.execPrel
  | .lease .. => h.execLease
  | .opset .. => h.execOpset
  | .gate .. => h.execGate
  | .icacheFill .. => h.execIcacheFill
  | .instructionRetire .. => h.execInstructionRetire
  | .waitTimeout .. => h.execWaitTimeout
  | .hardwareBreakpoint .. => h.execHardwareBreakpoint
  | .accessPerform .. => h.execAccessPerform
  | .pageWalk .. => h.execPageWalk
  | .copyChunk .. => h.execCopyChunk
  | .nestPass .. => h.execNestPass
  | .permitGrant .. => h.execPermitGrant
  | .permitLeaseExpiry .. => h.execPermitLeaseExpiry
  | .boostLeaseExpiry .. => h.execBoostLeaseExpiry
  | .fillCueSend .. => h.execFillCueSend
  | .drainCueSend .. => h.execDrainCueSend
  | .cueDeliver .. => h.execCueDeliver
  | .beatStart .. => h.execBeatStart
  | .beatSlotRead .. => h.execBeatSlotRead
  | .reelPromotion .. => h.execReelPromotion
  | .beatMiss .. => h.execBeatMiss
  | .holdCheck .. => h.execHoldCheck
  | .cuedoneArrive .. => h.execCuedoneArrive
  | .reeloffEffect .. => h.execReeloffEffect
  | .reelEnd .. => h.execReelEnd
  | .reelSuspend .. => h.execReelSuspend
  | .phaseDrainEnd .. => h.execPhaseDrainEnd
  | .clstCombine .. => h.execClstCombine
  | .remoteRequestArrive .. => h.execRemoteRequestArrive
  | .eventDeliver .. => h.execEventDeliver
  | .preemptGraceEnd .. => h.execPreemptGraceEnd
  | .snapshotLand .. => h.execSnapshotLand
  | .entryIssue .. => h.execEntryIssue
  | .entryPromotion .. => h.execEntryPromotion
  | .kernelFinish .. => h.execKernelFinish
  | .mboxWrite .. => h.execMboxWrite
  | .hostTlp .. => h.execHostTlp
  | .linkReplay .. => h.execLinkReplay
  | .clockThrottle .. => h.execClockThrottle
  | .vaultRefreshRate .. => h
  | .breakEvenHoldEnd .. => h.execBreakEvenHoldEnd
  | .domainWake .. => h.execDomainWake
  | .coldBoot .. => h.execColdBoot
  | .vaultScrub .. => h.execVaultScrub
  | .getMeasurements .. => h.execGetMeasurements
  | .fatalError .. => h.execFatalError
  | .fqheadWrite .. => h.execFqheadWrite
  | .fqResetWrite .. => h.execFqResetWrite
  | .rngcfgWrite .. => h.execRngcfgWrite
  | .bufcfgWrite .. => h.execBufcfgWrite
  | .seqctlResume .. => h.execSeqctlResume
  | .seqctlKill .. => h.execSeqctlKill
  | .seqctlResumeXo .. => h.execSeqctlResumeXo
  | .sysregWrite .. => h.execSysregWrite
  | .fabricDomainFormation .. => h.execFabricDomainFormation

/-! ### A delivered cycle (R22, R82, R91, R103, R233, R325, R329) -/

theorem retireDue {n : Nat} {q : SeqId} : b.KeepsForm (s.retireDue n q) := h.foldl fun t x ht => by
  obtain ⟨u, ho, hu⟩ := (ht.execInstructionRetire (n := n) (q := q) (tag := x.tag)).exists_next
  rw [ho]
  exact hu

theorem landDue {n : Nat} : b.KeepsForm (s.landDue n) := h.foldl fun t _ ht => by
  obtain ⟨u, ho, hu⟩ := (ht.execSnapshotLand (n := n)).exists_next
  rw [ho]
  exact hu

theorem drainDue {n : Nat} : b.KeepsForm (s.drainDue n) := by
  obtain ⟨u, ho, hu⟩ := (h.execPhaseDrainEnd (bay := bayOf n)).exists_next
  unfold State.drainDue
  rw [ho]
  exact h.ite hu

theorem stopDue {n : Nat} : b.KeepsForm (s.stopDue n) := by
  unfold State.stopDue
  split
  · exact h
  · exact h.stopIssue.ite h

theorem beginCycle {n : Nat} : b.KeepsForm (s.beginCycle n) := h.stopDue.landDue.drainDue.foldl fun _ _ ht => ht.retireDue.endHalt.endWaitAt

theorem cycle {n : Nat} : b.KeepsForm (s.cycle n) := by
  unfold State.cycle
  extract_lets t
  have ht : b.KeepsForm t := h.foldl fun _ _ hu => hu.reelCycle
  exact ht.tick.foldl fun _ _ hu => hu.beginCycle

theorem pass {n cycles : Nat} : b.KeepsForm (s.pass n cycles) := by
  induction cycles generalizing s with
  | zero => exact h
  | succ k ih => exact ih h.cycle

theorem elapse {n cycles ctrl : Nat} : b.KeepsForm (s.elapse n cycles ctrl) := h.pass.tickControl.powerDue

/-! ### One sequencer, and the arbiter (R94, R95, R279, R352) -/

omit h in
theorem countFetch (ht : b.KeepsForm t) : b.KeepsForm (s.countFetch t) := .ite ht.noteAccess ht

theorem issueNext : b.Answers (issueNext s) := by
  unfold Machine.issueNext
  refine .ite h.stallDrain ?_
  split
  next i _ _ =>
    obtain ⟨t, ho, ht⟩ := (h.exec i).exists_next
    rw [ho]
    exact countFetch ht
  · exact countFetch h.takeFault
  · exact countFetch h.takeMark

theorem runCurrent : b.Answers (runCurrent s) := by
  unfold Machine.runCurrent
  refine .ite h ?_
  dsimp only
  split
  next u hu => exact h.reelJudged.before hu
  · exact .ite h.reelJudged.issueNext h.reelJudged

omit h in
theorem andThen {o : Out} {k : State → Out} (ho : b.Answers o) (hk : ∀ t, b.KeepsForm t → b.Answers (k t)) : b.Answers (andThen o k) := by
  obtain ⟨t, rfl, ht⟩ := ho.exists_next
  exact hk t ht

theorem eachSeq {l : List SeqId} {k : SeqId → State → Out} (hk : ∀ q t, b.KeepsForm t → b.Answers (k q t)) : b.Answers (eachSeq l k s) := by
  induction l generalizing s with
  | nil => exact h
  | cons q r ih => exact andThen (hk q s h) fun _ ht => ih ht

theorem noteWait {began : State} {n : Nat} {q : SeqId} : b.KeepsForm (State.noteWait began n q s) := by
  unfold State.noteWait
  split
  · extract_lets asks r t line
    have hr : b.KeepsForm r := .ite h.dropExplicit h
    have ht : b.KeepsForm t := KeepsForm.modSeq (hr.foldl fun _ _ hu => hu.addAsk)
    exact .ite ht.setBay ht
  · exact h

theorem moveSeq {began : State} {n : Nat} {accept : BitVec 4} {ready picks : List SeqId} {q : SeqId} : b.Answers (State.moveSeq began n accept ready picks q s) := by
  have hq : b.KeepsForm (s.as n q) := h
  exact .ite h (.ite hq.issueNext (.ite h.modSeq (.ite hq.endWait.setCur (andThen hq.issueNext fun _ ht => .ite h.noteWait ht))))

theorem beforeSeq {n : Nat} {q : SeqId} : b.Answers (State.beforeSeq n q s) := by
  have hj : b.KeepsForm ((s.reelJudged n q).as n q) := h.reelJudged
  unfold State.beforeSeq
  refine .ite h ?_
  cases hb : ((s.reelJudged n q).as n q).before with
  | none => exact h.reelJudged
  | some u => exact hj.before hb

theorem moveAll {n : Nat} {accept : BitVec 4} : b.Answers (State.moveAll n accept s) := h.eachSeq fun _ _ ht => ht.moveSeq

theorem turnTaken {n : Nat} : b.KeepsForm (s.turnTaken n) := .ite h.setStack h.setQuad

theorem arbitrate {n : Nat} {accept : BitVec 4} : b.Answers (arbitrate n accept s) :=
  .ite h (andThen (h.turnTaken.eachSeq fun _ _ ht => ht.beforeSeq) fun _ ht => andThen ht.moveAll fun _ hu => hu.setCur)

end State.KeepsForm

/-- A step, from any state, is a state, and one with the canonical form where the first has it. -/
theorem step_answers (s : State) : s.Answers (step s) := by
  unfold step
  split
  · exact (State.KeepsForm.refl s).elapse.runCurrent
  next t rest _ =>
    have h : s.KeepsForm { s with turns := rest, hold := t.hold } := State.KeepsForm.refl s
    dsimp only
    split
    · exact h.elapse.arbitrate
    · exact h.elapse.exec _

end Sys2Proof.Machine
end

section
/-! PROOFS. Steps keep memory canonical (O59), and every step answers (O60). -/

namespace Sys2Proof.Machine

/-- Settles O59: whatever a step is made of, instruction, event, cycle or arbitration, writes memory by laws that keep its form, and a step's state is the last of such. -/
theorem stepsKeepMemoryCanonical : Obligations.StepsKeepMemoryCanonical := by
  intro s t wf hs
  have kept := step_answers s
  rw [hs] at kept
  exact kept wf

/-- Settles O60: the step's outcome is the state that `step_answers` has. -/
theorem everyStepAnswers : Obligations.EveryStepAnswers := by
  intro s
  obtain ⟨t, ht, _⟩ := (step_answers s).exists_next
  exact ⟨t, ht⟩

end Sys2Proof.Machine
end
